-- ==== Sys2Proof/Word.lean ====
section
/-!
DEFINITION. The word types of the part (R2): bytes, 16-, 32- and 64-bit words.
-/

namespace Sys2Proof

/-- A byte. -/
abbrev Byte := BitVec 8
/-- A lane of a V register or one element of an accumulator bank. -/
abbrev Lane := BitVec 32
/-- A 64-bit word: an X register, a staging register, a memory word. -/
abbrev Word := BitVec 64

end Sys2Proof
end

