-- ==== Sys2Proof/Machine/Bits.lean ====
section
/-!
DEFINITION. Bit fields, sign extension, byte order and small counts (R2, R182).
-/

namespace Sys2Proof.Machine

/-- Bits [lo + len - 1 : lo] of x (R2). -/
def bitsAt {w : Nat} (x : BitVec w) (lo len : Nat) : BitVec len := x.extractLsb' lo len

/-- The natural number in bits [lo + len - 1 : lo] of x (R2). -/
def fieldAt {w : Nat} (x : BitVec w) (lo len : Nat) : Nat := (x.toNat / 2 ^ lo) % 2 ^ len

/-- Bit n of x. -/
def bitAt {w : Nat} (x : BitVec w) (n : Nat) : Bool := x.getLsbD n

/-- A natural number of w bits read as two's complement. -/
def signedOf (w n : Nat) : Int := if n % 2 ^ w < 2 ^ (w - 1) then (n % 2 ^ w : Nat) else (n % 2 ^ w : Nat) - (2 ^ w : Nat)

/-- An integer as the natural number of its low w bits. -/
def lowBits (w : Nat) (i : Int) : Nat := (i % (2 ^ w : Nat)).toNat

/-- SignExtend to 64 bits (R182). -/
def sext {w : Nat} (x : BitVec w) : Word := x.signExtend 64

/-- ZeroExtend to 64 bits (R182). -/
def zext {w : Nat} (x : BitVec w) : Word := x.setWidth 64

/-- A Boolean as one bit. -/
def ofBool (b : Bool) : BitVec 1 := if b then 1 else 0

/-- The k low bytes of n, least significant first (R2: little-endian). -/
def leBytes : Nat → Nat → List Byte
  | 0, _ => []
  | k + 1, n => BitVec.ofNat 8 n :: leBytes k (n / 256)

/-- The number whose bytes, least significant first, are given (R2). -/
def leNat : List Byte → Nat
  | [] => 0
  | b :: bs => b.toNat + 256 * leNat bs

/-- Set bits among the low k bits of n (R182). -/
def popCount : Nat → Nat → Nat
  | 0, _ => 0
  | k + 1, n => n % 2 + popCount k (n / 2)

/-- The lowest set bit among the low k bits of n, k if there is none. -/
def lowestSet : Nat → Nat → Nat
  | 0, _ => 0
  | k + 1, n => if n % 2 = 1 then 0 else 1 + lowestSet k (n / 2)

/-- Division rounding up. -/
def ceilDiv (a b : Nat) : Nat := (a + b - 1) / b

/-- Drop d's clear bits: the positions below k whose bit is set in n, ascending. -/
def setBits (k n : Nat) : List Nat := (List.range k).filter fun i => n.testBit i

/-- Replace element i of a list, leaving it as it is when i is beyond the end. -/
def setAt {α : Type} : List α → Nat → α → List α
  | [], _, _ => []
  | _ :: t, 0, a => a :: t
  | h :: t, i + 1, a => h :: setAt t i a

/-- Cut a list into runs of n (n > 0), with fuel for the number of runs. -/
def runsOf {α : Type} (n : Nat) : Nat → List α → List (List α)
  | 0, _ => []
  | _, [] => []
  | f + 1, l => l.take n :: runsOf n f (l.drop n)

end Sys2Proof.Machine
end

