-- ==== Sys2Proof/Machine/Float.lean ====
section
/-!
DEFINITION. Exact values, rounding and the scalar arithmetic of the formats: R63 to R66, R72 to R76, the window sum R91 and R92,
the finisher's functions R97 to R100 and the power of R117. Values are exact dyadic numbers; every rounding is one call of
roundFloat or roundInt.
-/

namespace Sys2Proof.Machine

/-- An exact value: NaN, an infinity, or (-1)^neg · m · 2^e, with m = 0 for a zero of that sign. -/
inductive Val where
  | nan
  | inf (neg : Bool)
  | num (neg : Bool) (m : Nat) (e : Int)
  deriving DecidableEq, Repr

/-- Flags of one operation, in the order of FLAGS: NV 0, OF 1, UF 2, NX 3, OOR 4, TB 5 (R85). -/
abbrev Flags := BitVec 6

/-- NV (R85). -/
def flNV : Flags := 1
/-- OF (R85). -/
def flOF : Flags := 2
/-- UF (R85). -/
def flUF : Flags := 4
/-- NX (R85). -/
def flNX : Flags := 8
/-- OOR (R85). -/
def flOOR : Flags := 16
/-- TB (R85). -/
def flTB : Flags := 32

/-- A binary format of R65: fraction bits and exponent bits. -/
structure BinFmt where
  frac : Nat
  expo : Nat
  deriving DecidableEq, Repr

/-- FP16 (R65). -/
def fp16 : BinFmt := ⟨10, 5⟩
/-- BF16 (R65). -/
def bf16 : BinFmt := ⟨7, 8⟩
/-- FP32 (R65). -/
def fp32 : BinFmt := ⟨23, 8⟩

/-- The exponent bias (R65). -/
def biasOf (f : BinFmt) : Nat := 2 ^ (f.expo - 1) - 1

/-- The bits of an infinity (R65). -/
def infBits (f : BinFmt) (neg : Bool) : Nat := (if neg then 2 ^ (f.expo + f.frac) else 0) + (2 ^ f.expo - 1) * 2 ^ f.frac

/-- The canonical NaN (R65, R66). -/
def nanBits (f : BinFmt) : Nat := (2 ^ f.expo - 1) * 2 ^ f.frac + 2 ^ (f.frac - 1)

/-- The value that the bits of a binary format hold (R65). -/
def decodeFloat (f : BinFmt) (x : Nat) : Val :=
  let s := x.testBit (f.expo + f.frac)
  let ex := x / 2 ^ f.frac % 2 ^ f.expo
  let fr := x % 2 ^ f.frac
  if ex = 2 ^ f.expo - 1 then (if fr = 0 then .inf s else .nan)
  else if ex = 0 then .num s fr (1 - (biasOf f : Int) - f.frac)
  else .num s (2 ^ f.frac + fr) ((ex : Int) - biasOf f - f.frac)

/-- The integer part q, remainder r and width k of m · 2^e measured in units of 2^u: m·2^e = (q + r / 2^k) · 2^u. -/
def splitAt (m : Nat) (e u : Int) : Nat × Nat × Nat :=
  if u ≤ e then (m * 2 ^ (e - u).toNat, 0, 0)
  else (m / 2 ^ (u - e).toNat, m % 2 ^ (u - e).toNat, (u - e).toNat)

/-- Whether the mode takes the candidate away from zero, for q + r / 2^k of the given sign (R74, R76). -/
def roundsUp (mode noise : Nat) (neg : Bool) (q r k : Nat) : Bool :=
  if r = 0 then false
  else match mode with
    | 1 => false
    | 2 => !neg
    | 3 => neg
    | 4 => q % 2 == 0
    | 6 => decide (noise < r * 2 ^ 16 / 2 ^ k)
    | _ => decide (2 ^ k < 2 * r) || (decide (2 * r = 2 ^ k) && q % 2 == 1)

/-- A nonzero exact value rounded to a binary format (R66, R74, R76): the bits and the flags. -/
def roundFinite (f : BinFmt) (mode noise : Nat) (neg : Bool) (m : Nat) (e : Int) : Nat × Flags :=
  let top : Int := e + Nat.log2 m                          -- Floor(Log2 |v|)
  let emin : Int := 1 - (biasOf f : Int)
  let emax : Int := biasOf f
  let free : Int := top - f.frac                           -- unit of the last place with an unbounded exponent
  let unit : Int := max free (emin - f.frac)
  let sign := if neg then 2 ^ (f.expo + f.frac) else 0
  let big := infBits f false
  if emax < top then
    let toInf := match mode with
      | 1 => false
      | 2 => !neg
      | 3 => neg
      | 4 => false
      | _ => true
    (sign + (if toInf then big else big - 1), flOF ||| flNX)
  else
    let (q, r, k) := splitAt m e unit
    let n := if roundsUp mode noise neg q r k then q + 1 else q
    let (qf, rf, kf) := splitAt m e free
    let nf := if roundsUp mode noise neg qf rf kf then qf + 1 else qf
    let mag := n + (unit - (emin - f.frac)).toNat * 2 ^ f.frac
    let tiny : Bool := decide (free < emin - f.frac) && decide (nf * 2 ^ (free - (emin - f.frac) + 4096).toNat < 2 ^ f.frac * 2 ^ 4096)
    let inexact : Bool := r != 0
    let fl : Flags := (if inexact then flNX else 0) ||| (if inexact && tiny then flUF else 0) |||
      (if big ≤ mag then flOF ||| flNX else 0)
    (sign + mag, fl)

/-- Round(v, fmt, mode) for a binary format (R65, R66, R74, R76). -/
def roundFloat (f : BinFmt) (mode noise : Nat) : Val → Nat × Flags
  | .nan => (nanBits f, 0)
  | .inf s => (infBits f s, 0)
  | .num s m e => if m = 0 then ((if s then 2 ^ (f.expo + f.frac) else 0), 0) else roundFinite f mode noise s m e

/-- RoundInt(v, mode) (R74, R182): the integer and whether it differs from the value. -/
def roundInt (mode noise : Nat) (neg : Bool) (m : Nat) (e : Int) : Int × Bool :=
  let (q, r, k) := splitAt m e 0
  let n : Int := if roundsUp mode noise neg q r k then (q : Int) + 1 else q
  (if neg then -n else n, r != 0)

/-- Conversion to a two's complement (sgn) or unsigned format of w bits, saturating (R64); ints tells that the source is an
integer. The bits are those of w. -/
def toInteger (w : Nat) (sgn ints : Bool) (mode noise : Nat) (v : Val) : Nat × Flags :=
  let lo : Int := if sgn then -(2 ^ (w - 1) : Nat) else 0
  let hi : Int := if sgn then (2 ^ (w - 1) : Nat) - 1 else (2 ^ w : Nat) - 1
  let sat : Flags := if ints then flOF else flNV
  match v with
  | .nan => (0, flNV)
  | .inf s => (lowBits w (if s then lo else hi), flNV)
  | .num s m e =>
    let (n, ix) := roundInt mode noise s m e
    if n < lo then (lowBits w lo, sat) else if hi < n then (lowBits w hi, sat)
    else (lowBits w n, if ix then flNX else 0)

/-- The exact value of an integer. -/
def ofInteger (i : Int) : Val := .num (decide (i < 0)) i.natAbs 0

/-- -v. -/
def negVal : Val → Val
  | .nan => .nan
  | .inf s => .inf !s
  | .num s m e => .num (!s) m e

/-- Whether a value is a zero. -/
def isZeroVal : Val → Bool
  | .num _ m _ => m == 0
  | _ => false

/-- The exact product, and NV's flag for ∞ × 0 (R66). -/
def mulVal : Val → Val → Val × Flags
  | .nan, _ => (.nan, 0)
  | _, .nan => (.nan, 0)
  | .inf s, .inf t => (.inf (s != t), 0)
  | .inf s, .num t m _ => if m = 0 then (.nan, flNV) else (.inf (s != t), 0)
  | .num s m _, .inf t => if m = 0 then (.nan, flNV) else (.inf (s != t), 0)
  | .num s m e, .num t n d => (.num (s != t) (m * n) (e + d), 0)

/-- The signed integer of a finite value in units of 2^u, exact when u is at most its exponent. -/
def scaledInt (neg : Bool) (m : Nat) (e u : Int) : Int :=
  let n : Int := ((m * 2 ^ (e - u).toNat : Nat) : Int)
  if neg then -n else n

/-- The exact sum under round-to-nearest sign rules, and NV's flag for ∞ - ∞ (R66): a zero sum is -0 only of two -0. -/
def addVal : Val → Val → Val × Flags
  | .nan, _ => (.nan, 0)
  | _, .nan => (.nan, 0)
  | .inf s, .inf t => if s = t then (.inf s, 0) else (.nan, flNV)
  | .inf s, _ => (.inf s, 0)
  | _, .inf t => (.inf t, 0)
  | .num s m e, .num t n d =>
    let u := min e d
    let z := scaledInt s m e u + scaledInt t n d u
    (.num (if z = 0 then s && t && (m == 0) && (n == 0) else decide (z < 0)) z.natAbs u, 0)

/-- Whether a is below b (both finite or infinite; a NaN is below nothing). -/
def ltVal : Val → Val → Bool
  | .nan, _ => false
  | _, .nan => false
  | .inf s, .inf t => s && !t
  | .inf s, _ => s
  | _, .inf t => !t
  | .num s m e, .num t n d =>
    let u := min e d
    decide (scaledInt s m e u < scaledInt t n d u)

/-- RNE(v) to FP32 (R182). -/
def rne32 (v : Val) : Nat × Flags := roundFloat fp32 0 0 v

/-- The FP32 value that 32 bits hold. -/
def val32 (x : Nat) : Val := decodeFloat fp32 x

/-- IEEE binary32 product with RNE (R118, R237). -/
def mul32 (a b : Nat) : Nat × Flags :=
  let (v, f) := mulVal (val32 a) (val32 b)
  let (x, g) := rne32 v
  (x, f ||| g)

/-- IEEE binary32 sum with RNE (R120, R237). -/
def add32f (a b : Nat) : Nat × Flags :=
  let (v, f) := addVal (val32 a) (val32 b)
  let (x, g) := rne32 v
  (x, f ||| g)

/-- The bits of FP32 with the sign turned. -/
def neg32 (a : Nat) : Nat := if a.testBit 31 then a - 2 ^ 31 else a + 2 ^ 31

/-- Maximum of R99 and R237: any NaN gives the canonical NaN; +0 ranks above -0. -/
def max32 (a b : Nat) : Nat :=
  match val32 a, val32 b with
  | .nan, _ => nanBits fp32
  | _, .nan => nanBits fp32
  | x, y => if ltVal x y then b else if ltVal y x then a else if a.testBit 31 then b else a

/-- Minimum of R237: any NaN gives the canonical NaN; -0 ranks below +0. -/
def min32 (a b : Nat) : Nat :=
  match val32 a, val32 b with
  | .nan, _ => nanBits fp32
  | _, .nan => nanBits fp32
  | x, y => if ltVal x y then a else if ltVal y x then b else if a.testBit 31 then a else b

/-- Floor(Log2 |t|) of a finite nonzero value. -/
def exponentOf : Val → Int
  | .num _ m e => e + Nat.log2 m
  | _ => 0

/-- The largest of the exponents of the nonzero terms, none when every term is zero (R91). -/
def topExponent : List Val → Option Int
  | [] => none
  | t :: ts =>
    match topExponent ts with
    | none => if isZeroVal t then none else some (exponentOf t)
    | some x => if isZeroVal t then some x else some (max x (exponentOf t))

/-- A term truncated toward zero to a whole number of units 2^u, in those units (R91). -/
def truncTerm (u : Int) : Val → Int
  | .num s m e =>
    let n : Int := ((splitAt m e u).1 : Nat)
    if s then -n else n
  | _ => 0

/-- Whether a finite term is a whole number of units 2^u. -/
def wholeTerm (u : Int) : Val → Bool
  | .num _ m e => (splitAt m e u).2.1 == 0
  | _ => true

/-- The exact sum of finite terms in units of 2^u, u at most every exponent. -/
def exactSum (u : Int) : List Val → Int
  | [] => 0
  | .num s m e :: ts => scaledInt s m e u + exactSum u ts
  | _ :: ts => exactSum u ts

/-- The least exponent field of the finite terms, at most u. -/
def leastExponent (u : Int) : List Val → Int
  | [] => u
  | .num _ _ e :: ts => min e (leastExponent u ts)
  | _ :: ts => leastExponent u ts

/-- WindowSum of R91 over terms whose ∞ × stored 0 products are told by zeroInf. The answer is FP32 bits and flags. -/
def windowSum (zeroInf : Bool) (terms : List Val) : Nat × Flags :=
  if terms.any (fun t => t == .nan) then (nanBits fp32, 0)
  else if terms.any (fun t => t == .inf false) && terms.any (fun t => t == .inf true) then (nanBits fp32, flNV)
  else if zeroInf then (nanBits fp32, flNV)
  else if terms.any (fun t => t == .inf false) then (infBits fp32 false, 0)
  else if terms.any (fun t => t == .inf true) then (infBits fp32 true, 0)
  else match topExponent terms with
    | none => (if terms.all (fun t => match t with | .num s _ _ => s | _ => false) && !terms.isEmpty then 2 ^ 31 else 0, 0)
    | some top =>
      let u : Int := top - 62
      let s : Int := (terms.map (truncTerm u)).foldl (· + ·) 0
      let (r, f) := if s = 0 then (0, 0) else roundFloat fp32 0 0 (.num (decide (s < 0)) s.natAbs u)
      let y := if r = 2 ^ 31 then 0 else r                     -- a zero y is +0
      -- y differs from the exact sum: either the truncated sum was rounded, or truncation changed the sum
      let l := leastExponent u terms
      let t := exactSum l terms
      let same : Bool := match val32 y with
        | .num n m e =>
          let w := min e l
          decide (scaledInt n m e w = t * 2 ^ (l - w).toNat)
        | _ => false
      (y, f ||| (if same then 0 else flNX))

/-- The sum of R92: exact, saturated once to I32. -/
def intSum (c : Int) (terms : List Int) : Nat × Flags :=
  let s := terms.foldl (· + ·) c
  if s < -(2 ^ 31) then (2 ^ 31, flOF) else if 2 ^ 31 - 1 < s then (2 ^ 31 - 1, flOF) else (lowBits 32 s, 0)

/-- Pow(f, e) of R117: the roundings inside it set no flag. -/
def powSteps (f e : Nat) : Nat → Nat → Nat
  | 0, p => p
  | b + 1, p =>
    let q := (mul32 p p).1
    powSteps f e b (if e.testBit b then (mul32 q f).1 else q)

/-- Pow(f, e) (R117). -/
def pow32 (f e : Nat) : Nat := powSteps f e 16 0x3F800000

/-- The rebasing loop of R118 with fuel: the value and stamp after the boundaries at or before now. -/
def rebase (f now : Nat) : Nat → Nat → Nat → Flags → Nat × Nat × Flags
  | 0, v, st, fl => (v, st, fl)
  | k + 1, v, st, fl =>
    let b := ceilDiv (st + 2 ^ 14) (2 ^ 14) * 2 ^ 14
    if b ≤ now then
      let (w, g) := mul32 v (pow32 f (b - st))
      rebase f now k w b (fl ||| g)
    else (v, st, fl)

/-- The true step of a stamp (R118). -/
def trueStep (st now : Nat) : Nat := now - (now + 2 ^ 16 - st % 2 ^ 16) % 2 ^ 16

/-- Read(v, st, now) of R118: FP32 bits and the flags of the multiplications. A step below 2^16 may stand before step 0 for a
stamp later than now; the lag decides the decay, so 2^16 is added to both. -/
def readStamped (f v st now : Nat) : Nat × Flags :=
  let now' := now + 2 ^ 16
  let t := trueStep st now'
  let (w, t', fl) := rebase f now' 8 v t 0
  let (y, g) := mul32 w (pow32 f (now' - t'))
  (y, fl ||| g)

/-- Floor of the square root, bit by bit from bit b down (fuel b + 1). -/
def rootBits (n : Nat) : Nat → Nat → Nat
  | 0, r => r
  | b + 1, r => if (r + 2 ^ b) * (r + 2 ^ b) ≤ n then rootBits n b (r + 2 ^ b) else rootBits n b r

/-- Floor(√n). -/
def floorRoot (n : Nat) : Nat := rootBits n (Nat.log2 n / 2 + 1) 0

/-- Σ z^(2k+1)/(2k+1) in units of 2^-200, p the current odd power: atanh z. -/
def atanhFix (zz : Nat) : Nat → Nat → Nat → Nat
  | 0, _, _ => 0
  | fuel + 1, p, k => p / (2 * k + 1) + atanhFix zz fuel (p * zz / 2 ^ 200) (k + 1)

/-- ln m for m in [1, 2], in units of 2^-200: 2·atanh((m - 1)/(m + 1)). -/
def lnFix (num den : Nat) : Nat :=
  let z := (num - den) * 2 ^ 200 / (num + den)
  2 * atanhFix (z * z / 2 ^ 200) 80 z 0

/-- Σ y^k / k! in units of 2^-200. -/
def expFix (y : Nat) : Nat → Nat → Nat → Nat
  | 0, _, _ => 0
  | fuel + 1, t, k => t + expFix y fuel (t * y / 2 ^ 200 / (k + 1)) (k + 1)

/-- 2^x as an exact value, or to 180 bits with a last odd bit that stands for the rest (notes/assumptions/9.md). -/
def exp2Val : Val → Val
  | .nan => .nan
  | .inf s => if s then .num false 0 0 else .inf false
  | .num s m e =>
    let (q, r, k) := splitAt m e 0
    if 2 ^ 20 ≤ q then (if s then .num false 1 (-4096) else .num false 1 4096)
    else if r = 0 then .num false 1 (if s then -(q : Int) else q)
    else
      -- floor and fraction of the signed exponent
      let fl : Int := if s then -(q : Int) - 1 else q
      let fr := if s then 2 ^ k - r else r                 -- fraction fr / 2^k
      let y := fr * lnFix 2 1 / 2 ^ k
      .num false (expFix y 70 (2 ^ 200) 0 / 2 ^ 16 * 2 + 1) (fl - 185)

/-- log2 x for x > 0, exact for a power of two, else to 180 bits with a last odd bit (notes/assumptions/9.md). -/
def log2Pos (m : Nat) (e : Int) : Val :=
  let b := Nat.log2 m
  let top : Int := e + b
  if m = 2 ^ b then ofInteger top
  else
    let w : Nat := lnFix m (2 ^ b) * 2 ^ 200 / lnFix 2 1   -- log2 of the significand in units of 2^-200
    let z : Int := top * 2 ^ 200 + (w : Int)
    .num (decide (z < 0)) ((2 * z + 1).natAbs) (-201)

/-- LOG2 (R100). -/
def log2Val : Val → Val × Flags
  | .nan => (.nan, 0)
  | .inf s => if s then (.nan, flNV) else (.inf false, 0)
  | .num s m e => if m = 0 then (.inf true, 0) else if s then (.nan, flNV) else (log2Pos m e, 0)

/-- 1/x as an exact value or with a last odd bit (R100). -/
def recipVal : Val → Val
  | .nan => .nan
  | .inf s => .num s 0 0
  | .num s m e =>
    if m = 0 then .inf s
    else
      let k := Nat.log2 m + 64
      .num s (2 ^ k / m * 2 + (if 2 ^ k % m = 0 then 0 else 1)) (-e - k - 1)

/-- √x (R100). -/
def sqrtVal : Val → Val × Flags
  | .nan => (.nan, 0)
  | .inf s => if s then (.nan, flNV) else (.inf false, 0)
  | .num s m e =>
    if m = 0 then (.num s 0 0, 0) else if s then (.nan, flNV)
    else
      let odd : Nat := (e % 2).toNat
      let n := m * 2 ^ (128 + odd)
      let r := floorRoot n
      (.num false (r * 2 + (if r * r = n then 0 else 1)) ((e - odd) / 2 - 65), 0)

/-- 1/√x (R100). -/
def rsqrtVal : Val → Val × Flags
  | .nan => (.nan, 0)
  | .inf s => if s then (.nan, flNV) else (.num false 0 0, 0)
  | .num s m e =>
    if m = 0 then (.inf s, 0) else if s then (.nan, flNV)
    else
      let odd : Nat := (e % 2).toNat
      let m' := m * 2 ^ odd                                 -- x = m' · 2^(e - odd), an even exponent
      let k := Nat.log2 m' / 2 + 64
      let r := floorRoot (2 ^ (2 * k) / m')
      (.num false (r * 2 + (if r * r * m' = 2 ^ (2 * k) then 0 else 1)) (-((e - odd) / 2) - k - 1), 0)

/-- EXP2 of FP32 bits, correctly rounded (R100). -/
def exp2f (x : Nat) : Nat × Flags := rne32 (exp2Val (val32 x))
/-- RECIP of FP32 bits (R100). -/
def recipf (x : Nat) : Nat × Flags := rne32 (recipVal (val32 x))

/-- One rounded step of a composition: the result bits, the flags joined. -/
def andThen (a : Nat × Flags) (f : Nat → Nat × Flags) : Nat × Flags :=
  let (y, g) := f a.1
  (y, a.2 ||| g)

/-- SIGM (R100): RECIP(1 + EXP2(-x·L)). -/
def sigmf (x : Nat) : Nat × Flags :=
  andThen (andThen (andThen (mul32 (neg32 x) 0x3FB8AA3B) exp2f) (add32f 0x3F800000)) recipf

/-- TANH (R100): t ← EXP2(x·L2); 1 - 2·RECIP(1 + t). -/
def tanhf (x : Nat) : Nat × Flags :=
  andThen (andThen (andThen (andThen (andThen (mul32 x 0x4038AA3B) exp2f) (add32f 0x3F800000)) recipf) (mul32 0x40000000))
    (fun t => add32f 0x3F800000 (neg32 t))

/-- GELU (R100): u ← x + K1·((x·x)·x); (0.5·x)·(1 + TANH(K0·u)). -/
def geluf (x : Nat) : Nat × Flags :=
  let u := andThen (andThen (andThen (mul32 x x) (mul32 x)) (mul32 0x3D372713)) (add32f x)
  let t := andThen (andThen (andThen u (mul32 0x3F4C422A)) tanhf) (add32f 0x3F800000)
  let h := mul32 0x3F000000 x
  let (y, g) := mul32 h.1 t.1
  (y, t.2 ||| h.2 ||| g)

/-- A value scaled by 2^k. -/
def scaleVal (k : Int) : Val → Val
  | .num s m e => .num s m (e + k)
  | v => v

/-- Function fn of R100 on FP32 bits; k is the exponent of SCALE2. -/
def finishFn (fn : Nat) (k : Int) (x : Nat) : Nat × Flags :=
  match val32 x with
  | .nan => (nanBits fp32, 0)
  | v =>
    match fn with
    | 1 => if ltVal (.num false 0 0) v then (x, 0) else (0, 0)
    | 2 => exp2f x
    | 3 => let (y, f) := log2Val v; let (r, g) := rne32 y; (r, f ||| g)
    | 4 => recipf x
    | 5 => let (y, f) := rsqrtVal v; let (r, g) := rne32 y; (r, f ||| g)
    | 6 => let (y, f) := sqrtVal v; let (r, g) := rne32 y; (r, f ||| g)
    | 7 => mul32 x x
    | 8 => tanhf x
    | 9 => sigmf x
    | 10 => andThen (sigmf x) (mul32 x)
    | 11 => geluf x
    | 12 => (x % 2 ^ 31, 0)
    | 13 => rne32 (scaleVal k v)
    | _ => (x, 0)

/-- ZM(a, S) of R98 as an exact value: a zero a times an infinite S is +0, with no flag. -/
def zeroMass (a s : Nat) : Val × Flags :=
  match val32 a, val32 s with
  | .num t m e, .inf n => if m = 0 then (.num false 0 0, 0) else mulVal (.num t m e) (.inf n)
  | x, y => mulVal x y

end Sys2Proof.Machine
end

