-- ==== Sys2Proof/Syntax.lean ====
section
/-!
DEFINITION. The syntax of Tsunos: one constructor per row of the table of operations and events.

A slot constructor carries its guard g (R164) and the fields of its body (R179) under the letters of the opcode table.
The forms that LEND extends (R170) carry the lend byte x: none without a LEND header, some b under one.
A row that no slot encodes is a step of another agent (spec/95): its constructor carries what the agent brings.
-/

namespace Sys2Proof

/-- A seat of a tile (R6, R9): tile id 0 to 383, seat 0 or 1. -/
structure SeatId where
  tile : Nat
  seat : Nat
  deriving DecidableEq, Repr

/-- What a request at the fabric port asks of this device (R258): read n bytes, write bytes, or add 1 to a counter. -/
inductive FabricOp where
  | read (n : Nat)
  | write (data : List (BitVec 8))
  | add
  deriving DecidableEq, Repr

/-- The instructions and steps of the part, one constructor per row of the opcode table (R180 and spec/95). -/
inductive Instr where
  /-- NOP (R184): Slot that occupies no unit and has no effect. -/
  | nop (g : BitVec 4)
  /-- STALL (R184): The bundle occupies n consecutive steps of the seat. -/
  | stall (g : BitVec 4) (n : BitVec 8) (x : Option (BitVec 8))
  /-- ADD (R185): Xd receives a + b, wrapping. -/
  | add (g : BitVec 4) (d : BitVec 6) (a : BitVec 6) (b : BitVec 6)
  /-- SUB (R185): Xd receives a − b, wrapping. -/
  | sub (g : BitVec 4) (d : BitVec 6) (a : BitVec 6) (b : BitVec 6)
  /-- MUL (R185): Xd receives the low 64 bits of a·b after 3 steps. -/
  | mul (g : BitVec 4) (d : BitVec 6) (a : BitVec 6) (b : BitVec 6)
  /-- MULH (R185): Xd receives the upper 64 bits of the signed 128-bit product. -/
  | mulh (g : BitVec 4) (d : BitVec 6) (a : BitVec 6) (b : BitVec 6)
  /-- MULHN (R185): Xd receives the upper 64 bits of the unsigned 128-bit product. -/
  | mulhn (g : BitVec 4) (d : BitVec 6) (a : BitVec 6) (b : BitVec 6)
  /-- DIV (R186): Signed quotient that never traps, landing after 12 steps. -/
  | div (g : BitVec 4) (d : BitVec 6) (a : BitVec 6) (b : BitVec 6)
  /-- DIVN (R186): Unsigned quotient that never traps, landing after 12 steps. -/
  | divn (g : BitVec 4) (d : BitVec 6) (a : BitVec 6) (b : BitVec 6)
  /-- REM (R186): Signed remainder that never traps. -/
  | rem (g : BitVec 4) (d : BitVec 6) (a : BitVec 6) (b : BitVec 6)
  /-- REMN (R186): Unsigned remainder that never traps. -/
  | remn (g : BitVec 4) (d : BitVec 6) (a : BitVec 6) (b : BitVec 6)
  /-- AND (R185): Bitwise AND of two X registers. -/
  | and (g : BitVec 4) (d : BitVec 6) (a : BitVec 6) (b : BitVec 6)
  /-- OR (R185): Bitwise OR of two X registers; MOV is OR with X0. -/
  | or (g : BitVec 4) (d : BitVec 6) (a : BitVec 6) (b : BitVec 6)
  /-- XOR (R185): Bitwise XOR of two X registers. -/
  | xor (g : BitVec 4) (d : BitVec 6) (a : BitVec 6) (b : BitVec 6)
  /-- ANDN (R185): a AND NOT b. -/
  | andn (g : BitVec 4) (d : BitVec 6) (a : BitVec 6) (b : BitVec 6)
  /-- SHL (R185): Left shift by b[5:0] with zero fill. -/
  | shl (g : BitVec 4) (d : BitVec 6) (a : BitVec 6) (b : BitVec 6)
  /-- SHR (R185): Logical right shift by b[5:0]. -/
  | shr (g : BitVec 4) (d : BitVec 6) (a : BitVec 6) (b : BitVec 6)
  /-- SRA (R185): Arithmetic right shift by b[5:0]. -/
  | sra (g : BitVec 4) (d : BitVec 6) (a : BitVec 6) (b : BitVec 6)
  /-- MIN (R185): Signed minimum. -/
  | min (g : BitVec 4) (d : BitVec 6) (a : BitVec 6) (b : BitVec 6)
  /-- MAX (R185): Signed maximum. -/
  | max (g : BitVec 4) (d : BitVec 6) (a : BitVec 6) (b : BitVec 6)
  /-- MINN (R185): Unsigned minimum. -/
  | minn (g : BitVec 4) (d : BitVec 6) (a : BitVec 6) (b : BitVec 6)
  /-- MAXN (R185): Unsigned maximum. -/
  | maxn (g : BitVec 4) (d : BitVec 6) (a : BitVec 6) (b : BitVec 6)
  /-- CLZ (R185): Count of leading zero bits, 64 for zero. -/
  | clz (g : BitVec 4) (d : BitVec 6) (a : BitVec 6)
  /-- CTZ (R185): Count of trailing zero bits, 64 for zero. -/
  | ctz (g : BitVec 4) (d : BitVec 6) (a : BitVec 6)
  /-- POPC (R185): Count of set bits. -/
  | popc (g : BitVec 4) (d : BitVec 6) (a : BitVec 6)
  /-- ADD32 (R185): 32-bit add, sign-extended to 64 bits. -/
  | add32 (g : BitVec 4) (d : BitVec 6) (a : BitVec 6) (b : BitVec 6)
  /-- SUB32 (R185): 32-bit subtract, sign-extended to 64 bits. -/
  | sub32 (g : BitVec 4) (d : BitVec 6) (a : BitVec 6) (b : BitVec 6)
  /-- ADDI (R187): Xd receives Xa plus a sign-extended immediate. -/
  | addi (g : BitVec 4) (d : BitVec 6) (a : BitVec 6) (i : BitVec 8) (x : Option (BitVec 8))
  /-- ANDI (R187): Xd receives Xa AND the immediate. -/
  | andi (g : BitVec 4) (d : BitVec 6) (a : BitVec 6) (i : BitVec 8) (x : Option (BitVec 8))
  /-- ORI (R187): Xd receives Xa OR the immediate. -/
  | ori (g : BitVec 4) (d : BitVec 6) (a : BitVec 6) (i : BitVec 8) (x : Option (BitVec 8))
  /-- XORI (R187): Xd receives Xa XOR the immediate. -/
  | xori (g : BitVec 4) (d : BitVec 6) (a : BitVec 6) (i : BitVec 8) (x : Option (BitVec 8))
  /-- SHLI (R187): Left shift by an immediate 0–63. -/
  | shli (g : BitVec 4) (d : BitVec 6) (a : BitVec 6) (s : BitVec 6) (x : Option (BitVec 8))
  /-- SHRI (R187): Logical right shift by an immediate 0–63. -/
  | shri (g : BitVec 4) (d : BitVec 6) (a : BitVec 6) (s : BitVec 6) (x : Option (BitVec 8))
  /-- SRAI (R187): Arithmetic right shift by an immediate 0–63. -/
  | srai (g : BitVec 4) (d : BitVec 6) (a : BitVec 6) (s : BitVec 6) (x : Option (BitVec 8))
  /-- MOVI (R187): Xd receives the sign-extended immediate. -/
  | movi (g : BitVec 4) (d : BitVec 6) (i : BitVec 8) (x : Option (BitVec 8))
  /-- MOVK (R188): Inserts a 16-bit value into Xd at 16·sh, keeping the other bits. -/
  | movk (g : BitVec 4) (d : BitVec 6) (h : BitVec 2) (i : BitVec 8) (x : Option (BitVec 8))
  /-- CMPEQ (R189): Writes Xa = Xb and its complement to a predicate pair. -/
  | cmpeq (g : BitVec 4) (p : BitVec 4) (a : BitVec 6) (b : BitVec 6)
  /-- CMPNE (R189): Writes Xa ≠ Xb and its complement to a predicate pair. -/
  | cmpne (g : BitVec 4) (p : BitVec 4) (a : BitVec 6) (b : BitVec 6)
  /-- CMPLT (R189): Signed less-than compare into a predicate pair. -/
  | cmplt (g : BitVec 4) (p : BitVec 4) (a : BitVec 6) (b : BitVec 6)
  /-- CMPLE (R189): Signed less-or-equal compare into a predicate pair. -/
  | cmple (g : BitVec 4) (p : BitVec 4) (a : BitVec 6) (b : BitVec 6)
  /-- CMPLTN (R189): Unsigned less-than compare into a predicate pair. -/
  | cmpltn (g : BitVec 4) (p : BitVec 4) (a : BitVec 6) (b : BitVec 6)
  /-- CMPLEN (R189): Unsigned less-or-equal compare into a predicate pair. -/
  | cmplen (g : BitVec 4) (p : BitVec 4) (a : BitVec 6) (b : BitVec 6)
  /-- CMPEQI (R189): Compares Xa with a signed immediate for equality. -/
  | cmpeqi (g : BitVec 4) (p : BitVec 4) (a : BitVec 6) (i : BitVec 9) (x : Option (BitVec 8))
  /-- CMPLTI (R189): Signed less-than compare with an immediate. -/
  | cmplti (g : BitVec 4) (p : BitVec 4) (a : BitVec 6) (i : BitVec 9) (x : Option (BitVec 8))
  /-- CMPLEI (R189): Signed less-or-equal compare with an immediate. -/
  | cmplei (g : BitVec 4) (p : BitVec 4) (a : BitVec 6) (i : BitVec 9) (x : Option (BitVec 8))
  /-- TBIT (R189): Tests bit n of Xa into a predicate pair. -/
  | tbit (g : BitVec 4) (p : BitVec 4) (a : BitVec 6) (n : BitVec 6)
  /-- PAND (R190): Pd receives Pa AND Pb. -/
  | pand (g : BitVec 4) (d : BitVec 4) (a : BitVec 4) (b : BitVec 4)
  /-- POR (R190): Pd receives Pa OR Pb. -/
  | por (g : BitVec 4) (d : BitVec 4) (a : BitVec 4) (b : BitVec 4)
  /-- PXOR (R190): Pd receives Pa XOR Pb. -/
  | pxor (g : BitVec 4) (d : BitVec 4) (a : BitVec 4) (b : BitVec 4)
  /-- PANDN (R190): Pd receives Pa AND NOT Pb. -/
  | pandn (g : BitVec 4) (d : BitVec 4) (a : BitVec 4) (b : BitVec 4)
  /-- PMOV (R190): Pd receives Pa. -/
  | pmov (g : BitVec 4) (d : BitVec 4) (a : BitVec 4)
  /-- PSET (R190): Pd receives the constant 0 or 1. -/
  | pset (g : BitVec 4) (d : BitVec 4) (v : BitVec 4)
  /-- PLOAD (R191): Sets P2–P15 from Xa[15:2]. -/
  | pload (g : BitVec 4) (x : BitVec 6)
  /-- PSTORE (R191): Writes P2–P15 as a predicate word into Xd. -/
  | pstore (g : BitVec 4) (x : BitVec 6)
  /-- BR (R192): Relative branch with one delay bundle. -/
  | br (g : BitVec 4) (o : BitVec 20) (x : Option (BitVec 8))
  /-- CALL (R192): Relative call that links X1, with one delay bundle. -/
  | call (g : BitVec 4) (o : BitVec 20) (x : Option (BitVec 8))
  /-- JMP (R192): Branch to the address in Xa, with one delay bundle; RET is JMP X1. -/
  | jmp (g : BitVec 4) (a : BitVec 6)
  /-- CALLX (R192): Call to the address in Xa, linking X1. -/
  | callx (g : BitVec 4) (a : BitVec 6)
  /-- LOOP (R195): Starts a hardware loop of n + ec iterations over the following body with register rotation. -/
  | loop (g : BitVec 4) (a : BitVec 6) (e : BitVec 4) (l : BitVec 10) (x : Option (BitVec 8))
  /-- MARK (R197): Performs the gated stores and takes fresh shadows as a restart mark. -/
  | mark (g : BitVec 4)
  /-- PARK (R27): Writes the continuation record with an optional counter wait and gives up the seat. -/
  | park (g : BitVec 4) (a : BitVec 6) (b : BitVec 6)
  /-- EXIT (R29): Ends the strand, leaves its team and frees its record and seat. -/
  | exit (g : BitVec 4)
  /-- TRAP (R199): After its bundle takes effect, raises a software trap with a code. -/
  | trap (g : BitVec 4) (c : BitVec 8)
  /-- SPOOL (R130): Runs Spool nest d from start level l as template bundles. -/
  | spool (g : BitVec 4) (n : BitVec 4) (l : BitVec 3)
  /-- SPBRK (R132): Ends the current iteration of Spool level l and the levels inside it. -/
  | spbrk (g : BitVec 4) (l : BitVec 3)
  /-- ERET (R200): Leaves handler mode and resumes the trapped strand from its container. -/
  | eret (g : BitVec 4)
  /-- LD8 (R240): Loads one byte of the own slice through a handle, zero-extended. -/
  | ld8 (g : BitVec 4) (h : BitVec 6) (d : BitVec 6) (c : BitVec 6) (x : Option (BitVec 8))
  /-- LD16 (R240): Loads two bytes through a handle, zero-extended. -/
  | ld16 (g : BitVec 4) (h : BitVec 6) (d : BitVec 6) (c : BitVec 6) (x : Option (BitVec 8))
  /-- LD32 (R240): Loads four bytes through a handle, zero-extended. -/
  | ld32 (g : BitVec 4) (h : BitVec 6) (d : BitVec 6) (c : BitVec 6) (x : Option (BitVec 8))
  /-- LD64 (R240): Loads eight bytes through a handle. -/
  | ld64 (g : BitVec 4) (h : BitVec 6) (d : BitVec 6) (c : BitVec 6) (x : Option (BitVec 8))
  /-- LD8S (R240): Loads one byte, sign-extended. -/
  | ld8s (g : BitVec 4) (h : BitVec 6) (d : BitVec 6) (c : BitVec 6) (x : Option (BitVec 8))
  /-- LD16S (R240): Loads two bytes, sign-extended. -/
  | ld16s (g : BitVec 4) (h : BitVec 6) (d : BitVec 6) (c : BitVec 6) (x : Option (BitVec 8))
  /-- LD32S (R240): Loads four bytes, sign-extended. -/
  | ld32s (g : BitVec 4) (h : BitVec 6) (d : BitVec 6) (c : BitVec 6) (x : Option (BitVec 8))
  /-- ST8 (R243): Gated store of the low byte of Xa. -/
  | st8 (g : BitVec 4) (h : BitVec 6) (d : BitVec 6) (c : BitVec 6) (x : Option (BitVec 8))
  /-- ST16 (R243): Gated store of the low two bytes of Xa. -/
  | st16 (g : BitVec 4) (h : BitVec 6) (d : BitVec 6) (c : BitVec 6) (x : Option (BitVec 8))
  /-- ST32 (R243): Gated store of the low four bytes of Xa. -/
  | st32 (g : BitVec 4) (h : BitVec 6) (d : BitVec 6) (c : BitVec 6) (x : Option (BitVec 8))
  /-- ST64 (R243): Gated store of all eight bytes of Xa. -/
  | st64 (g : BitVec 4) (h : BitVec 6) (d : BitVec 6) (c : BitVec 6) (x : Option (BitVec 8))
  /-- LDV (R242): Loads 64 elements along the last coordinate into a V register. -/
  | ldv (g : BitVec 4) (h : BitVec 6) (d : BitVec 5) (c : BitVec 6) (x : Option (BitVec 8))
  /-- STV (R243): Gated store of 64 lanes along the last coordinate. -/
  | stv (g : BitVec 4) (h : BitVec 6) (d : BitVec 5) (c : BitVec 6) (x : Option (BitVec 8))
  /-- LDVX (R242): Loads 64 elements along the second-last coordinate. -/
  | ldvx (g : BitVec 4) (h : BitVec 6) (d : BitVec 5) (c : BitVec 6) (x : Option (BitVec 8))
  /-- STVX (R243): Gated store of 64 lanes along the second-last coordinate. -/
  | stvx (g : BitVec 4) (h : BitVec 6) (d : BitVec 5) (c : BitVec 6) (x : Option (BitVec 8))
  /-- LDT (R242): Loads one 64×64 tile into a T register, holding the port 16 steps. -/
  | ldt (g : BitVec 4) (h : BitVec 6) (d : BitVec 3) (c : BitVec 6) (x : Option (BitVec 8))
  /-- STT (R243): Gated store of one 64×64 tile, holding the port 16 steps. -/
  | stt (g : BitVec 4) (h : BitVec 6) (d : BitVec 3) (c : BitVec 6) (x : Option (BitVec 8))
  /-- LDS (R245): Reads a stamped word decayed to now. -/
  | lds (g : BitVec 4) (h : BitVec 6) (d : BitVec 6) (c : BitVec 6) (x : Option (BitVec 8))
  /-- LDSV (R245): Reads 64 stamped words decayed to now into a V register. -/
  | ldsv (g : BitVec 4) (h : BitVec 6) (d : BitVec 5) (c : BitVec 6) (x : Option (BitVec 8))
  /-- SPLD (R202): Loads a spill slot into Xd. -/
  | spld (g : BitVec 4) (r : BitVec 6) (s : BitVec 9)
  /-- SPST (R202): Stores Xa into a spill slot. -/
  | spst (g : BitVec 4) (r : BitVec 6) (s : BitVec 9)
  /-- SPLDV (R202): Loads 32 spill slots into a V register. -/
  | spldv (g : BitVec 4) (r : BitVec 5) (s : BitVec 9)
  /-- SPSTV (R202): Stores a V register into 32 spill slots. -/
  | spstv (g : BitVec 4) (r : BitVec 5) (s : BitVec 9)
  /-- SPLDP (R202): Loads a spill slot into a K register or the predicate word. -/
  | spldp (g : BitVec 4) (r : BitVec 6) (s : BitVec 9)
  /-- SPSTP (R202): Stores a K register or the predicate word into a spill slot. -/
  | spstp (g : BitVec 4) (r : BitVec 6) (s : BitVec 9)
  /-- VADD (R206): Masked lane-wise integer addition. -/
  | vadd (g : BitVec 4) (d : BitVec 5) (a : BitVec 5) (b : BitVec 5) (k : BitVec 3)
  /-- VSUB (R206): Masked lane-wise integer subtraction. -/
  | vsub (g : BitVec 4) (d : BitVec 5) (a : BitVec 5) (b : BitVec 5) (k : BitVec 3)
  /-- VMUL (R206): Masked lane-wise low product. -/
  | vmul (g : BitVec 4) (d : BitVec 5) (a : BitVec 5) (b : BitVec 5) (k : BitVec 3)
  /-- VAND (R206): Masked lane-wise AND. -/
  | vand (g : BitVec 4) (d : BitVec 5) (a : BitVec 5) (b : BitVec 5) (k : BitVec 3)
  /-- VOR (R206): Masked lane-wise OR. -/
  | vor (g : BitVec 4) (d : BitVec 5) (a : BitVec 5) (b : BitVec 5) (k : BitVec 3)
  /-- VXOR (R206): Masked lane-wise XOR. -/
  | vxor (g : BitVec 4) (d : BitVec 5) (a : BitVec 5) (b : BitVec 5) (k : BitVec 3)
  /-- VSHL (R206): Masked lane-wise left shift. -/
  | vshl (g : BitVec 4) (d : BitVec 5) (a : BitVec 5) (b : BitVec 5) (k : BitVec 3)
  /-- VSHR (R206): Masked lane-wise logical right shift. -/
  | vshr (g : BitVec 4) (d : BitVec 5) (a : BitVec 5) (b : BitVec 5) (k : BitVec 3)
  /-- VSRA (R206): Masked lane-wise arithmetic right shift. -/
  | vsra (g : BitVec 4) (d : BitVec 5) (a : BitVec 5) (b : BitVec 5) (k : BitVec 3)
  /-- VMIN (R206): Masked lane-wise signed minimum. -/
  | vmin (g : BitVec 4) (d : BitVec 5) (a : BitVec 5) (b : BitVec 5) (k : BitVec 3)
  /-- VMAX (R206): Masked lane-wise signed maximum. -/
  | vmax (g : BitVec 4) (d : BitVec 5) (a : BitVec 5) (b : BitVec 5) (k : BitVec 3)
  /-- VMINN (R206): Masked lane-wise unsigned minimum. -/
  | vminn (g : BitVec 4) (d : BitVec 5) (a : BitVec 5) (b : BitVec 5) (k : BitVec 3)
  /-- VMAXN (R206): Masked lane-wise unsigned maximum. -/
  | vmaxn (g : BitVec 4) (d : BitVec 5) (a : BitVec 5) (b : BitVec 5) (k : BitVec 3)
  /-- VSEL (R206): Selects lanes of Va or Vb by a K register. -/
  | vsel (g : BitVec 4) (d : BitVec 5) (a : BitVec 5) (b : BitVec 5) (k : BitVec 3)
  /-- VCMPEQ (R207): Lane equality into a K pair. -/
  | vcmpeq (g : BitVec 4) (d : BitVec 3) (a : BitVec 5) (b : BitVec 5) (k : BitVec 3)
  /-- VCMPLT (R207): Signed lane less-than into a K pair. -/
  | vcmplt (g : BitVec 4) (d : BitVec 3) (a : BitVec 5) (b : BitVec 5) (k : BitVec 3)
  /-- VCMPLE (R207): Signed lane less-or-equal into a K pair. -/
  | vcmple (g : BitVec 4) (d : BitVec 3) (a : BitVec 5) (b : BitVec 5) (k : BitVec 3)
  /-- VCMPLTN (R207): Unsigned lane less-than into a K pair. -/
  | vcmpltn (g : BitVec 4) (d : BitVec 3) (a : BitVec 5) (b : BitVec 5) (k : BitVec 3)
  /-- VIOTA (R206): Each lane receives the popcount of the mask bits below it. -/
  | viota (g : BitVec 4) (d : BitVec 5) (k : BitVec 3)
  /-- VBCAST (R207): Broadcasts Xa into the enabled lanes with a given tag. -/
  | vbcast (g : BitVec 4) (d : BitVec 5) (x : BitVec 6) (t : BitVec 4) (k : BitVec 3)
  /-- VEXT (R207): Extracts one lane into an X register. -/
  | vext (g : BitVec 4) (d : BitVec 6) (a : BitVec 5) (b : BitVec 6)
  /-- VINS (R207): Inserts Xa into one lane of Vd. -/
  | vins (g : BitVec 4) (d : BitVec 5) (a : BitVec 6) (b : BitVec 6)
  /-- VPOPC (R207): Popcount of a K register into Xd. -/
  | vpopc (g : BitVec 4) (d : BitVec 6) (k : BitVec 3)
  /-- VFIRST (R207): Index of the lowest set bit of a K register, or 64. -/
  | vfirst (g : BitVec 4) (d : BitVec 6) (k : BitVec 3)
  /-- VPACK (R206): Packs the selected lanes of Va to the low lanes. -/
  | vpack (g : BitVec 4) (d : BitVec 5) (a : BitVec 5) (k : BitVec 3)
  /-- KAND (R206): Bitwise AND of K registers. -/
  | kand (g : BitVec 4) (d : BitVec 3) (a : BitVec 3) (b : BitVec 3)
  /-- KOR (R206): Bitwise OR of K registers. -/
  | kor (g : BitVec 4) (d : BitVec 3) (a : BitVec 3) (b : BitVec 3)
  /-- KXOR (R206): Bitwise XOR of K registers. -/
  | kxor (g : BitVec 4) (d : BitVec 3) (a : BitVec 3) (b : BitVec 3)
  /-- KMOV (R206): Copies a K register. -/
  | kmov (g : BitVec 4) (d : BitVec 3) (a : BitVec 3)
  /-- VMOV (R206): Masked copy of lane bits and tag of Va. -/
  | vmov (g : BitVec 4) (d : BitVec 5) (a : BitVec 5) (b : BitVec 5) (k : BitVec 3)
  /-- VTAG (R207): Sets the tag of a V register without changing its lanes. -/
  | vtag (g : BitVec 4) (d : BitVec 5) (t : BitVec 4)
  /-- VFMT (R207): Reads the tag of a V register into Xd. -/
  | vfmt (g : BitVec 4) (d : BitVec 6) (a : BitVec 5)
  /-- MLOAD (R214): Copies a T register, or its transpose, into the stationary latch. -/
  | mload (g : BitVec 4) (s : BitVec 3) (t : BitVec 1)
  /-- MLOADG (R214): Places a pattern descriptor in the stationary latch as a generated operand. -/
  | mloadg (g : BitVec 4) (s : BitVec 3) (t : BitVec 1)
  /-- MPUSH (R215): One beat of T rows against the latch into the working bank. -/
  | mpush (g : BitVec 4) (a : BitVec 2) (s : BitVec 3) (r : BitVec 6) (h : BitVec 1) (t : BitVec 1)
  /-- MPUSHL (R215): One beat of gather-latch rows against the stationary latch. -/
  | mpushl (g : BitVec 4) (a : BitVec 2) (r : BitVec 6) (h : BitVec 1) (t : BitVec 1)
  /-- MPUSHG (R215): One beat of generated pattern rows against the stationary latch. -/
  | mpushg (g : BitVec 4) (a : BitVec 2) (s : BitVec 3) (r : BitVec 6) (h : BitVec 1) (t : BitVec 1)
  /-- MZERO (R216): Clears a working bank and sets its tag to FP32 or I32. -/
  | mzero (g : BitVec 4) (a : BitVec 2) (f : BitVec 4)
  /-- MINIT (R216): Copies a T register exactly into a working bank. -/
  | minit (g : BitVec 4) (a : BitVec 2) (s : BitVec 3)
  /-- MSHIFT (R216): Moves the working bank's rows by a signed k. -/
  | mshift (g : BitVec 4) (a : BitVec 2) (k : BitVec 7)
  /-- MSWAP (R217): After a landing wait, exchanges the working and visible banks. -/
  | mswap (g : BitVec 4) (a : BitVec 2)
  /-- MDRAIN (R218): Snapshots the finisher configuration and drains visible-bank rows in beats. -/
  | mdrain (g : BitVec 4) (a : BitVec 2) (r : BitVec 6) (m : BitVec 7)
  /-- GSET (R220): Writes Xa into a G register as a pattern descriptor. -/
  | gset (g : BitVec 4) (t : BitVec 3) (x : BitVec 6)
  /-- GIDX (R220): Builds a ONEHOT or PERM descriptor bound to a V register. -/
  | gidx (g : BitVec 4) (t : BitVec 3) (v : BitVec 5) (k : BitVec 1) (e : BitVec 7)
  /-- GDIAG (R220): Builds a DIAG descriptor bound to a V register. -/
  | gdiag (g : BitVec 4) (t : BitVec 3) (v : BitVec 5) (e : BitVec 7)
  /-- GBAND (R220): Builds a BAND or BANDV descriptor from Xa. -/
  | gband (g : BitVec 4) (t : BitVec 3) (x : BitVec 6) (k : BitVec 1) (v : BitVec 5)
  /-- TZERO (R221): Clears a T register with a tag. -/
  | tzero (g : BitVec 4) (t : BitVec 3) (f : BitVec 4)
  /-- TMOVE (R221): Copies one T register to another. -/
  | tmove (g : BitVec 4) (t : BitVec 3) (a : BitVec 3)
  /-- TFILL (R221): Fills a T register with the low bits of Xa. -/
  | tfill (g : BitVec 4) (t : BitVec 3) (x : BitVec 6) (f : BitVec 4)
  /-- TSETV (R221): Writes a V register into one row of a T register. -/
  | tsetv (g : BitVec 4) (t : BitVec 3) (v : BitVec 5) (i : BitVec 6)
  /-- TGETV (R221): Reads one row of a T register into a V register. -/
  | tgetv (g : BitVec 4) (t : BitVec 3) (v : BitVec 5) (i : BitVec 6)
  /-- TTAG (R221): Sets a T register's tag among 16-bit formats. -/
  | ttag (g : BitVec 4) (t : BitVec 3) (f : BitVec 4)
  /-- TFMT (R221): Reads a T register's tag into Xd. -/
  | tfmt (g : BitVec 4) (t : BitVec 3) (x : BitVec 6)
  /-- XPAND (R227): Unpacks a BMZ row form from a V register into a T row. -/
  | xpand (g : BitVec 4) (d : BitVec 3) (s : BitVec 5) (f : BitVec 4) (i : BitVec 6)
  /-- XPOSE (R223): Transposes a T register exactly. -/
  | xpose (g : BitVec 4) (d : BitVec 3) (s : BitVec 3)
  /-- XCONV (R224): Converts a whole tile to another format, optionally transposed. -/
  | xconv (g : BitVec 4) (d : BitVec 3) (s : BitVec 3) (f : BitVec 4) (r : BitVec 3) (x : BitVec 1)
  /-- VCONV (R225): Converts enabled lanes to another format with one rounding. -/
  | vconv (g : BitVec 4) (d : BitVec 5) (s : BitVec 5) (f : BitVec 4) (r : BitVec 3) (k : BitVec 3)
  /-- XPERM (R226): Permutes lanes of Va by the indices in Vb. -/
  | xperm (g : BitVec 4) (d : BitVec 5) (s : BitVec 5) (b : BitVec 5) (k : BitVec 3)
  /-- XPACK (R227): Packs one T row into the BMZ row form in a V register. -/
  | xpack (g : BitVec 4) (d : BitVec 5) (s : BitVec 3) (i : BitVec 6)
  /-- DFCFG (R229): Sets function, output format, rounding, BMZ and k, and clears stages 2–4 and 6. -/
  | dfcfg (g : BitVec 4) (n : BitVec 4) (f : BitVec 4) (r : BitVec 3) (z : BitVec 1) (k : BitVec 8)
  /-- DFDST_NONE (R230): Sets no drain destination. -/
  | dfdstNone (g : BitVec 4)
  /-- DFDST_T (R230): Sets a T register as drain destination. -/
  | dfdstT (g : BitVec 4) (n : BitVec 3)
  /-- DFDST_H (R230): Sets a local tensor and coordinates as drain destination. -/
  | dfdstH (g : BitVec 4) (h : BitVec 6) (c : BitVec 6)
  /-- DFSCALE (R231): Enables the fused scale and bias stage. -/
  | dfscale (g : BitVec 4) (x : BitVec 1) (b : BitVec 1) (s : BitVec 5) (v : BitVec 5)
  /-- DFMASK (R233): Enables the mask stage and loads the mask word from Xs. -/
  | dfmask (g : BitVec 4) (h : BitVec 6) (x : BitVec 6) (q : BitVec 5)
  /-- DFROW (R232): Enables the row-maximum and row-sum side outputs. -/
  | dfrow (g : BitVec 4) (m : BitVec 1) (s : BitVec 1) (x : BitVec 5) (y : BitVec 5)
  /-- DFMASS (R234): Sets received mass of a sequence as drain destination. -/
  | dfmass (g : BitVec 4) (h : BitVec 6) (x : BitVec 6) (n : BitVec 2)
  /-- DFV (R237): Finisher lane arithmetic on FP32 V registers, landing after 10 steps. -/
  | dfv (g : BitVec 4) (d : BitVec 5) (a : BitVec 5) (b : BitVec 5) (f : BitVec 5)
  /-- DFSTAT (R238): Reads one word of the finisher configuration into Xd. -/
  | dfstat (g : BitVec 4) (d : BitVec 6) (w : BitVec 3)
  /-- COPY (R251): Issues a strided copy to the copy engine, optionally armed. -/
  | copy (g : BitVec 4) (q : BitVec 1) (r : BitVec 1) (s : BitVec 3) (k : BitVec 6) (m : BitVec 6) (w : BitVec 1)
  /-- COPYM (R252): Issues a copy multicast to the tiles of a mask. -/
  | copym (g : BitVec 4) (q : BitVec 1) (r : BitVec 1) (s : BitVec 3) (k : BitVec 6) (m : BitVec 6) (w : BitVec 1)
  /-- CEXP (R253): Issues the expansion of BMZ frames into dense tiles. -/
  | cexp (g : BitVec 4) (q : BitVec 1) (r : BitVec 1) (s : BitVec 3) (k : BitVec 6) (m : BitVec 6) (w : BitVec 1)
  /-- GATH (R254): Gathers up to 64 local rows into the gather latch. -/
  | gath (g : BitVec 4) (v : BitVec 5)
  /-- POOL (R255): Issues per-owner bag sums of embedding rows. -/
  | pool (g : BitVec 4) (q : BitVec 1) (r : BitVec 1) (s : BitVec 3) (k : BitVec 6) (m : BitVec 6) (w : BitVec 1)
  /-- SFORK (R112): Issues the fork of a child sequence from a parent. -/
  | sfork (g : BitVec 4) (q : BitVec 1) (r : BitVec 1) (s : BitVec 3) (k : BitVec 6) (m : BitVec 6) (w : BitVec 1)
  /-- SRETIRE (R257): Asks Ballast to retire a slot range whatever its mass. -/
  | sretire (g : BitVec 4) (q : BitVec 1) (r : BitVec 1) (s : BitVec 3) (k : BitVec 6) (m : BitVec 6) (w : BitVec 1)
  /-- STLD (R126): Issues the install of sequence translation entries. -/
  | stld (g : BitVec 4) (q : BitVec 1) (r : BitVec 1) (s : BitVec 3) (k : BitVec 6) (m : BitVec 6) (w : BitVec 1)
  /-- STINV (R127): Issues the invalidation of sequence translation entries. -/
  | stinv (g : BitVec 4) (q : BitVec 1) (r : BitVec 1) (s : BitVec 3) (k : BitVec 6) (m : BitVec 6) (w : BitVec 1)
  /-- BALLAST (R136): Starts a Ballast pass on one sequence. -/
  | ballast (g : BitVec 4) (q : BitVec 1) (r : BitVec 1) (s : BitVec 3) (k : BitVec 6) (m : BitVec 6) (w : BitVec 1)
  /-- FPUT (R258): Issues a write of local bytes to another device of the Bridle window. -/
  | fput (g : BitVec 4) (q : BitVec 1) (r : BitVec 1) (s : BitVec 3) (k : BitVec 6) (m : BitVec 6) (w : BitVec 1)
  /-- FGET (R258): Issues a read of bytes from another device of the Bridle window. -/
  | fget (g : BitVec 4) (q : BitVec 1) (r : BitVec 1) (s : BitVec 3) (k : BitVec 6) (m : BitVec 6) (w : BitVec 1)
  /-- FRED (R259): Issues a contribution to a switch reduction window. -/
  | fred (g : BitVec 4) (q : BitVec 1) (r : BitVec 1) (s : BitVec 3) (k : BitVec 6) (m : BitVec 6) (w : BitVec 1)
  /-- LAUNCH (R39): Submits the descriptor in Z16–Z23 and reports acceptance in a predicate pair. -/
  | launch (g : BitVec 4) (r : BitVec 1) (s : BitVec 3) (p : BitVec 3)
  /-- OFFLOAD (R261): Starts moving a resident pageable tile to external memory. -/
  | offload (g : BitVec 4) (q : BitVec 1) (r : BitVec 1) (s : BitVec 3) (k : BitVec 6) (h : BitVec 6)
  /-- RECALL (R261): Starts moving an away pageable tile back into the slice. -/
  | recall (g : BitVec 4) (q : BitVec 1) (r : BitVec 1) (s : BitVec 3) (k : BitVec 6) (h : BitVec 6)
  /-- CADD (R263): Adds to a counter at its home with the given order and scope. -/
  | cadd (g : BitVec 4) (o : BitVec 2) (s : BitVec 3) (a : BitVec 6) (b : BitVec 6)
  /-- CWAIT (R263): Freezes the seat until a counter reaches a target. -/
  | cwait (g : BitVec 4) (o : BitVec 2) (s : BitVec 3) (a : BitVec 6) (b : BitVec 6)
  /-- CREAD (R263): Reads a counter into Xd. -/
  | cread (g : BitVec 4) (o : BitVec 2) (s : BitVec 3) (a : BitVec 6) (b : BitVec 6)
  /-- CRAISE (R263): Raises a counter to at least a floor value. -/
  | craise (g : BitVec 4) (o : BitVec 2) (s : BitVec 3) (a : BitVec 6) (b : BitVec 6)
  /-- AADD (R264): Relaxed atomic add on a word at its home. -/
  | aadd (g : BitVec 4) (d : BitVec 6) (a : BitVec 6) (b : BitVec 6)
  /-- AMIN (R264): Relaxed atomic signed minimum. -/
  | amin (g : BitVec 4) (d : BitVec 6) (a : BitVec 6) (b : BitVec 6)
  /-- AMAX (R264): Relaxed atomic signed maximum. -/
  | amax (g : BitVec 4) (d : BitVec 6) (a : BitVec 6) (b : BitVec 6)
  /-- AXCHG (R264): Relaxed atomic exchange. -/
  | axchg (g : BitVec 4) (d : BitVec 6) (a : BitVec 6) (b : BitVec 6)
  /-- ACAS (R264): Relaxed atomic compare-and-swap. -/
  | acas (g : BitVec 4) (d : BitVec 6) (a : BitVec 6) (b : BitVec 6)
  /-- AAND (R264): Relaxed atomic AND. -/
  | aand (g : BitVec 4) (d : BitVec 6) (a : BitVec 6) (b : BitVec 6)
  /-- AOR (R264): Relaxed atomic OR. -/
  | aor (g : BitVec 4) (d : BitVec 6) (a : BitVec 6) (b : BitVec 6)
  /-- SADD (R120): Stamped add of a decayed term to a stamped word at its home. -/
  | sadd (g : BitVec 4) (d : BitVec 6) (a : BitVec 6) (b : BitVec 6)
  /-- FBEGIN (R152): Gives a fence token the coverage of earlier accesses of the selected kinds. -/
  | fbegin (g : BitVec 4) (f : BitVec 3) (k : BitVec 4) (s : BitVec 3)
  /-- FWAIT (R152): Freezes until the token's covered accesses have performed. -/
  | fwait (g : BitVec 4) (f : BitVec 3)
  /-- JOIN (R31): Joins a team, freezing until the open generation closes when one is open. -/
  | join (g : BitVec 4) (o : BitVec 2) (s : BitVec 3) (a : BitVec 6)
  /-- LEAVE (R31): Arrives once and leaves the team. -/
  | leave (g : BitVec 4) (o : BitVec 2) (s : BitVec 3) (a : BitVec 6)
  /-- TBAR (R31): Arrives and freezes until the generation's closing value is reached. -/
  | tbar (g : BitVec 4) (o : BitVec 2) (s : BitVec 3) (a : BitVec 6) (b : BitVec 6)
  /-- TARRIVE (R31): Arrives and returns the closing value without waiting. -/
  | tarrive (g : BitVec 4) (o : BitVec 2) (s : BitVec 3) (a : BitVec 6) (b : BitVec 6)
  /-- STEPADV (R116): Advances the identifier's step as a die-scope release. -/
  | stepadv (g : BitVec 4) (b : BitVec 6)
  /-- SRSV (R108): Reserves n consecutive slots of a sequence. -/
  | srsv (g : BitVec 4) (d : BitVec 6) (a : BitVec 6) (b : BitVec 6)
  /-- SCMT (R109): Commits an open reservation and grows LEN in hole-closing order. -/
  | scmt (g : BitVec 4) (a : BitVec 6) (b : BitVec 6)
  /-- SPIN (R115): Pins a slot against Ballast retirement. -/
  | spin (g : BitVec 4) (d : BitVec 6) (a : BitVec 6) (b : BitVec 6)
  /-- SUNPIN (R115): Unpins a slot. -/
  | sunpin (g : BitVec 4) (d : BitVec 6) (a : BitVec 6) (b : BitVec 6)
  /-- SQSNAP (R110): Acquires LEN and writes it to Xd and SQLENn. -/
  | sqsnap (g : BitVec 4) (d : BitVec 6) (a : BitVec 6) (n : BitVec 2)
  /-- MOVS (R208): Reads a special register into Xd. -/
  | movs (g : BitVec 4) (d : BitVec 6) (n : BitVec 10)
  /-- MOVSW (R208): Writes Xa into a special register. -/
  | movsw (g : BitVec 4) (a : BitVec 6) (n : BitVec 10)
  /-- SETPRI (R43): Sets the strand's priority, refusing a raise without SERVICE. -/
  | setpri (g : BitVec 4) (a : BitVec 6)
  /-- NOISECTL_LIVE (R80): Selects live noise mode. -/
  | noisectlLive (g : BitVec 4)
  /-- NOISECTL_LOG (R80): Selects log mode, appending consumed noise to a sequence. -/
  | noisectlLog (g : BitVec 4) (a : BitVec 6)
  /-- NOISECTL_REPLAY (R80): Selects replay mode from a log sequence and starting slot. -/
  | noisectlReplay (g : BitVec 4) (a : BitVec 6) (b : BitVec 6)
  /-- CHKMODE (R209): Turns check mode on or off. -/
  | chkmode (g : BitVec 4) (o : BitVec 1)
  /-- TRAPRD (R210): Reads one word of the trap record in handler mode. -/
  | traprd (g : BitVec 4) (d : BitVec 6) (n : BitVec 3)
  /-- IDLE (R211): Holds the seat at reduced power for a number of cycles. -/
  | idle (g : BitVec 4) (a : BitVec 6)
  /-- LEND (R170): Header lending one extension byte to each of slots 1 to 3. -/
  | lend (c : BitVec 8) (b : BitVec 8) (a : BitVec 8)
  /-- REP (R171): Header issuing slots 1 to 3 n times with register strides. -/
  | rep (n : BitVec 8) (z : BitVec 2) (y : BitVec 2) (x : BitVec 2)
  /-- RESULT_LANDING (R165): A pending result, with its flags, lands at issue step plus latency. -/
  | resultLanding (q : SeatId)
  /-- DRAIN_BEAT (R218): A drain beat reads eight visible-bank rows and passes them through the finisher. -/
  | drainBeat (q : SeatId)
  /-- MASS_ADD_ANSWER (R135): The answers of a beat's mass adds return and end any freeze. -/
  | massAddAnswer (q : SeatId)
  /-- HOME_OPERATION_PERFORMED (R262): An SY operation is performed at its home and the frozen seat receives its result. -/
  | homeOperationPerformed (n : Nat)
  /-- COUNTER_WAIT_SATISFIED (R144): A counter reaches a CWAIT's target and the seat acquires and resumes. -/
  | counterWaitSatisfied (q : SeatId)
  /-- TEAM_BARRIER_RELEASE (R31): ARRIVALS reaches a TBAR's closing value and the frozen seat resumes. -/
  | teamBarrierRelease (q : SeatId)
  /-- FENCE_PERFORMED (R152): Every access covered by a token has performed and FWAIT returns. -/
  | fencePerformed (q : SeatId)
  /-- IDLE_EXPIRY (R211): The cycles of an IDLE pass and the seat resumes. -/
  | idleExpiry (q : SeatId)
  /-- WATCH_CONDITION_MET (R28): A watched counter reaches a parked strand's target and the strand becomes runnable. -/
  | watchConditionMet (n : Nat)
  /-- STRAND_PLACEMENT (R328): The field scheduler places a runnable strand on an idle seat. -/
  | strandPlacement (f : Nat)
  /-- RECORD_CREATION_RETRY (R25): A record of the identifier frees and a deferred strand creation is retried. -/
  | recordCreationRetry (f : Nat)
  /-- PREEMPTION (R44): A seat or gang team is swapped into context containers at a bundle boundary. -/
  | preemption (q : SeatId)
  /-- GANG_QUANTUM_EXPIRY (R330): At quantum end a resident gang team is swapped out if an equal-level gang team is runnable. -/
  | gangQuantumExpiry (f : Nat)
  /-- AGING_PERIOD_EXPIRY (R329): A waiting strand's placement level rises by one up to the ceiling. -/
  | agingPeriodExpiry (f n : Nat)
  /-- BALANCING_TICK (R331): Every 10 µs a field offers its oldest unbound ready record to an adjacent field. -/
  | balancingTick (f : Nat)
  /-- TRIGGER_FIRE (R40): An armed launch's counter reaches its target and it moves to the pending-launch store. -/
  | triggerFire (f n : Nat)
  /-- ENGINE_NODE_FIRE (R249): An armed engine command's counter reaches its target and the command is performed. -/
  | engineNodeFire (f n : Nat)
  /-- PENDING_ENTRY_FREED (R40): A pending-launch entry frees and a fired trigger moves into it. -/
  | pendingEntryFreed (f : Nat)
  /-- LAUNCH_COMPLETION (R38): Every strand has exited and every engine command finished, so DONE receives its release add. -/
  | launchCompletion (l : Nat)
  /-- SUBMISSION_CONSUME (R321): The scheduler acquires LEN, reads and checks the next descriptor of a submission queue and accepts it. -/
  | submissionConsume (f : Nat)
  /-- COPY_COMPLETION (R251): A COPY's last write is done and it adds to its completion counter. -/
  | copyCompletion (c : Nat)
  /-- COPYM_COMPLETION (R252): A multicast copy's last write is done and it adds to its counter. -/
  | copymCompletion (c : Nat)
  /-- CEXP_COMPLETION (R253): A BMZ expansion completes and adds to its counter. -/
  | cexpCompletion (c : Nat)
  /-- POOL_COMPLETION (R255): All owners' partial rows are written and POOL adds to its counter. -/
  | poolCompletion (c : Nat)
  /-- SFORK_COMPLETION (R112): The fork's page sharing, boundary copy and child LEN release complete. -/
  | sforkCompletion (c : Nat)
  /-- SRETIRE_PASS (R257): Ballast performs a forced retirement pass over a slot range. -/
  | sretirePass (c : Nat)
  /-- STLD_COMPLETION (R126): Translation entries are installed and leases counted. -/
  | stldCompletion (c : Nat)
  /-- STINV_COMPLETION (R127): Translation entries are invalidated and leases released. -/
  | stinvCompletion (c : Nat)
  /-- BALLAST_PASS (R137): Ballast examines pages, retires low-mass slots and compacts pages. -/
  | ballastPass (c : Nat)
  /-- FPUT_COMPLETION (R258): Remote writes have performed, RCTR and the completion counter receive adds. -/
  | fputCompletion (c : Nat)
  /-- FGET_COMPLETION (R258): Remote reads return, RCTR is added and the local write completes. -/
  | fgetCompletion (c : Nat)
  /-- FRED_CONTRIBUTION (R259): A contribution arrives at the switch for a reduction window's round. -/
  | fredContribution (w port : Nat) (c : Option Nat) (data : List (BitVec 8))
  /-- FRED_ACKNOWLEDGE (R259): A contributor receives the switch's acknowledgement and adds to its completion counter. -/
  | fredAcknowledge (c : Nat)
  /-- REDUCTION_ROUND_TIMEOUT (R334): An open round misses its count within TMO and is abandoned. -/
  | reductionRoundTimeout (w : Nat)
  /-- REDUCTION_WINDOW_ACK (R334): A switch plane acknowledges a window configuration and the window goes live. -/
  | reductionWindowAck (w : Nat)
  /-- OFFLOAD_COMPLETION (R261): The tile's copy completes, it becomes away with its new frame, and the counter is added. -/
  | offloadCompletion (c : Nat)
  /-- RECALL_COMPLETION (R261): The tile's copy completes, it becomes resident in its new frame, and the counter is added. -/
  | recallCompletion (c : Nat)
  /-- ENGINE_FAILURE (R247): An engine command fails after issue and writes an event record without a completion add. -/
  | engineFailure (c : Nat) (code : BitVec 8)
  /-- STAMP_SWEEP (R118): The stamp units rebase an identifier's stamped words at a boundary. -/
  | stampSweep (asid : BitVec 16)
  /-- SAFFRON_BLOCK (R79): A conditioned noise block passes or fails its health test and is dealt to seat streams. -/
  | saffronBlock (f : Nat) (pass : Bool)
  /-- IEST_UPDATE (R326): Every µs the island current estimate and energy update and clock stretch starts or ends. -/
  | iestUpdate (f : Nat) (amps : BitVec 16)
  /-- PLL_RELOCK_DONE (R326): The field's PLL relocks after a FREQ write and its seats resume. -/
  | pllRelockDone (f : Nat)
  /-- GENERATION_PURGE_DONE (R338): Every translation cache has dropped entries of a generation and GENDONE rises. -/
  | generationPurgeDone (asid : BitVec 16)
  /-- ECC_WRITEBACK (R359): A corrected SRAM word is written back at the bank's next idle cycle. -/
  | eccWriteback (addr : Nat)
  /-- BRIDLE_XOFF (R333): An XOFF flit arrives and the sender stops that lane. -/
  | bridleXoff (link lane : Nat)
  /-- BRIDLE_XON (R333): An XON flit arrives and the lane resumes. -/
  | bridleXon (link lane : Nat)
  /-- BRIDLE_REPLAY_REQUEST (R333): A CRC error or gap requests a replay, failing the link after eight failed replays. -/
  | bridleReplayRequest (link : Nat) (ok : Bool)
  /-- LINK_TRAINING_DONE (R334): A retrained Bridle link comes up and sets its FLUP bit. -/
  | linkTrainingDone (link : Nat)
  /-- LINK_TRAINING_TIMEOUT (R334): A link fails to train within 2 ms and sets its FLFAIL bit. -/
  | linkTrainingTimeout (link : Nat)
  /-- PORTSEM_WRITE (R319): A write to PORTSEM takes, releases or keeps ownership and clears error bits. -/
  | portsemWrite (port : Nat) (v : BitVec 64)
  /-- ISLAND_WRITE (R326): A guarded write sets ICAP and FREQ, ignoring values out of range. -/
  | islandWrite (port f : Nat) (v : BitVec 64)
  /-- DRAW_WRITE (R327): A guarded write sets the draw of each placement class. -/
  | drawWrite (port : Nat) (v : BitVec 64)
  /-- W2BASE_WRITE (R320): Selects the main-memory segment reached by the port's BAR2 window. -/
  | w2baseWrite (port : Nat) (v : BitVec 64)
  /-- BAR2_ACCESS (R320): A host read or write through BAR2 reaches device main memory. -/
  | bar2Access (port off : Nat) (w : Option (List (BitVec 8)))
  /-- QGO_REGISTER (R322): Registers a submission queue from the staging registers. -/
  | qgoRegister (port : Nat)
  /-- QGO_RETIRE (R322): Retires a submission queue, stopping consumption. -/
  | qgoRetire (port : Nat)
  /-- QGO_INVALID (R322): A QGO value other than 1 or 2 changes nothing and reports WHY 6. -/
  | qgoInvalid (port : Nat)
  /-- QAPP_RESERVE (R323): The host reserves n slots of a submission sequence. -/
  | qappReserve (port : Nat) (v : BitVec 64)
  /-- QAPP_COMMIT (R323): The host commits a reservation as the doorbell. -/
  | qappCommit (port : Nat) (v : BitVec 64)
  /-- WGO_ARM (R325): Arms a host watch on a counter. -/
  | wgoArm (port : Nat)
  /-- WATCH_STORE_ARM (R325): A watch-table entry frees and a waiting host watch is armed. -/
  | watchStoreArm (port : Nat)
  /-- WATCH_FIRE (R325): A watched counter reaches its target and the MSI-X message is sent. -/
  | watchFire (n : Nat)
  /-- SCMD_SEAL (R358): Seals host data under the port's sealing key. -/
  | scmdSeal (port : Nat)
  /-- SCMD_VERIFY (R358): Verifies a tag over host data. -/
  | scmdVerify (port : Nat)
  /-- SCMD_ATTEST (R357): Writes a signed attestation report. -/
  | scmdAttest (port : Nat)
  /-- SCMD_LOAD_STATE (R356): Loads the sealed identity key state from the host. -/
  | scmdLoadState (port : Nat)
  /-- SECURITY_COMMAND_DONE (R358): The security unit finishes a command and SSTAT reports done or refused. -/
  | securityCommandDone
  /-- FWCMD_FETCH_VERIFY (R355): Fetches and verifies a new firmware image. -/
  | fwcmdFetchVerify (port : Nat)
  /-- FWCMD_WRITE_FLASH (R355): Writes the verified image to flash and raises the SVN floor. -/
  | fwcmdWriteFlash (port : Nat)
  /-- FW_COMMAND_DONE (R355): A firmware command finishes and FWSTAT reports its result. -/
  | fwCommandDone
  /-- FSELF_WRITE (R334): Sets the device number in the Bridle domain unless fabric commands are in flight. -/
  | fselfWrite (port : Nat) (v : BitVec 64)
  /-- FRETRAIN_WRITE (R334): Takes a Bridle link down and starts its training. -/
  | fretrainWrite (port : Nat) (v : BitVec 64)
  /-- FRED_WINDOW_SET (R334): A write setting VALID sends a reduction window configuration to its switch plane. -/
  | fredWindowSet (port w : Nat) (v : BitVec 64)
  /-- FRED_WINDOW_CLEAR (R334): A write clearing VALID removes a reduction window from its plane. -/
  | fredWindowClear (port w : Nat) (v : BitVec 64)
  /-- MIGR_QUIESCE (R348): Stops placement for an identifier and pre-empts its strands. -/
  | migrQuiesce (port : Nat) (asid : BitVec 16)
  /-- MIGR_RELEASE (R348): Restores placement for an identifier. -/
  | migrRelease (port : Nat) (asid : BitVec 16)
  /-- QUIESCE_DONE (R348): No seat holds a strand of the identifier any more and DONE is set. -/
  | quiesceDone (asid : BitVec 16)
  /-- REGISTER_WRITE (R318): A host write to a register with no behaviour of its own, or to an unlisted offset. -/
  | registerWrite (port off : Nat) (v : BitVec 64)
  /-- PORT_LINK_DOWN (R319): A host port link goes down and its semaphore ownership is released. -/
  | portLinkDown (port : Nat)
  /-- HOT_RESET (R364): A hot reset terminates every launch and brings the whole device up again. -/
  | hotReset
  /-- KEEL_POWER_ON (R349): The board powers Keel and the boot ROM verifies firmware and tests Keel. -/
  | keelPowerOn (image : List (BitVec 8)) (failed : Nat)
  /-- FIELD_POWER_GOOD (R350): A field's rail reports power-good and its PLL is locked next. -/
  | fieldPowerGood (f : Nat)
  /-- FIELD_POWER_GOOD_TIMEOUT (R350): Power-good misses its 20 ms limit and the field is fenced. -/
  | fieldPowerGoodTimeout (f : Nat)
  /-- FIELD_PLL_LOCK (R350): A field's PLL locks and built-in self-test starts. -/
  | fieldPllLock (f : Nat)
  /-- FIELD_PLL_LOCK_TIMEOUT (R350): PLL lock misses 100 µs and the field is fenced. -/
  | fieldPllLockTimeout (f : Nat)
  /-- FIELD_BIST_DONE (R350): BIST ends, failed tiles are mapped out or the field fenced. -/
  | fieldBistDone (f failed : Nat)
  /-- FIELD_BIST_TIMEOUT (R350): BIST misses 50 ms and the field is fenced. -/
  | fieldBistTimeout (f : Nat)
  /-- CROSSING_TRAINED (R350): A stitch crossing trains and, after the last, the field is released. -/
  | crossingTrained (f g : Nat)
  /-- CROSSING_TRAIN_TIMEOUT (R350): A crossing misses 2 ms and the field is fenced. -/
  | crossingTrainTimeout (f g : Nat)
  /-- CROSSING_TRAINING_LOSS (R351): A crossing loses training at run time and the higher-numbered field is fenced. -/
  | crossingTrainingLoss (f g : Nat)
  /-- ILLEGAL_BUNDLE (R173): A bundle whose slots match no assigned encoding issues, does nothing and raises illegal bundle. -/
  | illegalBundle (mask : BitVec 4) (reason : BitVec 8)
  /-- FABRIC_PORT_REQUEST (R258): A Bridle request from another device arrives at this device's fabric port and reads or writes its memory or adds to a counter here. -/
  | fabricPortRequest (asid : BitVec 16) (addr : BitVec 64) (op : FabricOp)
  /-- HDM_ACCESS (R317): A host read or write through the CXL.mem HDM-H mapping reaches device main memory. -/
  | hdmAccess (port off : Nat) (w : Option (List (BitVec 8)))
  /-- CXL_CACHE_SNOOP (R317): The host snoops a line of host memory that an engine, scheduler or watch entry holds, and the device answers with a snoop response. -/
  | cxlCacheSnoop (addr : Nat)
  deriving DecidableEq, Repr

end Sys2Proof
end

