-- ==== Sys2Proof/Machine/State.lean ====
section
/-!
DEFINITION. The state of the part as plain data: all that spec/ gives the machine (INVENTORY.md, '## State'), the reasons for a
stop, and the state after power-on.
-/

namespace Sys2Proof.Machine

/-- The reasons a step can stop with a fault. -/
inductive Fault where
  /-- A slot is executed while the current seat holds no strand: an idle seat has no registers (R9, R23). Raised by every slot's
  meaning. Safe: the hardware executes no slot there either. -/
  | idleSeat
  deriving DecidableEq, Repr

/-- The reasons a step can be refused. -/
inductive Refusal where
  /-- An instruction that the model does not give a meaning yet, by its mnemonic. Raised by the dispatch only. Safe. -/
  | notModelled (mnemonic : String)
  deriving DecidableEq, Repr

/-- Sparse data by key, keys strictly rising. -/
abbrev Assoc (α : Type) := List (Nat × α)

/-- Memory: (address, byte) cells in canonical form (Memory.wf): an unlisted address reads 0 (notes/assumptions/1.md). -/
abbrev Memory := List Host.Cell

/-- A V register (R175, R204). -/
structure VReg where
  tag : BitVec 4
  lanes : Vector Lane 64
  deriving DecidableEq, Repr

/-- A T register: its tag and its bytes in the layout of R367. -/
structure TReg where
  tag : BitVec 4
  bytes : Vector Byte 8192
  deriving DecidableEq, Repr

/-- One bank of an accumulator (R90): element (i, j) at 64·i + j. -/
structure Bank where
  tag : BitVec 4
  elems : Vector Lane 4096
  deriving DecidableEq, Repr

/-- The stationary latch (R88, R214): nothing, a tile (already transposed for .t) with the number of its T register, or a
generated operand with its descriptor, its copy of the bound V register and its G number. -/
inductive StatLatch where
  | empty
  | tile (t : TReg) (num : Nat)
  | gen (desc : Word) (v : VReg) (num : Nat) (transposed : Bool)
  deriving DecidableEq, Repr

/-- The gather latch (R61, R254): its tag and 64 rows of bytes, none for a structural row. -/
structure GatherLatch where
  tag : BitVec 4
  rows : List (Option (List Byte))
  deriving DecidableEq, Repr

/-- A fence token (R152): the commands and home operations it covers, the step below whose landings the mass adds that their beats have
sent are covered (R219), and the scope. A load is performed at its issue step (notes/assumptions/6.md). -/
structure Fence where
  cmds : List Nat
  ops : List Nat
  writes : Option Nat
  scope : Nat
  deriving DecidableEq, Repr

/-- A trap that a slot raises (R335, R340): cause, TRAPARG and the trap record's further fields. rollback: the seat rolls back
(R295); after: taken after its bundle has taken effect (R199, R335); site: the address, step and W0[26:24] of the bundle at fault when
it is not the one being issued (R246); inSlot: TRAPARG also marks the slot at fault (R173). -/
structure Trap where
  cause : Nat
  arg : Nat
  reason : Nat := 0
  faddr : Nat := 0
  rstate : Nat := 0
  cctr : Nat := 0
  rollback : Bool := false
  after : Bool := false
  site : Option (Nat × Nat × Nat) := none
  inSlot : Bool := false
  deriving DecidableEq, Repr

/-- An operand element of a beat: none is a structural zero (R94, R96). -/
abbrev Elt := Option Val

/-- What a result does when it lands (R165): register numbers are physical (R176). tpart: bytes of a T register from an offset; gtrap: the trap
of a gather that met poison, in place of its latch (R246, R254). -/
inductive Res where
  | x (n : Nat) (v : Word)
  | p (n : Nat) (b : Bool)
  | v (n : Nat) (tag : BitVec 4) (mask : Word) (lanes : Vector Lane 64)
  | vtag (n : Nat) (tag : BitVec 4)
  | k (n : Nat) (v : Word)
  | t (n : Nat) (r : TReg)
  | ttag (n : Nat) (tag : BitVec 4)
  | tpart (n : Nat) (off : Nat) (bytes : List Byte)
  | g (n : Nat) (v : Word)
  | z (n : Nat) (v : Word)
  | slatch (l : StatLatch)
  | glatch (l : GatherLatch)
  | spill (slot : Nat) (v : Word) (tag : BitVec 4)
  | fcfg (w : Nat) (mask v : Word)
  | xrot (v : Nat)
  | prot (v : Nat)
  | lc (v : Nat)
  | ec (v : Nat)
  | lcMove (v : Nat)
  | ecMove (v : Nat)
  | sqlen (n : Nat) (v : Word)
  | flagsMove (v : Flags)
  | flags (f : Flags)
  | chk (b : Bool)
  | pri (v : Nat)
  | noise (mode : Nat) (hdr slot : Nat)
  | beat (a : Nat) (ints : Bool) (row : Nat) (rows : List (List Elt)) (cols : List (List Elt)) (f : Flags)
  | mzero (a : Nat) (tag : BitVec 4)
  | minit (a : Nat) (b : Bank)
  | mshift (a : Nat) (k : Int)
  | mem (addr : Nat) (bytes : List Byte)
  | trap (t : Trap)
  | gtrap (t : Trap)
  deriving DecidableEq, Repr

/-- A result in flight (R165): the step it lands at and the order of the bundle that issued it. -/
structure Pending where
  due : Nat
  order : Nat
  res : Res
  deriving DecidableEq, Repr

/-- A gated store (R59, R244): the handle it names, the tensor tile and element byte it resolves to, the bytes with their
offsets, and the entries it takes. -/
structure Gated where
  handle : Nat
  tile : Nat
  cells : List (Nat × Byte)
  slots : List (Nat × Nat)
  entries : Nat
  order : Nat
  deriving DecidableEq, Repr

/-- The noise mode (R80): 0 LIVE, 1 LOG, 2 REPLAY, the sequence's header, the replay slot and word, and CONSUMED (R84). -/
structure Noise where
  mode : Nat
  hdr : Nat
  slot : Nat
  word : Nat
  consumed : Nat
  deriving DecidableEq, Repr

/-- A drain with beats still to make (R218): the snapshot it took at its issue, the physical frames of its key page and of its
destination tile or mass page, the destination's first row and column, the noise words drawn, whether its beats draw theirs themselves,
how many of those the log has taken and the noise mode that it keeps when a NOISECTL has changed the seat's (notes/assumptions/10.md), and what runs from beat to beat: written elements, the RNEF error (R75, R236) and the offset of the next BMZ group (R77). -/
structure Drain where
  acc : Nat
  row : Nat
  count : Nat
  issue : Nat
  order : Nat
  beat : Nat
  fcfg : Vector Word 5
  vs : VReg
  vb : VReg
  vq : VReg
  vgroup : VReg
  maskFrame : Nat
  destFrame : Nat
  destRow : Nat
  destCol : Nat
  words : List (BitVec 16)
  live : Bool
  logged : Nat
  own : Option Noise
  now : Nat
  decay : Nat
  written : Nat
  err : Val
  offset : Nat
  deriving DecidableEq, Repr

/-- A mass add on its way to its slot's home (R135): the word's address, the value, now, the factor, the beat's landing step. -/
structure MassAdd where
  addr : Nat
  value : Nat
  now : Nat
  decay : Nat
  due : Nat
  order : Nat
  deriving DecidableEq, Repr

/-- One active level of a Spool nest (R130): trip count, iteration, section (0 entry, 1 body, 2 inner level, 3 exit), template
position in it, and whether the iteration issued a bundle. -/
structure SpoolLevel where
  level : Nat
  trips : Nat
  iter : Nat
  section_ : Nat
  pos : Nat
  issued : Bool
  deriving DecidableEq, Repr

/-- A running nest (R129): its descriptor, the SPOOL bundle's address, the active levels, innermost first, whether the next step is an
empty one, the level that starts at the next step, the X registers with their rotation as the last bundle's issue found them, which
the increments read, and the X registers that results landed in since, over increments still to come (R130). -/
structure Spool where
  nest : Nat
  site : Nat
  levels : List SpoolLevel
  empty : Bool
  start : Option Nat
  oldX : Vector Word 64
  oldRot : Nat
  landed : List Nat
  deriving DecidableEq, Repr

/-- The hardware loop (R195, R196): body start, length in bundles, and the MOVSW values held for the iteration's end. -/
structure Loop where
  start : Nat
  length : Nat
  lcHeld : Option Nat
  ecHeld : Option Nat
  deriving DecidableEq, Repr

/-- The shadowed registers of a strand (R295), with the address at which it goes on. -/
structure Regs where
  pc : Nat
  x : Vector Word 64
  p : BitVec 16
  v : Vector VReg 32
  k : Vector Word 8
  spill : Vector Word 512
  spillTag : Vector (BitVec 4) 512
  spool : Option Spool
  rep : Option Nat
  repN : Nat
  repRows : Nat
  fcfg : Vector Word 5
  lc : Nat
  ec : Nat
  xrot : Nat
  prot : Nat
  sqlen : Vector Word 4
  flags : Flags
  branch : Option Nat
  loop : Option Loop
  deriving DecidableEq, Repr

/-- What the control slot of the bundle being issued asks for at the bundle's end (R192 to R201). -/
inductive Ctl where
  | none
  | branch (target : Nat)
  | skipLoop (length : Nat)
  | loop (length : Nat)
  | park (addr : Nat) (target : Option Nat)
  | exit
  | spool (nest level : Nat)
  | spbrk (level : Nat)
  | eret
  deriving DecidableEq, Repr

/-- What a sync slot, PARK or EXIT makes a seat wait for (R290, R289). -/
inductive Wait where
  | none
  | counter (addr target : Nat) (acquire : Bool)
  | team (addr target : Nat)
  | join (id team closing index : Nat) (refused : Bool)
  | fence (f : Nat)
  | park (addr : Nat) (target : Option Nat)
  | exit
  deriving DecidableEq, Repr

/-- Handler mode (R339): the container's address, the original cause, and the trapped strand's record. -/
structure Handler where
  frame : Nat
  cause : Nat
  deriving DecidableEq, Repr

/-- A strand on a seat (R23, R175). markConsumed: the noise words consumed up to the last mark (R81, R84). swap: the accumulator whose MSWAP
waits for its landings (R217). A seat goes on when nothing holds it of wait, idle, the cycles of an IDLE (R211), and held, its command that has no
unit or entry yet (R248, R290): one bundle may give several. named: the tile that its launch's map names, tried first when it resumes (R328). -/
structure Strand where
  regs : Regs
  shadow : Regs
  markOrder : Nat
  markConsumed : Nat
  t : Vector TReg 8
  aw : Vector Bank 4
  av : Vector Bank 4
  g : Vector Word 8
  z : Vector Word 32
  fence : Vector (Option Fence) 8
  slatch : StatLatch
  glatch : Option GatherLatch
  pend : List Pending
  drains : List Drain
  adds : List MassAdd
  gate : List Gated
  order : Nat
  clk : Nat
  issued : Nat
  stall : Nat
  wait : Wait
  idle : Option Nat
  held : Option Nat
  swap : Option Nat
  ctl : Ctl
  marked : Bool
  drawn : List (BitVec 16)
  recAddr : Nat
  team : Nat
  asid : Nat
  pri : Nat
  service : Bool
  draw : Nat
  gang : Bool
  chk : Bool
  noise : Noise
  launch : Nat
  named : Option Nat
  handler : Option Handler
  trapRec : Vector Word 8
  deriving DecidableEq, Repr

/-- A loaded image (R305, R306): the range and bytes of its code, its template store, tensor table, and local data by slice offset
with its zero bytes listed, all as the loader placed them (notes/assumptions/3.md). -/
structure Image where
  base : Nat
  size : Nat
  code : Memory
  template : Memory
  table : Assoc (Vector Word 8)
  data : Memory
  deriving DecidableEq, Repr

/-- Who accepted a launch (R34, R321): a strand's LAUNCH with its scope, or a host queue's event sequence. -/
inductive Issuer where
  | strand (q : SeatId) (sid : Nat) (tile : Nat)
  | queue (evt : Nat)
  deriving DecidableEq, Repr

/-- Where a launch is (R39, R40): waiting for its trigger, in the pending-launch store, or placed in full. -/
inductive LaunchPhase where
  | armed
  | pending
  | open_
  deriving DecidableEq, Repr

/-- A launch accepted and not complete (R34 to R40). since: when it came to its pending-launch store. -/
structure Launch where
  id : Nat
  field : Nat
  words : Vector Word 8
  asid : Nat
  pri : Nat
  issuer : Issuer
  phase : LaunchPhase
  since : Nat
  created : Nat
  exited : Nat
  lost : Bool
  args : Option (List Byte)
  tiles : List Nat
  agePeriod : Nat
  ceiling : Nat
  short : Bool
  deriving DecidableEq, Repr

/-- An engine command in flight (R247 to R261) with all it captured at issue. phase: 0 armed in the trigger table, 1 waiting for a
unit, 2 under way, 3 under way but bound to fail, its tile being in another state, 4 an FRED whose round has closed. owner: the record of
the strand that issued it. moved: the elements that a COPY, COPYM or CEXP has moved so far. leased, awaits: the pages that a pass
has found leased by reads and adds in flight, and the commands among them that it waits for; frames, adds: the pieces of memory of the leased pages'
frames and the mass adds that it found (R138). length: LEN as the pass acquired it at its start (R137). -/
structure Cmd where
  id : Nat
  op : Nat
  phase : Nat
  seat : SeatId
  asid : Nat
  launch : Nat
  sid : Nat
  owner : Nat
  z : Vector Word 32
  counter : Nat
  acq : Bool
  rel : Bool
  scope : Nat
  arm : Option (Nat × Nat)
  handle : Nat
  now : Nat
  moved : List Nat
  leased : List Nat
  awaits : List Nat
  frames : List (Nat × Nat)
  adds : List MassAdd
  length : Option Nat
  deriving DecidableEq, Repr

/-- A counter, atomic, team or stamp operation on its way to its home (R262): op of class SY, global address and physical key,
operands, now, issuer, and whether it releases (R146). -/
structure HomeOp where
  id : Nat
  seat : SeatId
  asid : Nat
  launch : Nat
  sid : Nat
  op : Nat
  rel : Bool
  addr : Nat
  key : Nat
  a : Nat
  b : Nat
  now : Nat
  deriving DecidableEq, Repr

/-- A strand in a ready queue (R41, R328): its record, launch, the time it became ready, the levels it has gained by aging (R329), the tile it
is bound to, the tile that its launch's map names and, for a gang team, the team. Its level and draw class are its record's (R24). -/
structure Ready where
  record : Nat
  asid : Nat
  launch : Nat
  since : Nat
  aged : Nat
  bound : Option Nat
  named : Option Nat
  gang : Option Nat
  deriving DecidableEq, Repr

/-- Who waits on a counter (R28, R325): a parked strand with the field whose ready queue it will enter, or a host port's vector. -/
inductive Waiter where
  | strand (item : Ready) (field : Nat)
  | host (port vec : Nat)
  deriving DecidableEq, Repr

/-- A watch (R28, R325): its counter's physical word, target and waiter; armed: it has its table entry. -/
structure Watch where
  id : Nat
  addr : Nat
  target : Nat
  waiter : Waiter
  armed : Bool
  deriving DecidableEq, Repr

/-- A submission queue (R321, R322). -/
structure Queue where
  asid : Nat
  number : Nat
  hdr : Nat
  evt : Nat
  cons : Nat
  agePeriod : Nat
  ceiling : Nat
  deriving DecidableEq, Repr

/-- An open reservation of a commit window (R108, R109): home tile, header, start, count, committed. -/
structure Reservation where
  tile : Nat
  hdr : Nat
  start : Nat
  count : Nat
  committed : Bool
  deriving DecidableEq, Repr

/-- An entry of a tile's sequence translation memory (R125). -/
structure StmEntry where
  tile : Nat
  asid : Nat
  hdr : Nat
  page : Nat
  frame : Nat
  bitmap : Option (Vector Word 4)
  lock : Bool
  used : Nat
  deriving DecidableEq, Repr

/-- Bring-up phases of a field (R349 to R353). -/
inductive FieldPhase where
  | off
  | powering
  | locking
  | testing
  | training
  | up
  | deferred
  | fenced
  deriving DecidableEq, Repr

/-- One field (R11, R326, R359, R360). -/
structure Field where
  phase : FieldPhase
  spares : Nat
  trained : List Nat
  retried : Bool
  ready : List Ready
  queues : List Queue
  turn : Nat
  noiseFails : Nat
  noiseOff : Bool
  icap : Nat
  iest : Nat
  freq : Nat
  stretch : Bool
  err : Bool
  relock : Bool
  placed : Nat
  energy : Nat
  corr : Nat
  uncorr : Nat
  consumed : Nat
  deriving DecidableEq, Repr

/-- One entry of a field's translation cache (R337, R338): identifier, page number of 64 KiB, physical frame and W. -/
structure Xlat where
  field : Nat
  asid : Nat
  page : Nat
  frame : Nat
  writable : Bool
  deriving DecidableEq, Repr

/-- The seal registers of a port (R358). -/
structure Seal where
  ctx : Vector Word 8
  saddr : Nat
  slen : Nat
  sstat : Nat
  tag : Vector Word 4
  stateAddr : Nat
  deriving DecidableEq, Repr

/-- The per-port registers (R318 to R325). hdm: system software has enabled the HDM-H mapping on the port (R317). -/
structure Port where
  w2base : Nat
  qreg : Vector Word 4
  qstat : Word
  qappr : Word
  wstage : Vector Word 3
  wign : Bool
  wlost : Bool
  up : Bool
  hdm : Bool
  sealReg : Seal
  deriving DecidableEq, Repr

/-- The security unit and the firmware window (R354 to R358). busy: the commands waiting (port, command), oldest first. running: the image that
runs, the flash's at the last start (R355); empty while it is the one the part came with, whose bytes are not given. started: the floor F at
the last start (R356). -/
structure Security where
  index : Nat
  loaded : Nat
  floor : Nat
  started : Nat
  busy : List (Nat × Nat)
  svnFloor : Nat
  fwAddr : Nat
  fwLen : Nat
  fwStat : Nat
  fwReason : Nat
  fwCmd : Nat
  image : Option (List Byte)
  flash : List Byte
  running : List Byte
  deriving DecidableEq, Repr

/-- A link of the Bridle (R333): lanes stopped by XOFF, replays that failed in a row. -/
structure Link where
  xoff : BitVec 4
  replays : Nat
  training : Bool
  deriving DecidableEq, Repr

/-- A contribution to a reduction round (R259): source port, the command it answers (none for another device's), data. -/
structure Contribution where
  port : Nat
  cmd : Option Nat
  rctr : Nat
  data : List Byte
  deriving DecidableEq, Repr

/-- A reduction window as the switch plane holds it (R259, R334): the configuration sent, live once acknowledged, the open round and
those that wait. -/
structure Round where
  conf : Vector Word 4
  live : Bool
  contribs : List Contribution
  waiting : List Contribution
  deriving DecidableEq, Repr

/-- The fabric window (R334) and the links (R333). -/
structure Fabric where
  self : Nat
  up : BitVec 36
  failed : BitVec 36
  win : Vector Word 64
  red : Vector (Vector Word 4) 32
  rounds : Vector Round 32
  links : Vector Link 36
  deriving DecidableEq, Repr

/-- What the host does of itself (R317, R323; notes/assumptions/69.md): it writes bytes at an address of its memory, reserves n slots of a sequence
whose header lies in its memory, commits the reservation at a start there, or enables or disables the HDM-H mapping of a port. -/
inductive HostOp where
  | write (addr : Nat) (bs : List (BitVec 8))
  | reserve (asid hdr n : Nat)
  | commit (asid hdr start : Nat)
  | hdm (port : Nat) (on : Bool)
  deriving DecidableEq, Repr

/-- A double-bit error (R343, R359; notes/assumptions/53.md): of the 64-bit word at a physical key, or of the word at a code address in a
tile's code store. -/
inductive SoftError where
  | memory (addr : Nat)
  | code (tile addr : Nat)
  deriving DecidableEq, Repr

/-- What moves next, chosen from outside (notes/assumptions/4.md): a step of another agent, a seat's turn, element k of a COPY, COPYM or
CEXP (notes/assumptions/13.md), the host, or a double-bit error. -/
inductive Input where
  | event (i : Instr)
  | seat (q : SeatId)
  | engine (id k : Nat)
  | host (op : HostOp)
  | error (e : SoftError)
  deriving DecidableEq, Repr

/-- A gang-shared container (R57, R346): its frame, identifier, team, the records of the members on its tile, and the bytes of the
GSHARED entries by slice offset. -/
structure GangData where
  frame : Nat
  asid : Nat
  team : Nat
  members : List Nat
  data : Memory
  deriving DecidableEq, Repr

/-- The whole part. The fields from cur on are the model's own (notes/assumptions/4.md and 7.md). poison: the poisoned words of memory, by word
number; codePoison: those of the code stores, by tile and code address (R343). saved: the strands that container frames hold, by identifier and
frame (R366). wanted: the seats whose pre-emption is asked for and waits (R341). -/
structure State where
  mem : Memory
  poison : List Nat
  codePoison : List (Nat × Nat)
  seats : Assoc Strand
  streams : Assoc (List (BitVec 16))
  stm : List StmEntry
  windows : List Reservation
  fields : Vector Field 6
  keel : Bool
  bringup : List Nat
  images : Assoc Image
  launches : List Launch
  cmds : List Cmd
  flight : List HomeOp
  watches : List Watch
  saved : Assoc Strand
  wanted : List Nat
  gangs : List GangData
  quiesced : List Nat
  quiescing : Option Nat
  savedCount : Nat
  migr : Word
  migrDone : Bool
  xlat : List Xlat
  swept : Assoc Nat
  semOwner : Nat
  semErr : BitVec 2
  drawA : Word
  gquant : Nat
  ports : Vector Port 2
  security : Security
  fabric : Fabric
  irqs : List (Nat × Nat)
  aer : List Nat
  cur : SeatId
  inputs : List Input
  raised : Option Trap
  inBundle : Bool
  result : Option (List Byte)
  fresh : Nat
  tick : Nat
  nextId : Nat
  deriving DecidableEq, Repr

/-- A V register of zeros tagged RAW (R26). -/
def zeroV : VReg := ⟨0, Vector.replicate 64 0⟩
/-- A T register of zeros tagged RAW (R26). -/
def zeroT : TReg := ⟨0, Vector.replicate 8192 0⟩
/-- A bank of zeros tagged RAW (R26). -/
def zeroBank : Bank := ⟨0, Vector.replicate 4096 0⟩

/-- The shadowed registers at a strand's start (R26). -/
def zeroRegs : Regs :=
  { pc := 0, x := Vector.replicate 64 0, p := 1, v := Vector.replicate 32 zeroV, k := (Vector.replicate 8 0).set 0 (-1),
    spill := Vector.replicate 512 0, spillTag := Vector.replicate 512 0, spool := none, rep := none, repN := 0, repRows := 1,
    fcfg := Vector.replicate 5 0, lc := 0, ec := 0, xrot := 0, prot := 0, sqlen := Vector.replicate 4 0, flags := 0,
    branch := none, loop := none }

/-- A strand at its start, before its record's values are put in (R26). Its start counts as a mark (R244): its bundles' orders begin after
that of the mark. -/
def zeroStrand : Strand :=
  { regs := zeroRegs, shadow := zeroRegs, markOrder := 0, markConsumed := 0, t := Vector.replicate 8 zeroT, aw := Vector.replicate 4 zeroBank,
    av := Vector.replicate 4 zeroBank, g := Vector.replicate 8 0, z := Vector.replicate 32 0, fence := Vector.replicate 8 none,
    slatch := .empty, glatch := none, pend := [], drains := [], adds := [], gate := [], order := 1, clk := 0, issued := 0, stall := 0,
    wait := .none, idle := none, held := none, swap := none, ctl := .none, marked := false, drawn := [], recAddr := 0, team := 0xFFFFFFFF, asid := 0, pri := 0,
    service := false, draw := 0, gang := false, chk := false, noise := ⟨0, 0, 0, 0, 0⟩, launch := 0, named := none, handler := none,
    trapRec := Vector.replicate 8 0 }

/-- A field before its bring-up (R326, R349, R359, R360). -/
def fieldOff : Field :=
  { phase := .off, spares := 0, trained := [], retried := false, ready := [], queues := [], turn := 0, noiseFails := 0,
    noiseOff := false, icap := 1250, iest := 0, freq := 3300, stretch := false, err := false, relock := false, placed := 0,
    energy := 0, corr := 0, uncorr := 0, consumed := 0 }

/-- A port's registers after reset (R319 to R325, R358). -/
def portReset : Port :=
  { w2base := 0, qreg := Vector.replicate 4 0, qstat := 0, qappr := 0, wstage := Vector.replicate 3 0, wign := false,
    wlost := false, up := true, hdm := false,
    sealReg := { ctx := Vector.replicate 8 0, saddr := 0, slen := 0, sstat := 0, tag := Vector.replicate 4 0, stateAddr := 0 } }

/-- The security unit after reset (R355, R356, R358). -/
def securityReset : Security :=
  { index := 0, loaded := 0, floor := 0, started := 0, busy := [], svnFloor := 0, fwAddr := 0, fwLen := 0, fwStat := 0, fwReason := 0,
    fwCmd := 0, image := none, flash := [], running := [] }

/-- The fabric window after reset (R334). -/
def fabricReset : Fabric :=
  { self := 0, up := 0, failed := 0, win := Vector.replicate 64 0, red := Vector.replicate 32 (Vector.replicate 4 0),
    rounds := Vector.replicate 32 ⟨Vector.replicate 4 0, false, [], []⟩, links := Vector.replicate 36 ⟨0, 0, false⟩ }

/-- The part right after power-on: nothing brought up (R349), no strand, nothing listed in memory, every register at the reset
value its map gives; what the spec gives no reset value is zero or empty (notes/assumptions/2.md). -/
def State.reset : State :=
  { mem := [], poison := [], codePoison := [], seats := [], streams := [], stm := [], windows := [], fields := Vector.replicate 6 fieldOff,
    keel := false, bringup := [], images := [], launches := [], cmds := [], flight := [], watches := [],
    saved := [], wanted := [], gangs := [], quiesced := [], quiescing := none, savedCount := 0, migr := 0, migrDone := false, xlat := [], swept := [], semOwner := 0,
    semErr := 0, drawA := 0x0008000000000000, gquant := 2000, ports := Vector.replicate 2 portReset, security := securityReset,
    fabric := fabricReset, irqs := [], aer := [], cur := ⟨0, 0⟩, inputs := [], raised := none, inBundle := false, result := none, fresh := 0,
    tick := 0, nextId := 1 }

end Sys2Proof.Machine
end

