-- ==== Sys2Proof/Machine/Flags.lean ====
section
/-!
DEFINITION. FLAGS (R85): flags are ORed in at their landing step; a MOVSW that lands at the same step is written first.
-/

namespace Sys2Proof.Machine

/-- FLAGS with the flags of a landing result (R85). -/
def setFlags (old new : Flags) : Flags := old ||| new

/-- FLAGS as a special register: bits [63:6] are zero (R85). -/
def flagsWord (f : Flags) : Word := f.setWidth 64

/-- The value that a MOVSW to FLAGS writes: writes to reserved bits are ignored (R85). -/
def flagsOfWord (v : Word) : Flags := v.setWidth 6

/-- Flags of a list of results joined. -/
def joinFlags (l : List Flags) : Flags := l.foldl (· ||| ·) 0

end Sys2Proof.Machine
end

