-- ==== Sys2Proof/Machine/Formats.lean ====
section
/-!
DEFINITION. Elements by format tag (R63), the SQ blocks (R67 to R71), transposition (R73), conversions (R72) with their rounding
groups (R75), tiles (R367) and the BMZ layout (R77).
-/

namespace Sys2Proof.Machine

/-- Whether a tag is an SQ format (R63). -/
def isSq (t : Nat) : Bool := t == 8 || t == 9 || t == 10
/-- Whether a tag is an integer format of the vector lanes (R204). -/
def isIntTag (t : Nat) : Bool := 1 ≤ t && t ≤ 4
/-- Magnitude bits M of an SQ format (R67). -/
def sqBits (t : Nat) : Nat := if t = 8 then 2 else if t = 9 then 4 else 7
/-- Bytes of an SQ block (R69). -/
def sqBytes (t : Nat) : Nat := if t = 8 then 8 else if t = 9 then 12 else 18
/-- Bytes of an element (R63). -/
def elemBytes (t : Nat) : Nat := match t with | 0 => 8 | 1 => 1 | 2 => 2 | 5 => 2 | 6 => 2 | _ => 4
/-- Bits of a lane element (R204). -/
def laneBits (t : Nat) : Nat := match t with | 1 => 8 | 2 => 16 | 5 => 16 | 6 => 16 | _ => 32
/-- Bytes of a 64×64 tile (R54). -/
def tileBytes (t : Nat) : Nat := if isSq t then 256 * sqBytes t else 4096 * elemBytes t

/-- The value that the bits of an element hold, for the non-SQ tags (R64, R65). -/
def valueOf (t x : Nat) : Val :=
  match t with
  | 1 => ofInteger (signedOf 8 x)
  | 2 => ofInteger (signedOf 16 x)
  | 3 => ofInteger (signedOf 32 x)
  | 4 => ofInteger ((x % 2 ^ 32 : Nat) : Int)
  | 5 => decodeFloat fp16 (x % 2 ^ 16)
  | 6 => decodeFloat bf16 (x % 2 ^ 16)
  | _ => decodeFloat fp32 (x % 2 ^ 32)

/-- One value converted to a non-SQ format (R64, R72): the bits and the flags; ints tells an integer source. -/
def convertOne (fmt mode noise : Nat) (ints : Bool) (v : Val) : Nat × Flags :=
  match fmt with
  | 1 => toInteger 8 true ints mode noise v
  | 2 => toInteger 16 true ints mode noise v
  | 3 => toInteger 32 true ints mode noise v
  | 4 => toInteger 32 false ints mode noise v
  | 5 => roundFloat fp16 mode noise v
  | 6 => roundFloat bf16 mode noise v
  | _ => roundFloat fp32 mode noise v

/-- Whether a value is finite. -/
def finiteVal : Val → Bool
  | .num _ _ _ => true
  | _ => false

/-- A fed value (R75): x + e, x itself when nothing is carried. -/
def feed (x e : Val) : Val := if isZeroVal e then x else (addVal x e).1

/-- The carried error w - y when both are finite and y did not saturate, else 0 (R75). -/
def carryOf (ok : Bool) (w y : Val) : Val :=
  if ok && finiteVal w && finiteVal y then (addVal w (negVal y)).1 else .num false 0 0

/-- One element of an RNEF group: the bits, the flags and the error carried on (R75). -/
def convertFed (fmt : Nat) (ints : Bool) (e x : Val) : (Nat × Flags) × Val :=
  let w := feed x e
  let (y, f) := convertOne fmt 0 0 ints w
  let sat : Bool := decide (fmt ≤ 4) && (f &&& (flNV ||| flOF)) != 0
  ((y, f), carryOf (!sat) w (valueOf fmt y))

/-- A run of elements converted in order, every element of one RNEF group (R74 to R76). -/
def convertGroup (fmt mode : Nat) (ints : Bool) : Val → List (Val × Nat) → List (Nat × Flags)
  | _, [] => []
  | e, (x, n) :: t =>
    if mode = 5 then
      let (r, e') := convertFed fmt ints e x
      r :: convertGroup fmt mode ints e' t
    else convertOne fmt mode n ints x :: convertGroup fmt mode ints e t

/-- A list of elements in row-major order converted to a non-SQ format, groups of 16 for RNEF (R75). -/
def convertList (fmt mode : Nat) (ints : Bool) (xs : List (Val × Nat)) : List (Nat × Flags) :=
  ((runsOf 16 (xs.length + 1) xs).map (convertGroup fmt mode ints (.num false 0 0))).flatten

/-! ### SQ blocks: a block is the number whose little-endian bytes R69 lists -/

/-- Element k = 4r + c of a block (R67, R69). -/
def sqValue (t blk k : Nat) : Val :=
  let m := sqBits t
  let e := blk / 2 ^ (8 * (sqBytes t - 1)) % 256
  let micro := blk / 2 ^ (8 * (sqBytes t - 2)) % 256
  let r := k / 4
  let c := k % 4
  let p := 4 * (r / 2) + 2 * (c / 2) + (r + c) % 2
  let fld := blk / 2 ^ ((1 + m) * k) % 2 ^ (1 + m)
  let q := fld % 2 ^ m
  if e = 255 then .nan
  else if q = 0 then .num false 0 0
  else .num (fld.testBit m) q ((e : Int) - 127 - (if micro.testBit p then 1 else 0) - (m - 1 : Nat))

/-- |x| < 2^k for a finite x. -/
def belowPow (x : Val) (k : Int) : Bool :=
  match x with
  | .num _ m e => m == 0 || decide (e + Nat.log2 m < k)
  | _ => false

/-- The magnitude |x| as a value. -/
def absVal : Val → Val
  | .num _ m e => .num false m e
  | .inf _ => .inf false
  | v => v

/-- The fields of a block's elements in order (R71): mode, unit exponent by element, and the carried error for RNEF, by which only q is
fed (R75): sign, UF and NX are those of x (notes/assumptions/62.md). RUP and RDN round the magnitude as that of a positive value: the model's choice
(notes/assumptions/87.md). -/
def sqFields (m mode : Nat) : Val → List (Val × Nat × Int) → List (Nat × Flags)
  | _, [] => []
  | err, (x, noise, unit) :: t =>
    let top := 2 ^ m - 1
    match x with
    | .num s k _ =>
      let w := if mode = 5 then feed x err else x
      match w with
      | .num _ n e =>
        let (i, _) := roundInt (if mode = 5 then 0 else mode) noise false n (e - unit)
        let q := i.natAbs
        let sat := decide (top < q)
        let q := if sat then top else q
        let y : Val := .num (s && q != 0) q unit
        let differs := (addVal x (negVal y)).1
        let f : Flags := (if sat then flOF ||| flNX else 0) ||| (if k != 0 && q == 0 then flUF else 0) |||
          (if isZeroVal differs then 0 else flNX)
        ((if s && q != 0 then 2 ^ m else 0) + q, f) :: sqFields m mode (carryOf (!sat) w y) t
      | _ => (0, 0) :: sqFields m mode (.num false 0 0) t
    | .inf s => ((if s then 2 ^ m else 0) + top, flOF ||| flNX) :: sqFields m mode (.num false 0 0) t
    | .nan => (0, 0) :: sqFields m mode (.num false 0 0) t

/-- The places of a list filled in order from another; a place without an item, or left over, gets d. -/
def spread {α β : Type} (d : β) : List (Option α) → List β → List β
  | [], _ => []
  | some _ :: t, b :: l => b :: spread d t l
  | _ :: t, l => d :: spread d t l

/-- A block of 16 exact values, element k with noise word k, converted (R71): the block number and the flags. An element that is none takes no part
in the conversion, its field is +0 (R236, notes/assumptions/32.md). -/
def sqBlockOf (t mode : Nat) (xs : List (Option (Val × Nat))) : Nat × Flags :=
  let m := sqBits t
  let eAt := 2 ^ (8 * (sqBytes t - 1))
  let mAt := 2 ^ (8 * (sqBytes t - 2))
  let vs := xs.map fun x => match x with | some p => p.1 | none => .num false 0 0
  if vs.any (fun v => v == .nan) then (255 * eAt, 0)
  else
    let e : Int :=
      if vs.any (fun v => v == .inf false || v == .inf true) then 254
      else match topExponent vs with
        | none => 0
        | some x => max 0 (min 254 (x + 127))
    let at_ : Nat → Val := fun k => vs.getD k (.num false 0 0)
    let microOf : Nat → Bool := fun k =>
      let r := k / 4
      let c := k % 4
      let o := 4 * (if r % 2 = 0 then r + 1 else r - 1) + (if c % 2 = 0 then c + 1 else c - 1)
      belowPow (at_ k) (e - 128) && belowPow (at_ o) (e - 128)
    let items := (List.range 16).map fun k => (xs.getD k none).map fun p =>
      (p.1, p.2, e - 127 - (if microOf k then 1 else 0) - ((m - 1 : Nat) : Int))
    let fs := sqFields m mode (.num false 0 0) (items.filterMap id)
    let stream := ((spread 0 items (fs.map (·.1))).foldr (fun f acc => f + 2 ^ (1 + m) * acc) 0)
    let micro := ([0, 1, 2, 3, 8, 9, 10, 11].zip [0, 1, 2, 3, 4, 5, 6, 7]).foldl
      (fun acc (kp : Nat × Nat) => acc + (if microOf kp.1 then 2 ^ kp.2 else 0)) 0
    (stream + micro * mAt + e.toNat * eAt, fs.foldl (fun acc f => acc ||| f.2) 0)

/-- A whole block converted (R71). -/
def sqBlock (t mode : Nat) (xs : List (Val × Nat)) : Nat × Flags := sqBlockOf t mode (xs.map some)

/-- The block with its elements, micro bits and E transposed (R73). -/
def sqTranspose (t blk : Nat) : Nat :=
  let m := sqBits t
  let w := 2 ^ (1 + m)
  let fld : Nat → Nat := fun k => blk / w ^ k % w
  let stream := ((List.range 16).map fun k => fld (4 * (k % 4) + k / 4)).foldr (fun f acc => f + w * acc) 0
  let micro := blk / 2 ^ (8 * (sqBytes t - 2)) % 256
  let swapped := ((List.range 8).map fun p =>
    if micro.testBit (4 * (p / 2 % 2) + 2 * (p / 4) + p % 2) then 2 ^ p else 0).sum
  stream + swapped * 2 ^ (8 * (sqBytes t - 2)) + blk / 2 ^ (8 * (sqBytes t - 1)) % 256 * 2 ^ (8 * (sqBytes t - 1))

/-! ### Tiles -/

/-- n bytes of a T register from an offset. -/
def tileNat (t : TReg) (off n : Nat) : Nat := leNat ((List.range n).map fun k => t.bytes[off + k]?.getD 0)

/-- The bits of element (i, j) of a non-SQ tile (R367). -/
def tileBits (t : TReg) (i j : Nat) : Nat :=
  let w := elemBytes t.tag.toNat
  tileNat t (w * (64 * i + j)) w

/-- Block b of an SQ tile (R69, R367). -/
def tileBlock (t : TReg) (b : Nat) : Nat := tileNat t (b * sqBytes t.tag.toNat) (sqBytes t.tag.toNat)

/-- The exact value of element (i, j) (R67, R72). -/
def tileVal (t : TReg) (i j : Nat) : Val :=
  let f := t.tag.toNat
  if isSq f then sqValue f (tileBlock t (16 * (i / 4) + j / 4)) (4 * (i % 4) + j % 4) else valueOf f (tileBits t i j)

/-- A T register from its bytes, zero beyond them (R367: unused bytes are zero). -/
def tileOf (tag : BitVec 4) (bs : List Byte) : TReg :=
  let a := bs.toArray
  ⟨tag, Vector.ofFn fun i : Fin 8192 => a.getD i.val 0⟩

/-- A non-SQ tile from the bits of its elements in row-major order. -/
def tileOfBits (fmt : Nat) (xs : List Nat) : TReg :=
  tileOf (BitVec.ofNat 4 fmt) ((xs.map (leBytes (elemBytes fmt))).flatten)

/-- An SQ tile from its blocks in block order. -/
def tileOfBlocks (fmt : Nat) (xs : List Nat) : TReg :=
  tileOf (BitVec.ofNat 4 fmt) ((xs.map (leBytes (sqBytes fmt))).flatten)

/-- Positions (i, j) in row-major order. -/
def rowMajor (rows : Nat) : List (Nat × Nat) :=
  ((List.range rows).map fun i => (List.range 64).map fun j => (i, j)).flatten

/-- The transpose of a tile, tag kept (R73, R223). -/
def tileTranspose (t : TReg) : TReg :=
  let f := t.tag.toNat
  if isSq f then tileOfBlocks f ((List.range 256).map fun b => sqTranspose f (tileBlock t (16 * (b % 16) + b / 16)))
  else
    let w := if f = 1 then 1 else 2
    ⟨t.tag, Vector.ofFn fun n : Fin 8192 =>
      let e := n.val / w
      if e < 4096 then t.bytes[w * (64 * (e % 64) + e / 64) + n.val % w]?.getD 0 else 0⟩

/-- Rows of 64 exact values converted to any format (R71, R72): the bytes in the layout of R367 for those rows, and the flags.
words holds one noise word for each element in row-major order; rows is a multiple of 4 for an SQ format. -/
def convertRows (fmt mode : Nat) (ints : Bool) (rows : Nat) (v : Nat → Nat → Val) (word : Nat → Nat) : List Byte × Flags :=
  if isSq fmt then
    let bs := (List.range (rows / 4 * 16)).map fun b =>
      sqBlock fmt mode ((List.range 16).map fun k =>
        let i := 4 * (b / 16) + k / 4
        let j := 4 * (b % 16) + k % 4
        (v i j, word (64 * i + j)))
    ((bs.map fun x => leBytes (sqBytes fmt) x.1).flatten, bs.foldl (fun a x => a ||| x.2) 0)
  else
    let xs := convertList fmt mode ints ((rowMajor rows).map fun (i, j) => (v i j, word (64 * i + j)))
    ((xs.map fun x => leBytes (elemBytes fmt) x.1).flatten, xs.foldl (fun a x => a ||| x.2) 0)

/-! ### BMZ frames -/

/-- Whether the bits of an element are non-zero for compression (R77, R227): any bit but the sign of a float, any bit of an
integer, the magnitude of an SQ field. -/
def presentBits (fmt x : Nat) : Bool :=
  match fmt with
  | 1 => x % 2 ^ 8 != 0
  | 2 => x % 2 ^ 16 != 0
  | 3 => x % 2 ^ 32 != 0
  | 4 => x % 2 ^ 32 != 0
  | 5 => x % 2 ^ 15 != 0
  | 6 => x % 2 ^ 15 != 0
  | 7 => x % 2 ^ 31 != 0
  | 8 => x % 2 ^ 2 != 0
  | 9 => x % 2 ^ 4 != 0
  | 10 => x % 2 ^ 7 != 0
  | _ => x != 0

/-- Bits of one packed field of a format (R77). -/
def packBits (fmt : Nat) : Nat := if isSq fmt then 1 + sqBits fmt else 8 * elemBytes fmt

/-- Row i's packed bytes: bitmap, then the present fields as a bit stream padded to a byte (R77). -/
def packRow (fmt : Nat) (xs : List Nat) : List Byte :=
  let ps := xs.filter (presentBits fmt)
  let bm := ((xs.zip (List.range 64)).map fun (x, c) => if presentBits fmt x then 2 ^ c else 0).sum
  let w := packBits fmt
  leBytes 8 bm ++ leBytes (ceilDiv (w * ps.length) 8) (ps.foldr (fun f acc => f % 2 ^ w + 2 ^ w * acc) 0)

/-- Bytes padded with zeros to a multiple of 16 (R77). -/
def pad16 (bs : List Byte) : List Byte := bs ++ List.replicate ((16 - bs.length % 16) % 16) 0

/-- Offsets of the groups from their lengths (R77). -/
def groupOffsets : Nat → List Nat → List Nat
  | _, [] => []
  | o, l :: ls => o :: groupOffsets (o + l) ls

/-- The field bits of element (i, j): the element, or its sign and magnitude for SQ, +0 written without a sign. -/
def fieldBits (t : TReg) (i j : Nat) : Nat :=
  let f := t.tag.toNat
  if isSq f then tileBlock t (16 * (i / 4) + j / 4) / 2 ^ ((1 + sqBits f) * (4 * (i % 4) + j % 4)) % 2 ^ (1 + sqBits f)
  else tileBits t i j

/-- The frame of a tile given by its field bits, micro and E bytes (R77). -/
def packFrame (fmt : Nat) (fld : Nat → Nat → Nat) (heads : Nat → List Byte) : List Byte :=
  let groups := (List.range 16).map fun g =>
    pad16 (heads g ++ ((List.range 4).map fun r => packRow fmt ((List.range 64).map (fld (4 * g + r)))).flatten)
  let offs := groupOffsets 32 (groups.map List.length)
  (offs.map (leBytes 2)).flatten ++ groups.flatten

/-- The micro bytes and then the E bytes of block row g (R77). -/
def sqHeads (t : TReg) (g : Nat) : List Byte :=
  let f := t.tag.toNat
  if isSq f then
    let blk := (List.range 16).map fun b => tileBlock t (16 * g + b)
    (blk.map fun x => BitVec.ofNat 8 (x / 2 ^ (8 * (sqBytes f - 2)))) ++ (blk.map fun x => BitVec.ofNat 8 (x / 2 ^ (8 * (sqBytes f - 1))))
  else []

/-- A packed row's fields at offset o of a frame: the 64 field bits, zero where the bitmap has none, and the offset after the row (R77). -/
def packedRow (fmt : Nat) (at_ : Nat → Byte) (o : Nat) : List Nat × Nat :=
  let bm := leNat ((List.range 8).map fun k => at_ (o + k))
  let w := packBits fmt
  let n := popCount 64 bm
  let stream := leNat ((List.range (ceilDiv (w * n) 8)).map fun k => at_ (o + 8 + k))
  let field : Nat → Nat := fun c => stream / 2 ^ (w * popCount c bm) % 2 ^ w
  ((List.range 64).map fun c => if bm.testBit c then field c else 0, o + 8 + ceilDiv (w * n) 8)

/-- A packed row as a load reads it: a field whose magnitude is zero reads as +0 (R60). -/
def unpackRow (fmt : Nat) (at_ : Nat → Byte) (o : Nat) : List Nat × Nat :=
  let (xs, e) := packedRow fmt at_ o
  (xs.map fun x => if presentBits fmt x then x else 0, e)

/-- Four rows from offset o. -/
def unpackRows (fmt : Nat) (at_ : Nat → Byte) : Nat → Nat → List (List Nat) × Nat
  | 0, o => ([], o)
  | n + 1, o =>
    let (r, o') := unpackRow fmt at_ o
    let (rs, o'') := unpackRows fmt at_ n o'
    (r :: rs, o'')

/-- Whether the group offsets of a frame are those that its bitmaps give (R77). -/
def frameConsistent (fmt : Nat) (at_ : Nat → Byte) : Bool :=
  let head := if isSq fmt then 32 else 0
  let off : Nat → Nat := fun g => leNat [at_ (2 * g), at_ (2 * g + 1)]
  off 0 == 32 && (List.range 15).all fun g =>
    off (g + 1) == off g + ceilDiv ((unpackRows fmt at_ 4 (off g + head)).2 - off g) 16 * 16

/-- The dense tile that a frame expands to (R77), as bytes in the layout of R54; at_ reads a byte of the frame, 0 beyond what may be
read. -/
def unpackFrame (fmt : Nat) (at_ : Nat → Byte) : List Byte :=
  let head := if isSq fmt then 32 else 0
  let off : Nat → Nat := fun g => leNat [at_ (2 * g), at_ (2 * g + 1)]
  let rows := ((List.range 16).map fun g => (unpackRows fmt at_ 4 (off g + head)).1).flatten
  let arr := rows.toArray
  let get : Nat → Nat → Nat := fun i j => ((arr.getD i []).getD j 0)
  if isSq fmt then
    let w := 2 ^ (1 + sqBits fmt)
    ((List.range 256).map fun b =>
      let stream := ((List.range 16).map fun k => get (4 * (b / 16) + k / 4) (4 * (b % 16) + k % 4)).foldr (fun f acc => f + w * acc) 0
      leBytes (sqBytes fmt) (stream + (at_ (off (b / 16) + b % 16)).toNat * 2 ^ (8 * (sqBytes fmt - 2))
        + (at_ (off (b / 16) + 16 + b % 16)).toNat * 2 ^ (8 * (sqBytes fmt - 1)))).flatten
  else (rows.flatten.map (leBytes (elemBytes fmt))).flatten

end Sys2Proof.Machine
end

