-- ==== Sys2Proof/Config.lean ====
section
/-!
DEFINITION. Free values: what the spec leaves open, constants without a body, so that nothing can be proved of their values
(notes/assumptions/7.md). A claim about them holds whatever they are.
-/

namespace Sys2Proof.Config

/-- The n-th noise word that no stream of the state holds yet (R79). Unsafe nowhere: nothing is known of it. -/
opaque noise : Nat → BitVec 16
/-- The n-th byte whose value the spec leaves open: an element of an inconsistent BMZ frame (R77, R253). -/
opaque openByte : Nat → BitVec 8
/-- Byte k of address a of device d as that device answers the n-th fabric read (R258): the other device is outside the model. -/
opaque remoteByte : (n d a : Nat) → BitVec 8
/-- RCTR of the command behind the n-th contribution that another device sends (R259): the command is that device's. -/
opaque contributorCounter : Nat → Nat
/-- The device secret, fused at manufacture (R358). -/
opaque deviceSecret : List (BitVec 8)
/-- The tag of a sealed identity state holding the index (R356): 256 bits under the unit's internal context. -/
opaque stateTag : (index : Nat) → BitVec 256
/-- Byte k of the 2,820-byte signature with an index over a report (R356, R357). -/
opaque signature : (index : Nat) → (report : List (BitVec 8)) → (k : Nat) → BitVec 8
/-- Whether an image's XMSS signature verifies under the vendor key (R354). -/
opaque imageVerifies : List (BitVec 8) → Bool
/-- The security version of an image (R354). -/
opaque imageVersion : List (BitVec 8) → Nat
/-- The firmware image that the part came with in its boot flash (R354, R357). -/
opaque bootImage : List (BitVec 8)
/-- Byte k of the container sections whose layouts are each stepping's own (R367), for the n-th saved container. -/
opaque sectionByte : (n k : Nat) → BitVec 8

/-- Word W3, records completed, of the n-th event record of a failing engine command: no rule says how many of its records (R250) a command that
fails has completed (R344). -/
opaque recordsDone : Nat → BitVec 64
/-- The address at fault of the n-th command that a failure caused by another agent stops (R247, R344). -/
opaque failAddress : Nat → BitVec 64
/-- How many of its elements a command that another agent's failure stops had written (R247), for the n-th such failure. -/
opaque writtenBefore : Nat → Nat

/-- What yarc makes of a module for a stepping with its version (R313): the entry's bundle, the first and the further bundles, each with the
index of the move that it began, and the template store image; none when the live values exceed a file together with the spill memory (R314). -/
opaque yarc : List (BitVec 8) → (stepping version : Nat) →
  Option (Nat × (BitVec 128 × Nat) × List (BitVec 128 × Nat) × Vector (BitVec 8) 8192)

/-- The unit of a module whose class a stepping lacks (R314), if there is one. -/
opaque yarcLacks : List (BitVec 8) → (stepping version : Nat) → Option Nat

/-- Bytes behind tier port p, 0 and 1 of field 3, 2 and 3 of field 5: the expanders' sizes are not given (R47). -/
opaque tierSize : (p : Nat) → Nat

end Sys2Proof.Config
end

