-- ==== Sys2Proof/Machine/Memory.lean ====
section
/-!
DEFINITION. Sparse data by key, memory in canonical form, physical addresses, homes (R46, R47), radix paging (R336 to R338),
poison (R343) and the counters' saturating add (R144).
-/

namespace Sys2Proof.Machine

/-! ### Sparse data -/

/-- The entry of a key, if it has one. -/
def assocFind {α : Type} (k : Nat) : Assoc α → Option α
  | [] => none
  | (j, a) :: t => if j = k then some a else assocFind k t

/-- The data with key k at a, in its place by rising keys. -/
def assocPut {α : Type} (k : Nat) (a : α) : Assoc α → Assoc α
  | [] => [(k, a)]
  | (j, b) :: t => if k < j then (k, a) :: (j, b) :: t else if k = j then (k, a) :: t else (j, b) :: assocPut k a t

/-- The data without key k. -/
def assocDrop {α : Type} (k : Nat) : Assoc α → Assoc α
  | [] => []
  | (j, b) :: t => if j = k then t else (j, b) :: assocDrop k t

/-! ### Memory -/

/-- The byte at an address; an unlisted one reads 0 (notes/assumptions/1.md). -/
def memRead (m : Memory) (a : Nat) : Byte := (assocFind a m).getD 0

/-- Memory after a byte is written: writing 0 removes the cell. -/
def memWrite (m : Memory) (a : Nat) (b : Byte) : Memory := if b = 0 then assocDrop a m else assocPut a b m

/-- Memory after consecutive bytes are written. -/
def memWrites (m : Memory) (a : Nat) : List Byte → Memory
  | [] => m
  | b :: bs => memWrites (memWrite m a b) (a + 1) bs

/-- n bytes from an address. -/
def memReads (m : Memory) (a : Nat) : Nat → List Byte
  | 0 => []
  | n + 1 => memRead m a :: memReads m (a + 1) n

/-- The little-endian number of n bytes (R2). -/
def memNat (m : Memory) (a n : Nat) : Nat := leNat (memReads m a n)

/-- The keys rise strictly from above lo and no cell holds 0. -/
def wfFrom : Option Nat → Memory → Bool
  | _, [] => true
  | lo, (k, b) :: t => (match lo with | none => true | some l => decide (l < k)) && b != 0 && wfFrom (some k) t

/-- The canonical form of memory: addresses strictly rising, no listed zero. -/
def Memory.wf (m : Memory) : Bool := wfFrom none m

/-! ### Places -/

/-- Bytes of the 384 slices (R46). -/
def sliceEnd : Nat := 0xC0000000

/-- The physical key of an offset in a target: 0 main memory, 1 tier, 2 host memory, 3 slices (R337). -/
def physOf (tgt off : Nat) : Nat := if tgt = 3 then off else (tgt + 1) * 2 ^ 60 + off

/-- The target of a physical key (R337). -/
def targetOf (a : Nat) : Nat := if a < 2 ^ 60 then 3 else a / 2 ^ 60 - 1

/-- The slice address of offset o of tile t (R46). -/
def sliceAddr (t o : Nat) : Nat := t * 0x800000 + o

/-- The id of the tile at (x, y) (R6). -/
def tileAt (x y : Nat) : Nat := 64 * (2 * (y / 8) + x / 8) + 8 * (y % 8) + x % 8

/-- Column and row of a tile (R6). -/
def tileX (t : Nat) : Nat := 8 * (t / 64 % 2) + t % 8
/-- Row of a tile (R6). -/
def tileY (t : Nat) : Nat := 8 * (t / 128) + t / 8 % 8

/-- The field of a tile (R6). -/
def fieldOf (t : Nat) : Nat := t / 64

/-- The tier port that serves an offset of the tier: four ranges in the order of the ports, each as large as its expander (R47), of 8 TiB at most
together (R12); none beyond them. -/
def tierPort (off : Nat) : Option Nat :=
  let e0 := Config.tierSize 0
  let e1 := e0 + Config.tierSize 1
  let e2 := e1 + Config.tierSize 2
  if 2 ^ 43 ≤ off then none else if off < e0 then some 0 else if off < e1 then some 1 else if off < e2 then some 2
  else if off < e2 + Config.tierSize 3 then some 3 else none

/-- The field of a tier port: fields 3 and 5 carry two each (R7). -/
def tierField (p : Nat) : Nat := if p < 2 then 3 else 5

/-- The field and the link of it that serve an offset of main memory (R47). -/
def memoryLink (off : Nat) : Nat × Nat := (off / 2 ^ 39, off / 4096 % 8)

/-- The tile that homes a physical word (R28, R102). -/
def homeTile (a : Nat) : Nat :=
  match targetOf a with
  | 3 => a / 0x800000
  | 0 => 64 * (memoryLink (a - 2 ^ 60)).1
  | 1 => 192
  | _ => 0

/-- Whether a field has been fenced (R352). -/
def State.fenced (s : State) (f : Nat) : Bool :=
  match s.fields[f]? with
  | some d => d.phase == .fenced
  | none => true

/-- The lowest-numbered present field (R353). -/
def State.lowestField (s : State) : Nat :=
  ((List.range 6).find? fun f => match s.fields[f]? with | some d => d.phase == .up | none => false).getD 0

/-- The tile whose watch table holds a counter's watch: the counter's home, or tile 0 of the lowest-numbered present field where the home's field
is fenced (R28, R353). -/
def State.watchHome (s : State) (a : Nat) : Nat := if s.fenced (fieldOf (homeTile a)) then 64 * s.lowestField else homeTile a

/-- The field that counts a word's errors (R359): its slice's, or the one whose memory link serves it; words of the tier and of host memory are
counted by none. -/
def errorField (a : Nat) : Option Nat :=
  match targetOf a with
  | 3 => some (fieldOf (homeTile a))
  | 0 => some (fieldOf (homeTile a))
  | _ => none

/-- Whether what a field serves is in reach (R350, R352): its crossings are open once it is released, and a fenced one is gone. Keel has no step of
its own there. -/
def State.fieldOpen (s : State) (f : Nat) : Bool :=
  match s.fields[f]? with
  | some d => if f = 0 then d.phase != .fenced else d.phase == .up
  | none => false

/-- The field whose slice, memory links or tier port serve a physical word (R47); none for host memory and where nothing is. -/
def servingField (a : Nat) : Option Nat :=
  match targetOf a with
  | 3 => if a < sliceEnd then some (a / 0x800000 / 64) else none
  | 0 => some (memoryLink (a - 2 ^ 60)).1
  | 1 => (tierPort (a - 2 * 2 ^ 60)).map tierField
  | _ => none

/-- Whether a physical word can be reached: the field that serves it is open (R350, R352, R353); host memory always. -/
def State.reachable (s : State) (a : Nat) : Bool :=
  match servingField a with
  | some f => s.fieldOpen f
  | none => targetOf a != 3 && targetOf a != 1

/-! ### Physical accesses -/

/-- n bytes at a physical key. -/
def State.readPhys (s : State) (a n : Nat) : List Byte := memReads s.mem a n

/-- The number of n bytes at a physical key. -/
def State.natAt (s : State) (a n : Nat) : Nat := memNat s.mem a n

/-- The 64-bit words wholly covered by n bytes at a. -/
def coveredWords (a n : Nat) : Nat → Bool := fun w => decide (a ≤ 8 * w) && decide (8 * w + 8 ≤ a + n)

/-- Bytes written at a physical key; a write of all eight bytes of a word clears its poison (R343). -/
def State.writePhys (s : State) (a : Nat) (bs : List Byte) : State :=
  { s with mem := memWrites s.mem a bs, poison := s.poison.filter fun w => !coveredWords a bs.length w }

/-- The n-byte number v written at a physical key. -/
def State.putNat (s : State) (a n v : Nat) : State := s.writePhys a (leBytes n v)

/-- The first poisoned word met by n bytes at a, by its word number (R343). -/
def State.poisonIn (s : State) (a n : Nat) : Option Nat :=
  s.poison.find? fun w => decide (a < 8 * w + 8) && decide (8 * w < a + n)

/-- The trap of a slot that reads n bytes at a physical key, of global address va, and meets a poisoned word among them (R246, R343). -/
def State.poisonTrap (s : State) (a n va : Nat) : Option Trap :=
  (s.poisonIn a n).map fun w => { cause := 0x0E, arg := 8 * w % 0x800000 / 64 * 64, faddr := va + (8 * w - a) }

/-- The first such trap of several reads (key, bytes, global address). -/
def State.poisonAmong (s : State) (rs : List (Nat × Nat × Nat)) : Option Trap := rs.findSome? fun (a, n, va) => s.poisonTrap a n va

/-- Poison carried from a source word to a destination word by an engine copy (R343). -/
def State.setPoison (s : State) (w : Nat) : State := if w ∈ s.poison then s else { s with poison := w :: s.poison }

/-- Bytes copied between physical places, poison carried with its words (R343). -/
def State.copyPhys (s : State) (src dst n : Nat) : State :=
  let bad := (s.poison.filter fun w => decide (src ≤ 8 * w) && decide (8 * w < src + n)).map fun w => w - src / 8 + dst / 8
  bad.foldl State.setPoison (s.writePhys dst (s.readPhys src n))

/-- The saturating add of R144 on a counter: the state, the new value and whether it passed 2^64 - 1. -/
def State.counterAdd (s : State) (a v : Nat) : State × Nat × Bool :=
  let c := s.natAt a 8 + v
  if c < 2 ^ 64 then (s.putNat a 8 c, c, false) else (s.putNat a 8 (2 ^ 64 - 1), 2 ^ 64 - 1, true)

/-- Whether two byte ranges meet. -/
def meets (a n b m : Nat) : Bool := decide (a < b + m) && decide (b < a + n)

/-! ### The identifier record and paging -/

/-- Physical key of word k of identifier n's record (R336). -/
def idWord (asid k : Nat) : Nat := physOf 0 (asid * 128 + 8 * k)

/-- Word k of an identifier's record (R336). -/
def State.idRecord (s : State) (asid k : Nat) : Nat := s.natAt (idWord asid k) 8

/-- A record with a nonzero reserved bit is invalid (R336). -/
def State.idValid (s : State) (asid : Nat) : Bool :=
  decide (s.idRecord asid 1 % 2 ^ 15 / 2 = 0) && (List.range 7).all fun k => s.idRecord asid (9 + k) == 0

/-- One table entry's fields: valid with no reserved bit, LEAF, W, target and address (R337). -/
def pageEntry (e : Nat) : Option (Bool × Bool × Nat × Nat) :=
  if e.testBit 0 && e / 2 ^ 52 == 0 && e / 2 ^ 7 % 32 == 0 && e / 8 % 4 == 0 then
    some (e.testBit 1, e.testBit 2, e / 32 % 4, e / 2 ^ 12 % 2 ^ 40 * 2 ^ 12)
  else none

/-- The entry of a table at a physical key, none where its word cannot be reached (R353). -/
def State.tableEntry (s : State) (table index : Nat) : Option (Bool × Bool × Nat × Nat) :=
  if s.reachable (table + 8 * index) then pageEntry (s.natAt (table + 8 * index) 8) else none

/-- The four-level walk of R337: the physical key and W. -/
def State.walk (s : State) (asid va : Nat) : Option (Nat × Bool) :=
  let w1 := s.idRecord asid 1
  if !s.idValid asid || w1 % 2 = 0 then none
  else
    match s.tableEntry (physOf 0 (w1 / 2 ^ 15 * 2 ^ 15)) (va / 2 ^ 45 % 4096) with
    | some (false, _, g0, a0) =>
      match s.tableEntry (physOf g0 a0) (va / 2 ^ 35 % 1024) with
      | some (false, _, g1, a1) =>
        match s.tableEntry (physOf g1 a1) (va / 2 ^ 25 % 1024) with
        | some (true, w, g, a) => if a % 2 ^ 25 = 0 then some (physOf g (a + va % 2 ^ 25), w) else none
        | some (false, _, g2, a2) =>
          match s.tableEntry (physOf g2 a2) (va / 2 ^ 16 % 512) with
          | some (_, w, g, a) => if a % 2 ^ 16 = 0 then some (physOf g (a + va % 2 ^ 16), w) else none
          | none => none
        | none => none
      | _ => none
    | _ => none

/-- The cached translation of a page, if the field's cache holds one (R338). -/
def State.cached (s : State) (field asid va : Nat) : Option (Nat × Bool) :=
  match s.xlat.find? fun e => e.field == field && e.asid == asid && e.page == va / 2 ^ 16 with
  | some e => some (e.frame + va % 2 ^ 16, e.writable)
  | none => none

/-- Translation of a global address for an access by a tile of the field (R46, R337): the physical key, none for an address that
is unmapped, beyond 2^57, read-only for a write, or unreachable (R352), and for any beyond the slices while the record is invalid or RV is 0 (R336). -/
def State.translate (s : State) (field asid va : Nat) (write : Bool) : Option Nat :=
  let r : Option (Nat × Bool) :=
    if va < sliceEnd then some (va, true)
    else if 2 ^ 57 ≤ va ∨ !s.idValid asid ∨ s.idRecord asid 1 % 2 = 0 then none
    else match s.cached field asid va with
      | some p => some p
      | none => s.walk asid va
  match r with
  | some (a, w) => if s.reachable a && (w || !write) then some a else none
  | none => none

/-- The first n entries of field f in a list of cached translations, the newest first; those of other fields stand. -/
def trimXlat (f : Nat) : Nat → List Xlat → List Xlat
  | _, [] => []
  | n, e :: t => if e.field = f then (if n = 0 then trimXlat f 0 t else e :: trimXlat f (n - 1) t) else e :: trimXlat f n t

/-- The field's cache of 16,384 entries filled with a page that a walk found (R11, R337: entries with V = 0 are never cached); from a full one
the entry filled longest ago leaves (notes/assumptions/61.md). -/
def State.fillXlat (s : State) (field asid va : Nat) : State :=
  if va < sliceEnd || 2 ^ 57 ≤ va || (s.cached field asid va).isSome then s
  else match s.walk asid (va / 2 ^ 16 * 2 ^ 16) with
    | some (a, w) => { s with xlat := trimXlat field 16384 (⟨field, asid, va / 2 ^ 16, a, w⟩ :: s.xlat) }
    | none => s

/-- n bytes at a global address, none where a byte cannot be translated. -/
def State.readGlobal (s : State) (field asid : Nat) : Nat → Nat → Option (List Byte)
  | _, 0 => some []
  | va, n + 1 =>
    match s.translate field asid va false, s.readGlobal field asid (va + 1) n with
    | some a, some bs => some (memRead s.mem a :: bs)
    | _, _ => none

/-- The physical pieces (key, bytes) of n bytes at a global address, one for each 64 KiB page, with fuel; none when one does not translate. -/
def State.piecesOf (s : State) (f asid : Nat) (write : Bool) : Nat → Nat → Nat → Option (List (Nat × Nat))
  | 0, _, _ => some []
  | fuel + 1, va, n =>
    if n = 0 then some []
    else
      let k := min n (65536 - va % 65536)
      match s.translate f asid va write, s.piecesOf f asid write fuel (va + k) (n - k) with
      | some a, some t => some ((a, k) :: t)
      | _, _ => none

/-- The physical pieces of n bytes at a global address. -/
def State.pieces (s : State) (f asid va n : Nat) (write : Bool) : Option (List (Nat × Nat)) := s.piecesOf f asid write (n / 65536 + 2) va n

/-- Bytes written to physical pieces one after the other. -/
def State.writePieces (s : State) : List (Nat × Nat) → List Byte → State
  | [], _ => s
  | (a, k) :: t, bs => State.writePieces (s.writePhys a (bs.take k)) t (bs.drop k)

/-- Bytes written at a global address, none where one cannot be translated for a write. -/
def State.writeGlobal (s : State) (field asid va : Nat) (bs : List Byte) : Option State :=
  (s.pieces field asid va bs.length true).map fun ps => s.writePieces ps bs

/-- Single bytes written at physical keys; a word all of whose bytes are written loses its poison (R343). -/
def State.writeCells (s : State) (cells : List (Nat × Byte)) : State :=
  { s with mem := cells.foldl (fun m c => memWrite m c.1 c.2) s.mem,
           poison := s.poison.filter fun w => !((List.range 8).all fun k => cells.any fun c => c.1 == 8 * w + k) }

/-- The 8-byte word at a global address. -/
def State.wordGlobal (s : State) (field asid va : Nat) : Option Nat := (s.translate field asid va false).map fun a => s.natAt a 8

/-! ### Free values -/

/-- The next free noise word, and the state with its counter advanced (notes/assumptions/7.md). -/
def State.freeNoise (s : State) : BitVec 16 × State := (Config.noise s.fresh, { s with fresh := s.fresh + 1 })

/-- n free bytes. -/
def State.freeBytes (s : State) (n : Nat) : List Byte × State :=
  ((List.range n).map fun k => Config.openByte (s.fresh + k), { s with fresh := s.fresh + n })

end Sys2Proof.Machine
end

