-- ==== Sys2Proof/Machine/Sequence.lean ====
section
/-!
DEFINITION. Sequences at their homes: the header R101, pages R103, metadata R104, reserve R108, commit R109, pins R115, the step
R116, stamped adds R120, and event records R344.
-/

namespace Sys2Proof.Machine

/-- The fields of a sequence header (R101). -/
structure SeqHeader where
  addr : Nat
  len : Nat
  rsv : Nat
  ptab : Nat
  remap : Nat
  cap : Nat
  decay : Nat
  psize : Nat
  scope : Nat
  reserved : Nat
  deriving DecidableEq, Repr

/-- The header at a physical key (R101). -/
def State.seqHeader (s : State) (a : Nat) : SeqHeader :=
  { addr := a, len := s.natAt a 8, rsv := s.natAt (a + 8) 8, ptab := s.natAt (a + 24) 8, remap := s.natAt (a + 32) 8,
    cap := s.natAt (a + 52) 4, decay := s.natAt (a + 56) 4, psize := s.natAt (a + 62) 1, scope := s.natAt (a + 63) 1 / 32,
    reserved := s.natAt (a + 63) 1 % 32 }

/-- Whether a header is valid (R101): CAP is a nonzero multiple of 256 (notes/assumptions/19.md). -/
def SeqHeader.valid (h : SeqHeader) : Bool :=
  h.reserved == 0 && h.scope != 7 && h.cap != 0 && h.cap % 256 == 0 && decide (h.decay ≤ 0x3F800000)

/-- The bytes of one payload (R101). -/
def SeqHeader.payload (h : SeqHeader) : Nat := (h.psize + 1) * 16

/-- The page-table entry of a page: the frame's global address when VALID (R103). -/
def State.pageFrame (s : State) (asid : Nat) (h : SeqHeader) (page : Nat) : Option Nat :=
  match s.wordGlobal (fieldOf (homeTile h.addr)) asid (h.ptab + 8 * page) with
  | some e => if e % 2 = 1 then some (e / 4096 * 4096) else none
  | none => none

/-- Where a page lies (R125, R139): the global address of its frame, and the survivor bitmap of a compacted page; none when the page is not
VALID or its remap entry cannot be read. -/
def State.pagePlace (s : State) (asid : Nat) (h : SeqHeader) (p : Nat) : Option (Nat × Option Nat) :=
  match s.pageFrame asid h p with
  | none => none
  | some fr =>
    if h.remap = 0 then some (fr, none)
    else match s.translate (fieldOf (homeTile h.addr)) asid (h.remap + 64 * p) false with
      | none => none
      | some r => if (s.natAt (r + 40) 8).testBit 0 then some (fr, some (s.natAt r 32)) else some (fr, none)

/-- The offset in its frame of the payload, of so many bytes, of slot i of a page, none for a slot that compaction left out (R103, R125). -/
def payloadOffset (bytes : Nat) (bitmap : Option Nat) (i : Nat) : Option Nat :=
  match bitmap with
  | none => some (4160 + i * bytes)
  | some b => if b.testBit i then some (4160 + popCount i b * bytes) else none

/-- Bytes of a frame: its header, its metadata and the payloads it holds (R103, R139). -/
def frameBytes (bytes : Nat) (bitmap : Option Nat) : Nat :=
  4160 + bytes * (match bitmap with | none => 256 | some b => popCount 256 b)

/-- The physical key of an offset in a page's frame, translated in its own 64 KiB page (R103, R337). -/
def State.frameKey (s : State) (asid : Nat) (h : SeqHeader) (fr off : Nat) (write : Bool) : Option Nat :=
  s.translate (fieldOf (homeTile h.addr)) asid (fr + off) write

/-- The page-table entry of a page as an operation reads it: key, bytes, global address. -/
def State.entryReads (s : State) (asid : Nat) (h : SeqHeader) (p : Nat) : List (Nat × Nat × Nat) :=
  match s.translate (fieldOf (homeTile h.addr)) asid (h.ptab + 8 * p) false with
  | some a => [(a, 8, h.ptab + 8 * p)]
  | none => []

/-- The physical key of slot sl's metadata record (R103). -/
def State.metaAddr (s : State) (asid : Nat) (h : SeqHeader) (sl : Nat) : Option Nat :=
  match s.pageFrame asid h (sl / 256) with
  | some f => s.translate (fieldOf (homeTile h.addr)) asid (f + 64 + 16 * (sl % 256)) true
  | none => none

/-- The physical key of the frame's page header (R103). -/
def State.frameAddr (s : State) (asid : Nat) (h : SeqHeader) (page : Nat) : Option Nat :=
  match s.pageFrame asid h page with
  | some f => s.translate (fieldOf (homeTile h.addr)) asid f true
  | none => none

/-- Bytes 8 to 15 of slot sl's metadata record as an operation reads them, with its page's table entry; header: the page header's REFS and PINS
too. -/
def State.slotReads (s : State) (asid : Nat) (h : SeqHeader) (header : Bool) (sl : Nat) : List (Nat × Nat × Nat) :=
  s.entryReads asid h (sl / 256) ++
    match s.pageFrame asid h (sl / 256), s.metaAddr asid h sl, s.frameAddr asid h (sl / 256) with
    | some fr, some a, some f => (a + 8, 8, fr + 72 + 16 * (sl % 256)) :: if header then [(f, 16, fr)] else []
    | _, _, _ => []

/-- The physical keys of the stamped words of a sequence's slots, bytes 8 to 15 of their metadata records (R104, R118): each record in its own
64 KiB page, of the pages that are VALID and can be written. -/
def State.metadataKeys (s : State) (asid : Nat) (h : SeqHeader) : List Nat :=
  (List.range h.cap).filterMap fun sl => (s.metaAddr asid h sl).map (· + 8)

/-- The identifier's step (R116). -/
def State.stepOf (s : State) (asid : Nat) : Nat := s.idRecord asid 0

/-- Metadata records of n slots from sl set to {POSITION 0, GROUP 0, MASS +0, STAMP now, OPEN 1} (R108). A record whose own page does not translate
for a write is left out: the spec names no outcome, and this is the model's choice (notes/assumptions/80.md). -/
def State.openSlots (s : State) (asid : Nat) (h : SeqHeader) (now : Nat) : Nat → Nat → State
  | _, 0 => s
  | sl, n + 1 =>
    let s' := match s.metaAddr asid h sl with
      | some a => (s.putNat a 8 0).putNat (a + 8) 8 (now % 2 ^ 16 * 2 ^ 32 + 2 ^ 51)
      | none => s
    State.openSlots s' asid h now (sl + 1) n

/-- OPEN cleared on n slots from sl (R109). -/
def State.closeSlots (s : State) (asid : Nat) (h : SeqHeader) : Nat → Nat → State
  | _, 0 => s
  | sl, n + 1 =>
    let s' := match s.metaAddr asid h sl with
      | some a =>
        let w := s.natAt (a + 8) 8
        s.putNat (a + 8) 8 (if w.testBit 51 then w - 2 ^ 51 else w)
      | none => s
    State.closeSlots s' asid h (sl + 1) n

/-- SRSV at the header's home (R108): the start, none when refused, and the state. now is the stamp's step. A VALID page whose entry or frame does
not translate for a write counts as one that is not VALID: the model's choice (notes/assumptions/80.md). -/
def State.reserve (s : State) (asid : Nat) (h : SeqHeader) (n now : Nat) : Option Nat × State :=
  let tile := homeTile h.addr
  let pages := (List.range (ceilDiv (h.rsv % 256 + n) 256)).map (fun k => h.rsv / 256 + k)
  if n = 0 ∨ h.cap < h.rsv + n ∨ 4096 < h.rsv + n - h.len ∨ !(pages.all fun p => (s.frameAddr asid h p).isSome)
      ∨ 64 ≤ (s.windows.filter fun r => r.tile == tile).length then (none, s)
  else
    let s := s.putNat (h.addr + 8) 8 (h.rsv + n)
    let s := { s with windows := s.windows ++ [({ tile := tile, hdr := h.addr, start := h.rsv, count := n, committed := false } : Reservation)] }
    (some h.rsv, s.openSlots asid h now h.rsv n)

/-- LEN grown to the end of the oldest committed reservations of a header, oldest first (R109), with fuel; where a counter operation has raised it
beyond that end it stays (R14). -/
def State.growLen (s : State) (hdr : Nat) : Nat → State
  | 0 => s
  | n + 1 =>
    match s.windows.find? fun r => r.hdr == hdr with
    | some r =>
      if r.committed then
        let s := s.putNat hdr 8 (max (s.natAt hdr 8) (r.start + r.count))
        State.growLen { s with windows := s.windows.erase r } hdr n
      else s
    | none => s

/-- SCMT at the header's home (R109): none when no open reservation of the header begins at start. -/
def State.commit (s : State) (asid : Nat) (h : SeqHeader) (start : Nat) : Option State :=
  match s.windows.find? fun r => r.hdr == h.addr && r.start == start && !r.committed with
  | none => none
  | some r =>
    let s := s.closeSlots asid h r.start r.count
    let s := { s with windows := s.windows.map fun q => if q == r then { q with committed := true } else q }
    some (s.growLen h.addr 64)

/-- SPIN and SUNPIN at the header's home (R115): the result bits and the state. A slot at or beyond LEN counts as not committed, one whose reservation
was committed out of order among them: the model's choice (notes/assumptions/91.md). A slot of a VALID page whose frame does not translate for a write
is answered as one of a page that is not VALID: the model's choice (notes/assumptions/80.md). -/
def State.pin (s : State) (asid : Nat) (h : SeqHeader) (sl : Nat) (set : Bool) : Nat × State :=
  let beyond := if h.len ≤ sl then 4 else 0
  if h.cap ≤ sl then (beyond, s)
  else match s.metaAddr asid h sl, s.frameAddr asid h (sl / 256) with
    | some a, some f =>
      let w := s.natAt (a + 8) 8
      let pinned := w.testBit 49
      let retired := w.testBit 48
      let found := (if pinned then 1 else 0) + (if retired then 2 else 0) + beyond
      let pins := s.natAt (f + 8) 8
      if set then
        if retired || decide (h.len ≤ sl) || decide (1 < s.natAt f 8) || pinned then (found, s)
        else (found, (s.putNat (a + 8) 8 (w + 2 ^ 49)).putNat (f + 8) 8 (pins + 1))
      else
        if pinned then (found, (s.putNat (a + 8) 8 (w - 2 ^ 49)).putNat (f + 8) 8 (pins - 1)) else (found, s)
    | _, _ => (beyond, s)

/-- SADD's update of a stamped word (R120): the new word, the flags and whether RETIRED dropped it. -/
def stampedAdd (word g f now : Nat) : Nat × Flags :=
  let v := word % 2 ^ 32
  let st := word / 2 ^ 32 % 2 ^ 16
  let hi := word / 2 ^ 48
  let d := (now + 2 ^ 16 - st) % 2 ^ 16
  if hi % 2 = 1 then (word, flTB)
  else if d < 2 ^ 15 then
    let (r, f1) := readStamped f v st now
    let (y, f2) := add32f r g
    (y + now % 2 ^ 16 * 2 ^ 32 + hi * 2 ^ 48, f1 ||| f2)
  else
    let (r, f1) := mul32 g (pow32 f (2 ^ 16 - d))
    let (y, f2) := add32f v r
    (y + st * 2 ^ 32 + hi * 2 ^ 48, f1 ||| f2)

/-- An event record written to the sequence at a global header address (R344): reserved, filled and committed; false when the
reservation is refused. -/
def State.eventTo (s : State) (asid evt : Nat) (words : List Nat) : Bool × State :=
  match s.translate 0 asid evt true with
  | none => (false, s)
  | some a =>
    let h := s.seqHeader a
    if !h.valid || h.psize != 3 || h.scope != 6 || evt % 64 != 0 then (false, s)
    else match s.reserve asid h 1 (s.stepOf asid) with
      | (none, s) => (false, s)
      | (some sl, s) =>
        let s := match s.pageFrame asid h (sl / 256) with
          | some f =>
            match s.writeGlobal (fieldOf (homeTile h.addr)) asid (f + 4160 + 64 * (sl % 256)) ((words.map (leBytes 8)).flatten) with
            | some s => s
            | none => s
          | none => s
        match s.commit asid h sl with
        | some s => (true, s)
        | none => (true, s)

/-- The event record of R344 in an identifier's event sequence EVT; a refused one adds 1 to LOST. -/
def State.event (s : State) (asid code op tile sid counter fault detail : Nat) : State :=
  let words := [code + op * 2 ^ 8 + asid * 2 ^ 16 + tile * 2 ^ 32, sid, counter, 0, 0, fault, detail, s.stepOf asid]
  match s.eventTo asid (s.idRecord asid 3) words with
  | (true, s) => s
  | (false, s) => (s.counterAdd (idWord asid 7) 1).1


end Sys2Proof.Machine
end

