-- ==== Sys2Proof/Machine/Operands.lean ====
section
/-!
DEFINITION. Operand forms: register reads through the rotation (R175, R176), the immediates of R170 and R187, and the queueing of
results (R165, R182's Land).
-/

namespace Sys2Proof.Machine

/-- The physical X register of an architectural number (R176). -/
def physX (rot n : Nat) : Nat := if n < 32 then n else 32 + (n - 32 + rot) % 32

/-- The physical predicate of an architectural number (R176). -/
def physP (rot n : Nat) : Nat := if n < 8 then n else 8 + (n - 8 + rot) % 8

/-- X register n as the registers hold it; X0 reads 0 (R175). -/
def Regs.xAt (r : Regs) (n : Nat) : Word := if n = 0 then 0 else r.x[physX r.xrot n]?.getD 0

/-- Predicate n; P0 reads true and P1 false (R175). -/
def Regs.pAt (r : Regs) (n : Nat) : Bool := if n = 0 then true else if n = 1 then false else r.p.getLsbD (physP r.prot n)

/-- Register Xn (R175, R176). -/
def Strand.xr (st : Strand) {w : Nat} (n : BitVec w) : Word := st.regs.xAt n.toNat

/-- Predicate Pn (R175, R176). -/
def Strand.pr (st : Strand) {w : Nat} (n : BitVec w) : Bool := st.regs.pAt n.toNat

/-- Register Vn. -/
def Strand.vr (st : Strand) {w : Nat} (n : BitVec w) : VReg := st.regs.v[n.toNat]?.getD zeroV

/-- Register Kn; K0 reads all ones (R175). -/
def Strand.kr (st : Strand) {w : Nat} (n : BitVec w) : Word := if n.toNat = 0 then -1 else st.regs.k[n.toNat]?.getD 0

/-- Register Tn. -/
def Strand.tr (st : Strand) {w : Nat} (n : BitVec w) : TReg := st.t[n.toNat]?.getD zeroT

/-- Register Gn. -/
def Strand.gr (st : Strand) {w : Nat} (n : BitVec w) : Word := st.g[n.toNat]?.getD 0

/-- Staging register Zn. -/
def Strand.zr (st : Strand) (n : Nat) : Word := st.z[n]?.getD 0

/-- The working bank of Aa. -/
def Strand.work (st : Strand) {w : Nat} (a : BitVec w) : Bank := st.aw[a.toNat]?.getD zeroBank

/-- P2 to P15 as the predicate word (R191). -/
def Strand.predWord (st : Strand) : Word :=
  BitVec.ofNat 64 (((List.range 14).map fun k => if st.regs.pAt (k + 2) then 2 ^ (k + 2) else 0).sum)

/-- The signed immediate of an XI slot: imm8, or {byte, imm8} under LEND (R170, R187). -/
def immXi (x : Option (BitVec 8)) (i : BitVec 8) : Word :=
  match x with
  | none => sext i
  | some b => sext (b ++ i)

/-- MOVK's 16-bit value: {byte, imm8} under LEND, else imm8 sign-extended to 16 bits (R188). -/
def immMovk (x : Option (BitVec 8)) (i : BitVec 8) : BitVec 16 :=
  match x with
  | none => i.signExtend 16
  | some b => b ++ i

/-- The signed immediate of a compare: imm9, or {byte, imm9} under LEND (R170, R189). -/
def immPc (x : Option (BitVec 8)) (i : BitVec 9) : Word :=
  match x with
  | none => sext i
  | some b => sext (b ++ i)

/-- The signed bundle offset of BR and CALL: off20, or {byte, off20} under LEND (R170, R192). -/
def immCt (x : Option (BitVec 8)) (o : BitVec 20) : Word :=
  match x with
  | none => sext o
  | some b => sext (b ++ o)

/-- A row offset and a lane mask number of an LS slot under LEND: byte[7:3] signed, byte[2:0] (R170). -/
def lendRow (x : Option (BitVec 8)) : Int × Nat :=
  match x with
  | none => (0, 0)
  | some b => (signedOf 5 (b.toNat / 8), b.toNat % 8)

/-- A result queued to land L steps after the issue step (R165). -/
def Strand.land (st : Strand) (l : Nat) (r : Res) : Strand := { st with pend := st.pend ++ [⟨st.clk + l, st.order, r⟩] }

/-- Land(Xd, v, L): a write to X0 is discarded (R175). -/
def Strand.landX (st : Strand) (l : Nat) {w : Nat} (d : BitVec w) (v : Word) : Strand :=
  if d.toNat = 0 then st else st.land l (.x (physX st.regs.xrot d.toNat) v)

/-- Land(Pd, b, L): writes to P0 and P1 are discarded (R175). -/
def Strand.landP (st : Strand) (l d : Nat) (b : Bool) : Strand :=
  if d < 2 then st else st.land l (.p (physP st.regs.prot d) b)

/-- A pair destination: Pd receives b and Pd+1 its complement; with d = 0 both are discarded (R189). -/
def Strand.landPair (st : Strand) (l d : Nat) (b : Bool) : Strand := (st.landP l d b).landP l (d + 1) (!b)

/-- Land(Kd, v, L): a write to K0 is discarded (R175). -/
def Strand.landK (st : Strand) (l d : Nat) (v : Word) : Strand := if d = 0 then st else st.land l (.k d v)

/-- Land(Vd, lanes, L) under a mask, with the tag (R205). -/
def Strand.landV (st : Strand) (l : Nat) {w : Nat} (d : BitVec w) (tag : BitVec 4) (mask : Word) (lanes : Vector Lane 64) : Strand :=
  st.land l (.v d.toNat tag mask lanes)

/-- Flags that land with a result; no flag queues nothing. -/
def Strand.landFlags (st : Strand) (l : Nat) (f : Flags) : Strand := if f = 0 then st else st.land l (.flags f)

/-- The predicate word's bits queued to P2 to P15 (R191). -/
def Strand.landPreds (st : Strand) (l : Nat) (v : Word) : Strand :=
  (List.range 14).foldl (fun st k => st.landP l (k + 2) (v.getLsbD (k + 2))) st

/-- A lane's element, sign- or zero-extended to an integer by the tag (R204). -/
def laneInt (tag : Nat) (x : Lane) : Int :=
  match tag with
  | 1 => signedOf 8 x.toNat
  | 2 => signedOf 16 x.toNat
  | 3 => signedOf 32 x.toNat
  | _ => (x.toNat : Int)

/-- An element written as its low w bits, extended to 32 bits by the tag (R204). -/
def laneOf (tag : Nat) (x : Nat) : Lane :=
  match tag with
  | 1 => BitVec.ofInt 32 (signedOf 8 x)
  | 2 => BitVec.ofInt 32 (signedOf 16 x)
  | 5 => BitVec.ofNat 32 (x % 2 ^ 16)
  | 6 => BitVec.ofNat 32 (x % 2 ^ 16)
  | _ => BitVec.ofNat 32 x

/-- A V register's lanes from a function of the lane number. -/
def lanesOf (f : Nat → Lane) : Vector Lane 64 := Vector.ofFn fun i : Fin 64 => f i.val

/-- Lane l of a V register. -/
def VReg.lane (v : VReg) (l : Nat) : Lane := v.lanes[l]?.getD 0

/-- The traps of R178 and R212: format with its argument. -/
def formatTrap (arg : Nat) : Trap := { cause := 0x02, arg := arg }
/-- not local (R246). -/
def notLocal (arg : Nat) : Trap := { cause := 0x05, arg := arg }
/-- privilege (R335). -/
def privilegeTrap (arg : Nat) : Trap := { cause := 0x0D, arg := arg }
/-- sequence write (R106, R109). -/
def sequenceTrap (arg : Nat) : Trap := { cause := 0x08, arg := arg }
/-- A condition judged at issue that makes the bundle illegal (R173): the reason code, with the slot at fault marked. -/
def illegalTrap (reason : Nat) : Trap := { cause := 0x01, arg := reason * 256, reason := reason, inSlot := true }

end Sys2Proof.Machine
end

