-- ==== Sys2Proof/Machine/Landing.lean ====
section
/-!
DEFINITION. Landing of results (R165, R176, R205, R89), the rollback to a mark (R295), and the strand on a seat.
-/

namespace Sys2Proof.Machine

/-- The key of a seat in the sparse list of strands. -/
def SeatId.key (q : SeatId) : Nat := 2 * q.tile + q.seat

/-- The strand on a seat (R9, R23). -/
def State.strandAt (s : State) (q : SeatId) : Option Strand := assocFind (SeatId.key q) s.seats

/-- The state with a strand on a seat. -/
def State.putStrand (s : State) (q : SeatId) (st : Strand) : State := { s with seats := assocPut (SeatId.key q) st s.seats }

/-- The state with the seat idle, and no pre-emption of it asked for. -/
def State.freeSeat (s : State) (q : SeatId) : State :=
  { s with seats := assocDrop (SeatId.key q) s.seats, wanted := s.wanted.filter (· != SeatId.key q) }

/-- The strand of the current seat. -/
def State.strand (s : State) : Option Strand := s.strandAt s.cur

/-- The state with the current seat's strand replaced. -/
def State.setStrand (s : State) (st : Strand) : State := s.putStrand s.cur st

/-- A masked write of lanes (R205): unmasked lanes keep the bits held at the landing step, the tag is the result's. -/
def maskLanes (old : VReg) (tag : BitVec 4) (mask : Word) (new : Vector Lane 64) : VReg :=
  ⟨tag, Vector.ofFn fun i : Fin 64 => if mask.getLsbD i.val then new[i.val]?.getD 0 else old.lane i.val⟩

/-- A result of X register n noted where increments of a nest that come to apply later would stand before it (R130). -/
def Spool.note (n : Nat) (sp : Spool) : Spool := if sp.start.isSome then { sp with landed := n :: sp.landed } else sp

/-- A result landed in the shadowed registers (R165, R295); results for other state leave them. -/
def Regs.applyRes (g : Regs) : Res → Regs
  | .x n v => { g with x := g.x.setIfInBounds n v, spool := g.spool.map (Spool.note n) }
  | .p n b => { g with p := if b then g.p ||| (1#16 <<< n) else g.p &&& ~~~(1#16 <<< n) }
  | .v n tag mask lanes => { g with v := g.v.setIfInBounds n (maskLanes (g.v[n]?.getD zeroV) tag mask lanes) }
  | .vtag n tag => { g with v := g.v.setIfInBounds n { (g.v[n]?.getD zeroV) with tag := tag } }
  | .k n v => { g with k := g.k.setIfInBounds n v }
  | .spill i v tag => { g with spill := g.spill.setIfInBounds i v, spillTag := g.spillTag.setIfInBounds i tag }
  | .fcfg w mask v => { g with fcfg := g.fcfg.setIfInBounds w (((g.fcfg[w]?.getD 0) &&& ~~~mask) ||| (v &&& mask)) }
  | .xrot v => { g with xrot := v }
  | .prot v => { g with prot := v }
  | .lc v => { g with lc := v }
  | .ec v => { g with ec := v }
  | .lcMove v =>
    match g.loop with
    | some l => { g with loop := some { l with lcHeld := some v } }
    | none => { g with lc := v }
  | .ecMove v =>
    match g.loop with
    | some l => { g with loop := some { l with ecHeld := some v } }
    | none => { g with ec := v }
  | .sqlen n v => { g with sqlen := g.sqlen.setIfInBounds n v }
  | .flagsMove f => { g with flags := f }
  | .flags f => { g with flags := setFlags g.flags f }
  | _ => g

/-- The exact products of one element of a beat: the terms, and whether one is ∞ × stored zero (R91, R96). -/
def beatTerms : List Elt → List Elt → List Val × Bool
  | some a :: as, some b :: bs =>
    let (ts, z) := beatTerms as bs
    match mulVal a b with
    | (v, f) => if f = 0 then (v :: ts, z) else (ts, true)
  | _ :: as, _ :: bs => beatTerms as bs
  | _, _ => ([], false)

/-- The integer value of an exact value without fraction. -/
def intOfVal : Val → Int
  | .num s m e => scaledInt s m e 0
  | _ => 0

/-- A beat landed in a working bank (R86, R89, R91, R92): row of A is added to row of the bank; the flags. -/
def beatRow (ints : Bool) (b : Bank) (row : Nat) (a : List Elt) (cols : List (List Elt)) : List Lane × Flags :=
  let r := (cols.zip (List.range 64)).map fun (col, j) =>
    let c := (b.elems[64 * row + j]?.getD 0).toNat
    let (ts, z) := beatTerms a col
    if ints then intSum (signedOf 32 c) (ts.map intOfVal) else windowSum z (val32 c :: ts)
  (r.map fun x => BitVec.ofNat 32 x.1, joinFlags (r.map (·.2)))

/-- A bank with row i replaced. -/
def Bank.setRow (b : Bank) (i : Nat) (xs : List Lane) : Bank :=
  let a := xs.toArray
  { b with elems := Vector.ofFn fun n : Fin 4096 => if n.val / 64 = i then a.getD (n.val % 64) 0 else b.elems[n.val]?.getD 0 }

/-- All rows of a beat (R86). -/
def beatRows (ints : Bool) (cols : List (List Elt)) : Bank → Nat → List (List Elt) → Bank × Flags
  | b, _, [] => (b, 0)
  | b, row, a :: as =>
    let (xs, f) := beatRow ints b row a cols
    let (b', g) := beatRows ints cols (b.setRow row xs) (row + 1) as
    (b', f ||| g)

/-- MSHIFT at its landing (R216): row i moves to row i + k, vacated rows are +0. -/
def Bank.shift (b : Bank) (k : Int) : Bank :=
  { b with elems := Vector.ofFn fun n : Fin 4096 =>
      let i : Int := (n.val / 64 : Nat) - k
      if 0 ≤ i ∧ i ≤ 63 then b.elems[64 * i.toNat + n.val % 64]?.getD 0 else 0 }

/-- A drain under way keeps the noise mode of its bundle when a NOISECTL changes the seat's (R80). -/
def Drain.keep (n : Noise) (d : Drain) : Drain := { d with own := d.own <|> some n }

/-- A result landed on a strand (R165): the shadow takes it too when its bundle lies at or before the mark (R295). -/
def Strand.applyRes (st : Strand) (p : Pending) : Strand :=
  let st := { st with regs := st.regs.applyRes p.res,
                      shadow := if p.order ≤ st.markOrder then st.shadow.applyRes p.res else st.shadow }
  match p.res with
  | .t n r => { st with t := st.t.setIfInBounds n r }
  | .ttag n tag => { st with t := st.t.setIfInBounds n { (st.t[n]?.getD zeroT) with tag := tag } }
  | .tpart n off bytes =>
    let a := bytes.toArray
    let old := st.t[n]?.getD zeroT
    { st with t := st.t.setIfInBounds n ⟨old.tag, Vector.ofFn fun i : Fin 8192 =>
        if off ≤ i.val ∧ i.val < off + a.size then a.getD (i.val - off) 0 else old.bytes[i.val]?.getD 0⟩ }
  | .g n v => { st with g := st.g.setIfInBounds n v }
  | .z n v => { st with z := st.z.setIfInBounds n v }
  | .slatch l => { st with slatch := l }
  | .glatch l => { st with glatch := some l }
  | .chk b => { st with chk := b }
  | .pri v => { st with pri := v }
  | .noise m h i => { st with noise := ⟨m, h, i, 0, 0⟩, markConsumed := 0, drains := st.drains.map (Drain.keep st.noise) }
  | .beat a ints row rows cols f =>
    let b := st.aw[a]?.getD zeroBank
    if b.tag = (if ints then 3 else 7) then
      let (b', g) := beatRows ints cols b row rows
      { st with aw := st.aw.setIfInBounds a b', regs := { st.regs with flags := setFlags st.regs.flags (f ||| g) },
                shadow := if p.order ≤ st.markOrder then { st.shadow with flags := setFlags st.shadow.flags (f ||| g) } else st.shadow }
    else st
  | .mzero a tag => { st with aw := st.aw.setIfInBounds a ⟨tag, Vector.replicate 4096 0⟩ }
  | .minit a b => { st with aw := st.aw.setIfInBounds a b }
  | .mshift a k => { st with aw := st.aw.setIfInBounds a ((st.aw[a]?.getD zeroBank).shift k) }
  | _ => st

/-- Whether a result is a MOVSW to FLAGS, which lands before the flags of other slots (R85). -/
def isFlagsMove : Res → Bool
  | .flagsMove _ => true
  | _ => false

/-- An item put among items in issue order, MOVSW to FLAGS first (R85, R165, R89). -/
def insertPending (p : Pending) : List Pending → List Pending
  | [] => [p]
  | q :: t =>
    if (isFlagsMove p.res && !isFlagsMove q.res) || (isFlagsMove p.res == isFlagsMove q.res && decide (p.order < q.order))
    then p :: q :: t else q :: insertPending p t

/-- The results due at or before step c, in the order in which they apply. -/
def dueOrder (c : Nat) (l : List Pending) : List Pending :=
  (l.filter fun p => decide (p.due ≤ c)).foldl (fun acc p => insertPending p acc) []

/-- A due result landed: on the strand, or in memory for a drain write (R219). A drain's write is not checked against the OPEN bits of a sequence whose
frame its tensor overlies: the model's choice (notes/assumptions/90.md). -/
def landOne (q : SeatId) (s : State) (p : Pending) : State :=
  match s.strandAt q with
  | none => s
  | some st =>
    let s := s.putStrand q (st.applyRes p)
    match p.res with
    | .mem a bytes => s.writePhys a bytes
    | _ => s

/-- The first trap among results (R246: poisoned data at the landing step; R254). -/
def trapAmong : List Pending → Option Trap
  | [] => none
  | p :: t => match p.res with
    | .trap tr => some tr
    | .gtrap tr => some tr
    | _ => trapAmong t

/-- RESULT_LANDING: every result of the seat due at its clock lands (R165). A load that met poison raises its trap now. -/
def landDue (q : SeatId) (s : State) : State :=
  match s.strandAt q with
  | none => s
  | some st =>
    let due := dueOrder st.clk st.pend
    let s := due.foldl (landOne q) (s.putStrand q { st with pend := st.pend.filter fun p => !decide (p.due ≤ st.clk) })
    match trapAmong due with
    | none => s
    | some t => { s with raised := s.raised <|> some t }

/-- The address of the bundle a strand is at: SPOOL's in a nest (R133). -/
def Strand.here (st : Strand) : Nat := match st.regs.spool with | some sp => sp.site | none => st.regs.pc

/-- Where a strand is, for a trap record (R340): the bundle's address, its step and the bits INREP, SPL, DLY of W0[26:24]. -/
def Strand.site (st : Strand) : Nat × Nat × Nat :=
  (st.here, st.clk, (if st.regs.rep.isSome then 1 else 0) + (if st.regs.spool.isSome then 2 else 0) + (if st.regs.branch.isSome then 4 else 0))

/-- Rollback to the last mark (R295): the gate buffer is discarded, the shadowed state restored, results and replayable drains
of later bundles are cancelled, and the words that later bundles drew count as not consumed (R81, R84). -/
def Strand.rollback (st : Strand) : Strand :=
  { st with regs := st.shadow, gate := [], pend := st.pend.filter (fun p => decide (p.order ≤ st.markOrder)),
            drains := st.drains.filter (fun d => decide (d.order ≤ st.markOrder)),
            adds := st.adds.filter (fun a => decide (a.order ≤ st.markOrder)), ctl := .none, wait := .none, idle := none, held := none, stall := 0,
            noise := { st.noise with consumed := st.markConsumed } }

/-- The shadows taken at a mark (R197): the state as it stands, and every result of bundles up to this one. -/
def Strand.takeMark (st : Strand) : Strand :=
  { st with shadow := st.regs, markOrder := st.order, markConsumed := st.noise.consumed }

end Sys2Proof.Machine
end

