-- ==== Sys2Proof/Machine/Homes.lean ====
section
/-!
DEFINITION. Operations at their homes: team records (R30 to R33), what a counter, atomic, team or stamp operation does there (R144, R154,
R120, R31), and which operations of a strand on their way are performed before another access of it (R142, R143, R146, R151).
-/

namespace Sys2Proof.Machine

/-- The fields of a team record (R30). -/
structure Team where
  arrivals : Nat
  base : Nat
  members : Nat
  joins : Nat
  leaves : Nat
  gang : Bool
  deriving DecidableEq, Repr

/-- The team record at a physical key (R30). -/
def State.teamAt (s : State) (a : Nat) : Team :=
  { arrivals := s.natAt a 8, base := s.natAt (a + 8) 8, members := s.natAt (a + 16) 4, joins := s.natAt (a + 20) 4,
    leaves := s.natAt (a + 24) 4, gang := (s.natAt (a + 28) 1).testBit 0 }

/-- The fields that team operations write, reserved bits left (R30). -/
def State.putTeam (s : State) (a : Nat) (t : Team) : State :=
  let s := ((((s.putNat a 8 t.arrivals).putNat (a + 8) 8 t.base).putNat (a + 16) 4 t.members).putNat (a + 20) 4 t.joins).putNat (a + 24) 4 t.leaves
  let b := s.natAt (a + 28) 1
  let live := t.members != 0 || t.joins != 0
  s.putNat (a + 28) 1 (b / 4 * 4 + b % 2 + (if live then 2 else 0))

/-- close() of R31; a gang team admits joins up to 128 members (R33): the team and the joins admitted. -/
def Team.close (t : Team) : Team × Nat :=
  let stay := t.members - t.leaves
  let ok := if t.gang then min t.joins (128 - stay) else t.joins
  ({ t with members := stay + ok, base := t.base + t.members, joins := 0, leaves := 0 }, ok)

/-- A joiner's outcome set at the close of the generation it waits for: index at or above those admitted is refused (R33). -/
def settleJoin (team closing ok : Nat) (st : Strand) : Strand :=
  match st.wait with
  | .join d t c i _ => if t = team ∧ c = closing then { st with wait := .join d t c i (decide (ok ≤ i)) } else st
  | _ => st

/-- One arrival (R31): the state, the closing value BASE + MEMBERS as the arrival finds it, whether ARRIVALS overflowed. -/
def State.arrive (s : State) (a : Nat) : State × Nat × Bool :=
  let t := s.teamAt a
  let full := decide (t.arrivals + 1 = 2 ^ 64)
  let arr := if full then t.arrivals else t.arrivals + 1
  if t.members = 0 then (s.putTeam a { t with arrivals := arr, base := arr }, t.base, full)
  else
    let closing := t.base + t.members
    if arr = closing then
      let (t', ok) := ({ t with arrivals := arr } : Team).close
      let s := s.putTeam a t'
      ({ s with seats := s.seats.map (fun (k, st) => (k, settleJoin a closing ok st)),
                saved := s.saved.map (fun (k, st) => (k, settleJoin a closing ok st)) }, closing, full)
    else (s.putTeam a { t with arrivals := arr }, closing, full)

/-- LEAVE at the team's home (R31): one arrival, then LEAVES grows if a generation is open. -/
def State.leaveTeam (s : State) (a : Nat) : State × Bool :=
  let (s, _, full) := s.arrive a
  let t := s.teamAt a
  (if t.members = 0 then s else s.putTeam a { t with leaves := t.leaves + 1 }, full)

/-! ### Performing an operation at its home -/

/-- The new word of a data atomic (R264): m the word, b = Xb, x = Xd at issue. -/
def atomicNew (op m b x : Nat) : Nat :=
  match op with
  | 4 => (m + b) % 2 ^ 64
  | 5 => if signedOf 64 b < signedOf 64 m then b else m
  | 6 => if signedOf 64 m < signedOf 64 b then b else m
  | 7 => b
  | 8 => if m = x then b else m
  | 9 => Nat.land m b
  | _ => Nat.lor m b

/-- An SY operation performed atomically at its home: the state, its result, its flags, whether a counter add overflowed. -/
def runHome (s : State) (o : HomeOp) : State × Nat × Flags × Bool :=
  let m := s.natAt o.key 8
  if o.op = 0 then
    match s.counterAdd o.key o.a with
    | (s, v, full) => (s, v, 0, full)
  else if o.op = 3 then (if m < o.a then s.putNat o.key 8 o.a else s, max m o.a, 0, false)
  else if o.op = 11 then
    match stampedAdd m (o.a % 2 ^ 32) (o.a / 2 ^ 32) o.now with
    | (w, f) => (s.putNat o.key 8 w, m, f, false)
  else if o.op = 15 then
    match s.leaveTeam o.key with
    | (s, full) => (s, 0, 0, full)
  else if o.op = 16 ∨ o.op = 17 then
    match s.arrive o.key with
    | (s, closing, full) => (s, closing, 0, full)
  else if 4 ≤ o.op ∧ o.op ≤ 10 then (s.putNat o.key 8 (atomicNew o.op m o.a o.b), m, 0, false)
  else (s, m, 0, false)

/-- HOME_OPERATION_PERFORMED of an operation whose seat goes on (R262): an overflow is reported by an event record (R144). -/
def performHome (s : State) (o : HomeOp) : State :=
  let (s, _, _, full) := runHome { s with flight := s.flight.filter fun p => p.id != o.id } o
  if full then s.event o.asid 0x0B 0xFF o.seat.tile o.sid o.addr 0 0 else s

/-! ### Operations on their way -/

/-- Whether an operation is one of a strand's. -/
def HomeOp.of (o : HomeOp) (st : Strand) : Bool := o.asid == st.asid && o.sid == st.recAddr / 64 && o.launch == st.launch

/-- Whether an operation precedes in a seat's order (R141): the seat issued it, or the strand that the seat runs did, on any seat. -/
def HomeOp.before (o : HomeOp) (q : SeatId) (st : Strand) : Bool := o.seat == q || o.of st

/-- Whether an operation follows an earlier one in its agent's order (R141): of one seat, or of one strand. -/
def HomeOp.sameAgent (o p : HomeOp) : Bool := o.seat == p.seat || (p.asid == o.asid && p.sid == o.sid && p.launch == o.launch)

/-- The bytes from its key on that an operation acts on: those of a team record that team operations use, one word otherwise. -/
def HomeOp.bytes (o : HomeOp) : Nat := if 14 ≤ o.op ∧ o.op ≤ 17 then 32 else 8

/-- Whether an operation must wait for an earlier one of its agent: it releases (R146), or both act on one word (R143). -/
def HomeOp.after (o p : HomeOp) : Bool := o.rel || meets p.key p.bytes o.key o.bytes

/-- Of operations in issue order those that p picks and, before a picked one that releases, all earlier ones; the flag: one that releases
is among them. -/
def pickOps (p : HomeOp → Bool) : List HomeOp → List HomeOp × Bool
  | [] => ([], false)
  | o :: t =>
    let (ps, all) := pickOps p t
    if all || p o then (o :: ps, all || o.rel) else (ps, false)

/-- The operations on their way that precede in the current seat's order and that p picks are performed, in issue order, with those that a
release among them covers (notes/assumptions/12.md). -/
def State.settleOps (s : State) (st : Strand) (p : HomeOp → Bool) : State :=
  (pickOps p (s.flight.filter fun o => o.before s.cur st)).1.foldl performHome s

/-- Those on words that byte ranges (address, bytes) meet: a later access of the seat follows them in the words' coherence order (R143). -/
def State.settleWords (s : State) (st : Strand) (rs : List (Nat × Nat)) : State :=
  s.settleOps st fun o => rs.any fun (a, n) => meets o.key o.bytes a n

/-- All of them (a release to any region: R39, R116, R146). -/
def State.settleAll (s : State) (st : Strand) : State := s.settleOps st fun _ => true

/-- Those in the seat's own slice, which an engine command of it reads after (R151). -/
def State.settleSlice (s : State) (st : Strand) (tile : Nat) : State :=
  s.settleOps st fun o => decide (targetOf o.key = 3) && o.key / 0x800000 == tile

end Sys2Proof.Machine
end

