-- ==== Sys2Proof/Machine/Tensor.lean ====
section
/-!
DEFINITION. Handles and coordinates: tensor table entries (R51, R52), the layout unit (R54, R55), pageable tiles (R58), sequence
slots through the translation memory (R105, R125), gated stores (R59, R244) and the reads that merge them (R239).
-/

namespace Sys2Proof.Machine

/-- A tensor table entry of eight words (R52). -/
abbrev Entry := Vector Word 8

/-- Bits [lo + len - 1 : lo] of word i of an entry. -/
def entryField (e : Entry) (i lo len : Nat) : Nat := fieldAt (e[i]?.getD 0) lo len
/-- KIND (R52). -/
def Entry.kind (e : Entry) : Nat := entryField e 6 0 6
/-- FMT. -/
def Entry.fmt (e : Entry) : Nat := entryField e 6 6 4
/-- RANK. -/
def Entry.rank (e : Entry) : Nat := entryField e 6 10 3
/-- PAGEABLE. -/
def Entry.pageable (e : Entry) : Bool := entryField e 6 13 1 == 1
/-- RONLY as the table holds it. -/
def Entry.ronly (e : Entry) : Bool := entryField e 6 14 1 == 1
/-- GSHARED. -/
def Entry.gshared (e : Entry) : Bool := entryField e 6 15 1 == 1
/-- GLOCAL. -/
def Entry.glocal (e : Entry) : Bool := entryField e 6 16 1 == 1
/-- BASE. -/
def Entry.base (e : Entry) : Nat := entryField e 0 0 64
/-- EXTd. -/
def Entry.ext (e : Entry) (d : Nat) : Nat := entryField e (1 + d / 2) (32 * (d % 2)) 32
/-- HOME. -/
def Entry.home (e : Entry) : Nat := entryField e 3 0 64
/-- The owner map, HOME[63:62]. -/
def Entry.map (e : Entry) : Nat := e.home / 2 ^ 62
/-- GUARD. -/
def Entry.guard (e : Entry) : Nat := entryField e 4 0 64
/-- DECAY. -/
def Entry.decay (e : Entry) : Nat := entryField e 5 0 32
/-- TSTRIDE. -/
def Entry.tstride (e : Entry) : Nat := entryField e 5 32 32
/-- Bytes of an element (R53): stamped words and counters are 8 bytes. -/
def Entry.elem (e : Entry) : Nat := if e.kind = 2 ∨ e.kind = 4 then 8 else elemBytes e.fmt
/-- Bytes of a tile (R54), TSTRIDE for BMZ (R55). -/
def Entry.tileSize (e : Entry) : Nat :=
  if e.kind = 1 then e.tstride else if e.kind = 2 ∨ e.kind = 4 then 32768 else tileBytes e.fmt
/-- Rows and columns of the extent: rank 1 counts rows of 64 (R54). -/
def Entry.extRow (e : Entry) : Nat := if e.rank = 1 then ceilDiv (e.ext 0) 64 else e.ext (e.rank - 2)
/-- Columns of the extent (R54). -/
def Entry.extCol (e : Entry) : Nat := if e.rank = 1 then 64 else e.ext (e.rank - 1)
/-- Planes: the product of the leading extents (R54). -/
def Entry.planes (e : Entry) : Nat := if e.rank ≤ 2 then 1 else if e.rank = 3 then e.ext 0 else e.ext 0 * e.ext 1
/-- The number of tensor tiles (R54). -/
def Entry.tiles (e : Entry) : Nat := e.planes * ceilDiv e.extRow 64 * ceilDiv e.extCol 64
/-- Bytes that tile k of an entry takes (R54). -/
def Entry.tileUse (e : Entry) : Nat :=
  if e.rank = 1 ∧ e.ext 0 < 4096 ∧ !isSq e.fmt ∧ e.kind ≠ 1 then e.ext 0 * e.elem else e.tileSize
/-- Bytes that the elements of one payload take, by a sequence entry's EXT1 (R105). -/
def Entry.payloadUse (e : Entry) : Nat := if isSq e.fmt then e.extCol * sqBytes e.fmt / 16 else e.extCol * e.elem
/-- Tiles of the owner rectangle (R55): 1 for the other maps. -/
def Entry.owners (e : Entry) : Nat :=
  if e.map = 2 then (e.home / 2 ^ 9 % 16 + 1) * (e.home / 2 ^ 13 % 32 + 1) else 1
/-- Tile j of the owner map (R55). -/
def Entry.ownerTile (e : Entry) (own j : Nat) : Option Nat :=
  match e.map with
  | 0 => some own
  | 1 => some (e.home % 512)
  | 2 =>
    let w := e.home / 2 ^ 9 % 16 + 1
    some (tileAt (e.home % 16 + j % w) (e.home / 16 % 32 + j / w))
  | _ => none
/-- The owner of tensor tile k for an access by tile own (R55). -/
def Entry.owner (e : Entry) (own k : Nat) : Option Nat := e.ownerTile own (k % e.owners)
/-- The slice offset, or global address, of tile k's frame computed from BASE (R55). -/
def Entry.frame (e : Entry) (k : Nat) : Nat := e.base + (k / e.owners) * e.tileSize

/-- Entry h as slots and engines see it: every tile has a copy of H0, whose HOME is the placement map only (R56, R272). -/
def Entry.seen (h : Nat) (e : Entry) : Entry := if h = 0 then e.setIfInBounds 3 0 else e

/-- The launch of an id. -/
def State.launchOf (s : State) (id : Nat) : Option Launch := s.launches.find? fun l => l.id == id

/-- The image whose code holds an address (R305). -/
def State.imageAt (s : State) (addr : Nat) : Option Image :=
  (s.images.find? fun (_, i) => decide (i.base ≤ addr) && decide (addr < i.base + i.size)).map (·.2)

/-- The image of a launch: the one that holds its entry (R34). -/
def State.imageOf (s : State) (launch : Nat) : Option Image :=
  match s.launchOf launch with
  | some l => s.imageAt (l.words[0]?.getD 0).toNat
  | none => none

/-- Entry h of a launch's table as the table holds it; absent entries answer none (R51). -/
def State.tableEntryOf (s : State) (launch h : Nat) : Option Entry :=
  match s.imageOf launch with
  | some i => match assocFind h i.table with
    | some e => if Entry.kind e = 15 then none else some e
    | none => none
  | none => none

/-- Entry h of a launch's table as slots and engines see it. -/
def State.entryOf (s : State) (launch h : Nat) : Option Entry := (s.tableEntryOf launch h).map (Entry.seen h)

/-- The state bits and frame of tile k in the owner tile's table (R58). -/
def State.pageState (s : State) (e : Entry) (own k : Nat) : Nat × Nat :=
  let w := s.natAt (sliceAddr own (e.base + 8 * k)) 8
  (w % 4, w / 64 * 64)

/-- The slice offset of the tile table's word of the tensor tile that an OFFLOAD or RECALL names, by its own launch's table (R58, R261). -/
def State.pageWordOf (s : State) (c : Cmd) : Option Nat :=
  (s.entryOf c.launch c.handle).map fun e => e.base + 8 * fieldAt (c.z[0]?.getD 0) 0 32

/-- The counter of the OFFLOAD or RECALL under way on the tile whose tile table's word stands at a slice offset, under whatever handle it was
issued; 0 if none (R340). -/
def State.residencyCounter (s : State) (own off : Nat) : Nat :=
  match s.cmds.find? fun c => (c.op == 14 || c.op == 15) && c.phase == 2 && c.seat.tile == own && s.pageWordOf c == some off with
  | some c => if c.counter < 2 ^ 64 then c.counter else 0
  | none => 0

/-- The translation fault of an access to local tile k of entry e, handle h (R58, R340). -/
def State.residencyTrap (s : State) (own h : Nat) (e : Entry) (k st : Nat) : Trap :=
  { cause := 0x06, arg := k, faddr := k * 2 ^ 32 + h, rstate := st, cctr := s.residencyCounter own (e.base + 8 * k), rollback := true }

/-! ### Gated stores -/

/-- The cells of a gated store with physical addresses: those of a pageable tile take the frame that is current (R59). -/
def State.gatedCells (s : State) (own launch : Nat) (g : Gated) : List (Nat × Byte) :=
  match s.entryOf launch g.handle with
  | some e =>
    if e.pageable then
      let base := sliceAddr own (s.pageState e own g.tile).2
      g.cells.map fun (a, b) => (base + a, b)
    else g.cells
  | none => g.cells

/-- The byte at a slice address as the seat sees it: its own gated stores merged in (R239). -/
def overlay (cells : List (Nat × Byte)) (s : State) (a : Nat) : Byte :=
  match cells.find? fun c => c.1 == a with
  | some c => c.2
  | none => memRead s.mem a

/-- The seat's gated cells, latest first. -/
def State.ownCells (s : State) (q : SeatId) (st : Strand) : List (Nat × Byte) :=
  ((st.gate.map (s.gatedCells q.tile st.launch)).flatten).reverse

/-! ### Words that plain stores leave alone (R14, R30, R101) -/

/-- The sequences that the part knows of, as (identifier, header): those of the tensor tables of launches and of the translation memories
(notes/assumptions/33.md). -/
def State.knownSequences (s : State) : List (Nat × Nat) :=
  ((s.launches.map fun l => match s.imageOf l.id with
      | some i => i.table.filterMap fun (_, e) => if Entry.kind e = 3 then some (l.asid, Entry.base e) else none
      | none => []).flatten ++ s.stm.map fun e => (e.asid, e.hdr)).eraseDups

/-- The strands that wait for a seat (R28, R41): in a ready queue, or for a counter. -/
def State.waiting (s : State) : List Ready :=
  (s.fields.toList.map (·.ready)).flatten ++ s.watches.filterMap fun w => match w.waiter with | .strand r _ => some r | .host _ _ => none

/-- The teams that the part knows of, as (identifier, record): those that strands on seats or saved are members of or wait to join, those of the
strands that a launch not complete has created (R36), and those of strands that wait, by the TEAMID of their records (R24;
notes/assumptions/68.md). -/
def State.knownTeams (s : State) : List (Nat × Nat) :=
  (((s.seats ++ s.saved).map (·.2)).filterMap fun st => match st.wait with
    | .join t _ _ _ _ => some (st.asid, 64 * t)
    | _ => if st.team = 0xFFFFFFFF then none else some (st.asid, 64 * st.team)) ++
    (s.launches.map fun l => (List.range (ceilDiv l.created (fieldAt (l.words[2]?.getD 0) 32 16))).map fun k =>
      (l.asid, 64 * (fieldAt (l.words[5]?.getD 0) 0 32 + k))).flatten ++
    s.waiting.filterMap fun r => match s.translate 0 r.asid r.record false with
      | some a => let t := s.natAt (a + 48) 4; if t = 0xFFFFFFFF then none else some (r.asid, 64 * t)
      | none => none

/-- The trap of a plain store to a counter (R53, R101, R30). -/
def counterTrap : Trap := { cause := 0x0C, arg := 0 }

/-- Whether a store to cells of the tile's slice meets a counter: LEN or RETIRED of a sequence's valid header (R101), ARRIVALS of a team
record (R30). Of which sequences and teams is the model's choice (notes/assumptions/68.md). -/
def State.meetsCounter (s : State) (tile : Nat) (cells : List (Nat × Byte)) : Bool :=
  let hits : Nat → Bool := fun a => cells.any fun c => decide (a ≤ c.1) && decide (c.1 < a + 8)
  (s.knownSequences.any fun (asid, hdr) => match s.translate (fieldOf tile) asid hdr false with
    | some a => (s.seqHeader a).valid && (hits a || hits (a + 16))
    | none => false) ||
  s.knownTeams.any fun (asid, rec_) => match s.translate (fieldOf tile) asid rec_ false with
    | some a => hits a
    | none => false

/-- The slot of a page that holds byte o of its frame, and whether no store ever writes it there (R104, R106); none for the page header. -/
def slotOfByte (bytes : Nat) (bitmap : Option Nat) (o : Nat) : Option (Nat × Bool) :=
  if o < 64 then none
  else if o < 4160 then some ((o - 64) / 16, decide (8 ≤ (o - 64) % 16))
  else ((List.range 256).find? fun i => match payloadOffset bytes bitmap i with
    | some p => decide (p ≤ o) && decide (o < p + bytes)
    | none => false).map fun i => (i, false)

/-- Physical pieces with the offset at which each begins, from one on. -/
def offsetPieces : Nat → List (Nat × Nat) → List (Nat × Nat × Nat)
  | _, [] => []
  | o, (a, n) :: t => (o, a, n) :: offsetPieces (o + n) t

/-- Whether a store to cells of the tile's slice meets a slot of a page that is not OPEN (R106, R109), of the sequences that the part knows of
(notes/assumptions/33.md). -/
def State.meetsClosed (s : State) (tile : Nat) (cells : List (Nat × Byte)) : Bool :=
  s.knownSequences.any fun (asid, hdr) => match s.translate (fieldOf tile) asid hdr false with
    | none => false
    | some a =>
      let h := s.seqHeader a
      h.valid && (List.range (h.cap / 256)).any fun p => match s.pagePlace asid h p with
        | none => false
        | some (fr, b) =>
          let closed : Nat → Bool := fun o => match slotOfByte h.payload b o with
            | none => false
            | some (i, never) => never || (match s.translate (fieldOf tile) asid (fr + 72 + 16 * i) false with
              | some m => !(s.natAt m 8).testBit 51
              | none => true)
          (offsetPieces 0 ((s.pieces (fieldOf tile) asid fr (frameBytes h.payload b) false).getD [])).any fun (o, a, n) =>
            cells.any fun c => decide (a ≤ c.1) && decide (c.1 < a + n) && closed (o + (c.1 - a))

/-! ### Performing the gate buffer -/

/-- One gated store performed (R59, R106): written, dropped with a trap, or a translation fault. A slot is OPEN for the store that names it, and for
one that reaches its bytes through another entry (R109); a tile table's frame beyond the slice is not local (R10). -/
def performGated (own launch : Nat) (s : State) (g : Gated) : Except Trap (State × Option Trap) :=
  match s.entryOf launch g.handle with
  | some e =>
    if e.pageable && (s.pageState e own g.tile).1 != 0 then
      .error (s.residencyTrap own g.handle e g.tile (s.pageState e own g.tile).1)
    else
      let cells := s.gatedCells own launch g
      if e.pageable && decide (0x800000 < (s.pageState e own g.tile).2 + e.tileUse) then .ok (s, some (notLocal 0xFFFF))
      else if !(g.slots.all fun sl => (s.natAt (sl.1 + 8) 8).testBit 51) then .ok (s, some (sequenceTrap 0))
      else if e.pageable && s.meetsCounter own cells then .ok (s, some counterTrap)
      else if e.kind != 3 && s.meetsClosed own cells then .ok (s, some (sequenceTrap 0))
      else .ok (s.writeCells cells, none)
  | none => .ok (s.writeCells g.cells, none)

/-- The gate buffer performed in entry order (R244). A tile that is not writable stops it with a rollback (R59); a sequence slot
that is not OPEN drops that store and raises sequence write (R106). -/
def performGate (own launch : Nat) : State → List Gated → Except Trap (State × Option Trap)
  | s, [] => .ok (s, none)
  | s, g :: t =>
    match performGated own launch s g with
    | .error e => .error e
    | .ok (s, tr) =>
      match performGate own launch s t with
      | .error e => .error e
      | .ok (s, tr') => .ok (s, tr <|> tr')

/-- The current seat's gated stores performed and its buffer emptied; its operations on their way to the same words come first (R143). -/
def State.flushGate (s : State) : Except Trap State :=
  match s.strand with
  | none => .ok s
  | some st =>
    let s := s.settleWords st ((s.ownCells s.cur st).map fun c => (c.1, 1))
    match performGate s.cur.tile st.launch s st.gate with
    | .error t => .error t
    | .ok (s', none) => .ok (s'.setStrand { st with gate := [] })
    | .ok (_, some t) => .error t

/-! ### Coordinates -/

/-- Where an access goes: entry, tensor tile, row and column, the tile's frame (none for a pageable store, which reads it when
performed), and for a sequence the global address of the slot's frame with the page's survivor bitmap. -/
structure Place where
  e : Entry
  h : Nat
  tile : Nat
  row : Nat
  col : Nat
  frame : Nat
  page : Option (Nat × Option Nat)
  deriving DecidableEq, Repr

/-- Coordinates Xc to Xc+n-1 (R19, R239). -/
def Strand.coords (st : Strand) (xc n : Nat) : List Nat := (List.range n).map fun d => (st.regs.xAt (xc + d)).toNat

/-- Whether element (row, col) lies within the extents (R54, R105): metadata words of a sequence count for scalar accesses. -/
def Entry.inside (e : Entry) (row col : Nat) : Bool :=
  if e.rank = 1 then decide (64 * row + col < e.ext 0)
  else decide (row < e.extRow) && decide (col < e.extCol)

/-- Row, column and plane of coordinates with a row offset (R54, R170); none when a coordinate leaves 0 to 2^32 - 1 or a leading
coordinate leaves its extent. -/
def Entry.rowCol (e : Entry) (cs : List Nat) (off : Int) : Option (Nat × Nat × Nat) :=
  match cs with
  | [c] =>
    let c' : Int := c + 64 * off
    if c' < 0 ∨ 2 ^ 32 ≤ c' then none else some (0, c'.toNat / 64, c'.toNat % 64)
  | _ =>
    let n := cs.length
    let r : Int := (cs.getD (n - 2) 0 : Nat) + off
    let c := cs.getD (n - 1) 0
    if r < 0 ∨ 2 ^ 32 ≤ r then none
    else if n = 2 then some (0, r.toNat, c)
    else if n = 3 then (if cs.getD 0 0 < e.ext 0 then some (cs.getD 0 0, r.toNat, c) else none)
    else if cs.getD 0 0 < e.ext 0 ∧ cs.getD 1 0 < e.ext 1 then some (cs.getD 0 0 * e.ext 1 + cs.getD 1 0, r.toNat, c) else none

/-- The tensor tile number (R54). -/
def Entry.tileNumber (e : Entry) (plane row col : Nat) : Nat :=
  (plane * ceilDiv e.extRow 64 + row / 64) * ceilDiv e.extCol 64 + col / 64

/-- A page's translation entry of a tile (R125). -/
def State.stmFind (s : State) (tile asid hdr page : Nat) : Option StmEntry :=
  s.stm.find? fun e => e.tile == tile && e.asid == asid && e.hdr == hdr && e.page == page

/-- The entry's last lookup set to now (R126). -/
def State.stmTouch (s : State) (tile asid hdr page : Nat) : State :=
  { s with stm := s.stm.map (fun e => if e.tile == tile && e.asid == asid && e.hdr == hdr && e.page == page then { e with used := s.tick } else e),
           tick := s.tick + 1 }

/-- A survivor bitmap as a number (R125). -/
def bitmapNat (b : Vector Word 4) : Nat := leNat ((b.toList.map fun w => leBytes 8 w.toNat).flatten)

/-- The payload size of a sequence entry's header. -/
def State.payloadOf (s : State) (tile asid hdr : Nat) : Nat :=
  match s.translate (fieldOf tile) asid hdr false with
  | some a => (s.seqHeader a).payload
  | none => 16

/-- What keeps an LS slot from a frame of n bytes (R10, R105): its first 64 KiB page that is not in the tile's own slice, or for a store
one that is not writable (R337). -/
def State.frameTrap (s : State) (tile asid fr n : Nat) (store : Bool) : Option Trap :=
  (List.range ((fr + n - 1) / 65536 - fr / 65536 + 1)).findSome? fun k =>
    let va := if k = 0 then fr else (fr / 65536 + k) * 65536
    match s.translate (fieldOf tile) asid va false with
    | none => some (notLocal 0xFFFF)
    | some a =>
      if targetOf a ≠ 3 then some (notLocal 0xFFFF)
      else if a / 0x800000 ≠ tile then some (notLocal (a / 0x800000))
      else if store && (s.translate (fieldOf tile) asid va true).isNone then some { cause := 0x06, arg := va % 2 ^ 32, faddr := va }
      else none

/-- Where slot row of a sequence lies for a tile (R105, R125): a missing entry is a translation miss, a frame that is not wholly in the
issuing tile's slice is not local. used: the bytes of a payload that the entry's EXT1 names, which lie in the slice too (R10). -/
def State.slotPage (s : State) (tile asid hdr row used : Nat) (store : Bool) : Except Trap (Nat × Option Nat) :=
  match s.stmFind tile asid hdr (row / 256) with
  | none => .error { cause := 0x07, arg := row / 256 }
  | some m =>
    let b := m.bitmap.map bitmapNat
    let n := s.payloadOf tile asid hdr
    match s.frameTrap tile asid m.frame (frameBytes n b + (used - n)) store with
    | some t => .error t
    | none => .ok (m.frame, b)

/-- The place of an access by an LS slot (R239 to R243, R246); H0 is read in the issuing tile's own copy (R272). align: which of row and column must be multiples of 64; store:
whether it writes; word: whether it is a 32-bit scalar access, which alone reaches a slot's metadata (R105); allowed: whether the op admits
the entry. -/
def State.locate (s : State) (st : Strand) (h xc : Nat) (off : Int) (alignRow alignCol store word : Bool) (allowed : Entry → Bool) :
    Except Trap Place :=
  match s.entryOf st.launch h with
  | none => .error (notLocal 0xFFFF)
  | some e =>
    if 63 < xc + e.rank - 1 then .error (illegalTrap 5)
    else if e.kind = 5 then .error (privilegeTrap (0x300 + h))
    else if store && e.kind == 4 then .error counterTrap
    else if !allowed e then .error (formatTrap (0x300 + h))
    else if store && (e.ronly || h == 0) then .error (privilegeTrap (0x300 + h))
    else match e.rowCol (st.coords xc e.rank) off with
      | none => .error (notLocal 0xFFFF)
      | some (plane, row, col) =>
        let isMeta : Bool := e.kind == 3 && decide (row < e.extRow) && decide (e.extCol ≤ col) && decide (col < e.extCol + 4)
        if isMeta && !word then .error (formatTrap (0x300 + h))
        else if !(e.inside row col || isMeta) || (alignRow && row % 64 != 0) || (alignCol && col % 64 != 0) then .error (notLocal 0xFFFF)
        else if e.kind = 3 then
          match s.slotPage s.cur.tile st.asid e.base row e.payloadUse store with
          | .error t => .error t
          | .ok pg => .ok { e := e, h := h, tile := 0, row := row, col := col, frame := 0, page := some pg }
        else
          let k := e.tileNumber plane row col
          match e.owner s.cur.tile k with
          | none => .error (notLocal 0xFFFF)
          | some o =>
            if o ≠ s.cur.tile then .error (notLocal o)
            else if e.pageable then
              let (code, fr) := s.pageState e o k
              if !store && 2 ≤ code then .error (s.residencyTrap o h e k code)
              else if !store && decide (0x800000 < fr + e.tileUse) then .error (notLocal 0xFFFF)
              else .ok { e := e, h := h, tile := k, row := row, col := col, frame := if store then 0 else sliceAddr o fr, page := none }
            else .ok { e := e, h := h, tile := k, row := row, col := col, frame := sliceAddr o (e.frame k), page := none }

/-- The address of element (row + i, col + j) of a place; none where it reads as +0 and is not written: outside the extents, or
the payload of a slot that compaction left out (R106, R125, R241). -/
def State.elemAddr (s : State) (tile asid : Nat) (pl : Place) (i j : Nat) : Option Nat :=
  match pl.page with
  | some (frame, bitmap) =>
    let sl := pl.row + i
    let col := pl.col + j
    let key : Nat → Option Nat := fun off => s.translate (fieldOf tile) asid (frame + off) false
    if pl.e.extCol ≤ col ∧ col < pl.e.extCol + 4 ∧ i = 0 ∧ j = 0 then key (64 + 16 * (sl % 256) + 4 * (col - pl.e.extCol))
    else if !(decide (sl < pl.e.extRow) && decide (col < pl.e.extCol)) then none
    else match key (64 + 16 * (sl % 256) + 8), payloadOffset (s.payloadOf tile asid pl.e.base) bitmap (sl % 256) with
      | some m, some off => if (s.natAt m 8).testBit 48 then none else key (off + col * pl.e.elem)
      | _, _ => none
  | none =>
    let row := pl.row + i
    let col := pl.col + j
    if pl.e.inside row col then some (pl.frame + pl.e.elem * (64 * (row % 64) + col % 64)) else none

/-- The metadata record of slot row + i of a sequence place (R104), whose OPEN bit a store needs (R106). -/
def State.slotMeta (s : State) (tile asid : Nat) (pl : Place) (i : Nat) : List (Nat × Nat) :=
  match pl.page with
  | some (frame, _) =>
    match s.translate (fieldOf tile) asid (frame + 64 + 16 * ((pl.row + i) % 256)) false with
    | some m => [(m, pl.row + i)]
    | none => []
  | none => []

/-- The place's page looked up now (R126); other places leave the translation memory. -/
def State.touch (s : State) (asid : Nat) (pl : Place) : State :=
  match pl.page with
  | some _ => s.stmTouch s.cur.tile asid pl.e.base (pl.row / 256)
  | none => s

end Sys2Proof.Machine
end

