-- ==== Sys2Proof/Machine/Noise.lean ====
section
/-!
DEFINITION. Saffron noise (R79 to R84): drawing words in LIVE, LOG and REPLAY mode, the noise log, and marks (R197, R244).
-/

namespace Sys2Proof.Machine

/-- n words of the seat's live stream (R79). A seat does not take the step that would draw more than the stream holds (State.heldBack); a slot
executed without that wait gets free words for those missing (notes/assumptions/7.md). -/
def liveWords (q : SeatId) : Nat → State → List (BitVec 16) × State
  | 0, s => ([], s)
  | n + 1, s =>
    match (assocFind (SeatId.key q) s.streams).getD [] with
    | w :: t =>
      let (ws, s) := liveWords q n { s with streams := assocPut (SeatId.key q) t s.streams }
      (w :: ws, s)
    | [] =>
      let (w, s) := s.freeNoise
      let (ws, s) := liveWords q n s
      (w :: ws, s)

/-- Whether the source of a field is disabled (R79). -/
def State.noiseOff (s : State) (f : Nat) : Bool := match s.fields[f]? with | some d => d.noiseOff | none => true

/-- The words and count of slot sl of a replay sequence: none when it is retired or its frame is not readable (R83). -/
def State.replaySlot (s : State) (asid : Nat) (h : SeqHeader) (sl : Nat) : Option (Nat × List (BitVec 16)) :=
  match s.pagePlace asid h (sl / 256) with
  | none => none
  | some (fr, b) => match s.frameKey asid h fr (64 + 16 * (sl % 256) + 8) false, payloadOffset h.payload b (sl % 256) with
    | some m, some off =>
      if (s.natAt m 8).testBit 48 then none
      else (s.readGlobal (fieldOf (homeTile h.addr)) asid (fr + off) 64).map fun bs =>
        (leNat (bs.drop 62), (List.range 31).map fun k => BitVec.ofNat 16 (leNat ((bs.drop (2 * k)).take 2)))
    | _, _ => none

/-- The poisoned word that reading slot sl of a replay sequence meets (R83, R343). -/
def State.replayPoison (s : State) (asid : Nat) (h : SeqHeader) (sl : Nat) : Option Trap :=
  s.poisonAmong (s.slotReads asid h false sl) <|>
  match s.pagePlace asid h (sl / 256) with
  | none => none
  | some (fr, b) => match payloadOffset h.payload b (sl % 256) with
    | some off =>
      if (s.replaySlot asid h sl).isNone then none
      else ((s.pieces (fieldOf (homeTile h.addr)) asid (fr + off) 64 false).getD []).findSome? fun (a, n) => s.poisonTrap a n (fr + off)
    | none => none

/-- n words read in REPLAY mode from slot sl, word w (R83), with fuel for the slots passed: the words and the new position. -/
def replayWords (s : State) (asid : Nat) (h : SeqHeader) : Nat → Nat → Nat → Nat → Except Trap (List (BitVec 16) × Nat × Nat)
  | _, 0, sl, w => .ok ([], sl, w)
  | 0, _, _, _ => .error { cause := 0x0F, arg := 0 }
  | fuel + 1, n + 1, sl, w =>
    if h.len ≤ sl then .error { cause := 0x0F, arg := 0 }
    else match s.replayPoison asid h sl, s.replaySlot asid h sl with
      | some t, _ => .error t
      | none, none => replayWords s asid h fuel (n + 1) (sl + 1) 0
      | none, some (count, ws) =>
        if 31 < count then .error { cause := 0x0F, arg := 1, faddr := sl }
        else if count ≤ w then replayWords s asid h fuel (n + 1) (sl + 1) 0
        else
          let (sl', w') := if w + 1 = count then (sl + 1, 0) else (sl, w + 1)
          match replayWords s asid h fuel n sl' w' with
          | .ok (rest, p) => .ok (ws.getD w 0 :: rest, p)
          | .error t => .error t

/-- The current seat's strand after it drew words: CONSUMED counts them, saturating (R84). -/
def Strand.countWords (st : Strand) (n : Nat) : Strand :=
  { st with noise := { st.noise with consumed := min (st.noise.consumed + n) (2 ^ 32 - 1) } }

/-- n noise words for a slot of the current seat (R79 to R83). -/
def State.drawNoise (s : State) (n : Nat) : Except Trap (List (BitVec 16) × State) :=
  match s.strand with
  | none => .ok ([], s)
  | some st =>
    if n = 0 then .ok ([], s)
    else if st.noise.mode = 2 then
      match s.translate (fieldOf s.cur.tile) st.asid st.noise.hdr false with
      | none => .error { cause := 0x06, arg := st.noise.hdr % 2 ^ 32, faddr := st.noise.hdr }
      | some a =>
        let h := s.seqHeader a
        match s.poisonTrap a 64 st.noise.hdr with
        | some t => .error t
        | none =>
        if !h.valid then .error (sequenceTrap 1)
        else match replayWords s st.asid h (n + h.len + 1) n st.noise.slot st.noise.word with
          | .error t => .error t
          | .ok (ws, sl, w) =>
            .ok (ws, s.setStrand { (st.countWords n) with noise := { (st.countWords n).noise with slot := sl, word := w } })
    else if s.noiseOff (fieldOf s.cur.tile) then .error { cause := 0x0E, arg := 0xFFFE }
    else
      let (ws, s) := liveWords s.cur n s
      let st := st.countWords n
      .ok (ws, s.setStrand { st with drawn := if st.noise.mode = 1 then st.drawn ++ ws else st.drawn })

/-- The 64 bytes of a noise-log slot (R82). -/
def logSlot (ws : List (BitVec 16)) : List Byte :=
  (ws.map fun w => leBytes 2 w.toNat).flatten ++ List.replicate (62 - 2 * ws.length) 0 ++ leBytes 2 ws.length

/-- Log slots written one after the other from slot sl (R82). A slot whose payload does not translate for a write stays as it was, and its
reservation is committed all the same: the model's choice (notes/assumptions/66.md). -/
def State.writeLog (s : State) (asid : Nat) (h : SeqHeader) : Nat → List (List (BitVec 16)) → State
  | _, [] => s
  | sl, ws :: t =>
    let s' := match s.pageFrame asid h (sl / 256) with
      | some f => (s.writeGlobal (fieldOf (homeTile h.addr)) asid (f + 4160 + (sl % 256) * h.payload) (logSlot ws)).getD s
      | none => s
    State.writeLog s' asid h (sl + 1) t

/-- The words that the current seat's bundle drew in LOG mode are appended to its log in one reservation (R82). A valid header is used as it
stands, whatever its alignment and PSIZE: the model's choice (notes/assumptions/66.md). -/
def State.logNoise (s : State) : Except Trap State :=
  match s.strand with
  | none => .ok s
  | some st =>
    if st.drawn.isEmpty then .ok s
    else
      let s := s.setStrand { st with drawn := [] }
      match s.translate (fieldOf s.cur.tile) st.asid st.noise.hdr true with
      | none => .error { cause := 0x06, arg := st.noise.hdr % 2 ^ 32, faddr := st.noise.hdr }
      | some a =>
        let h := s.seqHeader a
        match s.poisonTrap a 64 st.noise.hdr with
        | some t => .error t
        | none =>
        if !h.valid then .error (sequenceTrap 1)
        else
          let slots := runsOf 31 (st.drawn.length + 1) st.drawn
          match s.reserve st.asid h slots.length (s.stepOf st.asid) with
          | (none, _) => .error (sequenceTrap 3)
          | (some start, s) =>
            let s := s.writeLog st.asid h start slots
            .ok ((s.commit st.asid h start).getD s)

/-- The noise mode under which a drain of a strand draws (R80). -/
def Drain.noise (d : Drain) (st : Strand) : Noise := d.own.getD st.noise

/-- n words that a beat of drain d of seat q draws itself (R236, notes/assumptions/10.md): of the live stream, or in REPLAY mode the next of
the replay, none where the replay has none to give; with the drain's own noise mode as it stands then. -/
def State.beatDraw (q : SeatId) (d : Drain) (n : Nat) (s : State) : List (BitVec 16) × Option Noise × State :=
  match s.strandAt q with
  | none => ([], d.own, s)
  | some st =>
    let z := d.noise st
    if n = 0 then ([], d.own, s)
    else if z.mode ≠ 2 then
      let (ws, s) := liveWords q n s
      (ws, d.own, s)
    else
      match s.translate (fieldOf q.tile) st.asid z.hdr false with
      | none => ([], d.own, s)
      | some a => match replayWords s st.asid (s.seqHeader a) (n + (s.seqHeader a).len + 1) n z.slot z.word with
        | .error _ => ([], d.own, s)
        | .ok (ws, sl, w) =>
          if d.own.isSome then (ws, some { z with slot := sl, word := w }, s)
          else (ws, none, s.putStrand q { st with noise := { z with slot := sl, word := w } })

/-- The words that the beats of drain d of seat q have drawn in LOG mode and no log holds yet, appended in one reservation (R82); a log that
refuses them takes none (notes/assumptions/10.md). -/
def State.logBeats (q : SeatId) (d : Drain) (s : State) : State :=
  match s.strandAt q with
  | none => s
  | some st =>
    let z := d.noise st
    if z.mode ≠ 1 ∨ d.words.length ≤ d.logged ∨ !d.live then s
    else
      let drains := st.drains.map fun x => if x == d then { d with logged := d.words.length } else x
      match ({ s with cur := q }.setStrand { st with drawn := d.words.drop d.logged, noise := z }).logNoise with
      | .ok s' => { s' with cur := s.cur }.putStrand q { st with drains := drains }
      | .error _ => s.putStrand q { st with drains := drains }

/-- The beats' words of the current seat's drains go before those of a bundle that draws in LOG mode: the log is in the order of their
consumption (R82). -/
def State.logBeatsFirst (s : State) : State :=
  match s.strand with
  | none => s
  | some st => if st.drawn.isEmpty then s else st.drains.foldl (fun s d => s.logBeats s.cur d) s

/-- The bundle makes a mark (R197, R212, R244): the gated stores are performed now, the shadows are taken at the bundle's end. -/
def State.mark (s : State) : Except Trap State :=
  match s.flushGate with
  | .error t => .error t
  | .ok s => match s.strand with
    | none => .ok s
    | some st => .ok (s.setStrand { st with marked := true })

/-- A noise-consuming slot in LOG or REPLAY mode makes its bundle a mark (R81). -/
def State.noiseMark (s : State) : Except Trap State :=
  match s.strand with
  | some st => if st.noise.mode = 0 then .ok s else s.mark
  | none => .ok s

end Sys2Proof.Machine
end

