-- ==== Sys2Proof/Machine/Finisher.lean ====
section
/-!
DEFINITION. The finisher: configuration words (R228), the stages R97 and the mask R123, drain beats (R218, R236), mass adds (R135)
and the checks at an MDRAIN's issue (R235).
-/

namespace Sys2Proof.Machine

/-- A field of finisher configuration word w (R228). -/
def cfgField (cf : Vector Word 5) (w lo len : Nat) : Nat := fieldAt (cf[w]?.getD 0) lo len
/-- SEN (R228). -/
def cfgSen (c : Vector Word 5) : Bool := cfgField c 0 55 1 == 1
/-- BEN. -/
def cfgBen (c : Vector Word 5) : Bool := cfgField c 0 53 1 == 1
/-- MEN. -/
def cfgMen (c : Vector Word 5) : Bool := cfgField c 0 52 1 == 1
/-- MAXEN. -/
def cfgMaxen (c : Vector Word 5) : Bool := cfgField c 0 51 1 == 1
/-- SUMEN. -/
def cfgSumen (c : Vector Word 5) : Bool := cfgField c 0 50 1 == 1
/-- BMZ. -/
def cfgBmz (c : Vector Word 5) : Bool := cfgField c 0 49 1 == 1
/-- RMODE. -/
def cfgMode (c : Vector Word 5) : Nat := cfgField c 0 46 3
/-- OUTFMT. -/
def cfgOut (c : Vector Word 5) : Nat := cfgField c 0 42 4
/-- FN. -/
def cfgFn (c : Vector Word 5) : Nat := cfgField c 0 38 4
/-- DKIND. -/
def cfgKind (c : Vector Word 5) : Nat := cfgField c 0 36 2
/-- DH. -/
def cfgDh (c : Vector Word 5) : Nat := cfgField c 0 30 6
/-- DT. -/
def cfgDt (c : Vector Word 5) : Nat := cfgField c 0 27 3
/-- MSQ. -/
def cfgMsq (c : Vector Word 5) : Nat := cfgField c 0 25 2
/-- Coordinates C0 to C3. -/
def cfgCoord (c : Vector Word 5) (d : Nat) : Nat := cfgField c (1 + d / 2) (32 * (d % 2)) 32
/-- SCALE2's exponent K, signed. -/
def cfgK (c : Vector Word 5) : Int := signedOf 8 (cfgField c 0 56 8)
/-- The mask word MWORD (R233). -/
def cfgMask (cf : Vector Word 5) : Nat := (cf[3]?.getD 0).toNat
/-- s0 of the mask (R233). -/
def maskS0 (w : Nat) : Nat := w / 2 ^ 6 % 2 ^ 26 * 64

/-- The physical key of slot sl's metadata record in the frame at a global address, for a tile of field f (R103, R125). -/
def State.recordKey (s : State) (f asid fr sl : Nat) (write : Bool) : Option Nat := s.translate f asid (fr + 64 + 16 * (sl % 256)) write

/-- Keep(i, j) of R123 from the query lanes, the key's record in its frame, and the bounds; rec: the records' physical keys. -/
def keepKey (s : State) (rec_ : Nat → Option Nat) (d : Drain) (cap bound i j : Nat) : Bool :=
  let w := cfgMask d.fcfg
  let sl := maskS0 w + j
  if bound ≤ sl ∨ cap ≤ sl then false
  else match rec_ sl with
  | none => false
  | some a =>
    if (s.natAt (a + 8) 8).testBit 48 then false
    else
      let kp := s.natAt a 4
      let qp := (d.vq.lane i).toNat
      let k : Bool := match w / 4 % 4 with
        | 0 => true
        | 1 => decide (kp ≤ qp)
        | 2 => decide (kp < qp)
        | _ => decide (kp ≤ qp) && decide (qp - kp < w / 2 ^ 32)
      if w / 16 % 2 = 1 ∧ (d.vgroup.lane i).toNat ≠ s.natAt (a + 4) 4 then false else k

/-- Stage 2 of R97 on FP32 bits: fused scale and bias, one rounding. -/
def scaleStage (c : Vector Word 5) (vs vb : VReg) (i j a : Nat) : Nat × Flags :=
  let l := if cfgField c 0 54 1 = 1 then j else i
  let (p, f) := zeroMass a (vs.lane l).toNat
  if cfgBen c then
    let (t, g) := addVal p (val32 (vb.lane l).toNat)
    let (y, h) := rne32 t
    (y, f ||| g ||| h)
  else
    let (y, h) := rne32 p
    (y, f ||| h)

/-- Whether a drain of an I32 bank converts directly (R97): stages 2 to 6 off and an integer output format. -/
def directInts (c : Vector Word 5) (ints : Bool) : Bool :=
  ints && !cfgSen c && !cfgMen c && !cfgMaxen c && !cfgSumen c && cfgFn c == 0 && decide (1 ≤ cfgOut c) && decide (cfgOut c ≤ 4)

/-- Stages 1 to 3 of one element: FP32 bits. -/
def frontStages (s : State) (rec_ : Nat → Option Nat) (d : Drain) (ints : Bool) (cap bound i j x : Nat) : Nat × Flags :=
  let (a, f) := if ints then rne32 (ofInteger (signedOf 32 x)) else (x, 0)
  let (b, g) := if cfgSen d.fcfg then scaleStage d.fcfg d.vs d.vb i j a else (a, 0)
  let c := if cfgMen d.fcfg && !keepKey s rec_ d cap bound i j then infBits fp32 true else b
  (c, f ||| g)

/-- One drained row through stages 1 to 6 (R97, R99): stage-5 values, the row maximum and sum, the flags. -/
def rowStages (s : State) (rec_ : Nat → Option Nat) (d : Drain) (b : Bank) (cap bound i : Nat) : List Nat × Nat × Nat × Flags :=
  let ints := b.tag == 3
  let as := (List.range 64).map fun j => frontStages s rec_ d ints cap bound i j (b.elems[64 * i + j]?.getD 0).toNat
  let ys := as.map fun a => if cfgFn d.fcfg = 0 then (a.1, (0 : Flags)) else finishFn (cfgFn d.fcfg) (cfgK d.fcfg) a.1
  let mx := as.foldl (fun m a => max32 m a.1) (infBits fp32 true)
  let (sm, fs) := if cfgSumen d.fcfg then windowSum false (ys.map fun y => val32 y.1) else (0, 0)
  (ys.map (·.1), mx, sm, joinFlags (as.map (·.2)) ||| joinFlags (ys.map (·.2)) ||| fs)

/-- Written elements converted in order, RNEF groups of 16 running from beat to beat (R75, R236). -/
def convertStream (fmt mode : Nat) (ints : Bool) : Nat → Val → List (Val × Nat) → List (Nat × Flags) × Nat × Val
  | pos, e, [] => ([], pos, e)
  | pos, e, (x, n) :: t =>
    let e := if pos % 16 = 0 then .num false 0 0 else e
    if mode = 5 then
      let (r, e') := convertFed fmt ints e x
      let (rs, p, e'') := convertStream fmt mode ints (pos + 1) e' t
      (r :: rs, p, e'')
    else
      let (rs, p, e'') := convertStream fmt mode ints (pos + 1) e t
      (convertOne fmt mode n ints x :: rs, p, e'')

/-- Noise word k of a drain; a word beyond those drawn is a free one (notes/assumptions/7.md). -/
def drainWord (s : State) (d : Drain) (k : Nat) : Nat := ((d.words[k]?).getD (Config.noise (s.fresh + k))).toNat

/-- The columns of a mass drain whose adds a beat sends, by SQLEN as it stands (R236). -/
def massCols (st : Strand) (c : Vector Word 5) : List Nat :=
  (List.range 64).filter fun j => decide (cfgCoord c 0 + j < (st.regs.sqlen[cfgMsq c]?.getD 0).toNat)

/-- The noise words that the next beat of a drain draws itself: of a mass drain, one for each add that it sends (R135, R236). -/
def Drain.beatWords (d : Drain) (st : Strand) : Nat := if d.live then 8 * (massCols st d.fcfg).length else 0

/-- Eight rows of a drain to SQ blocks that the extents may cut (R75, R76, R236): an element outside takes no part, in error feedback and with words,
its field is +0 (notes/assumptions/32.md). The bytes, the flags and how many elements are written. -/
def sqCut (s : State) (d : Drain) (fmt mode : Nat) (inside : Nat → Nat → Bool) (val : Nat → Nat → Val) :
    List Byte × Flags × Nat :=
  let ps := (rowMajor 8).filter fun (k, j) => inside k j
  let nth : Nat → Nat := fun n => (ps.takeWhile fun (k, j) => decide (64 * k + j < n)).length
  let bs := (List.range 32).map fun b => sqBlockOf fmt mode ((List.range 16).map fun n =>
    let k := 4 * (b / 16) + n / 4
    let j := 4 * (b % 16) + n % 4
    if inside k j then some (val k j, if mode = 6 then drainWord s d (d.written + nth (64 * k + j)) else 0) else none)
  ((bs.map fun x => leBytes (sqBytes fmt) x.1).flatten, joinFlags (bs.map (·.2)), ps.length)

/-- Element writes of one beat to a dense tile (R236): cells by address. -/
def denseCells (e : Entry) (d : Drain) (zs : List ((Nat × Nat) × Nat)) : List (Nat × List Byte) :=
  zs.map fun ((i, j), z) => (d.destFrame + e.elem * (64 * i + j), leBytes e.elem z)

/-- One drain beat's results (R218, R236): the drain gone on, its pending results (landing 10 steps later), mass adds and how many
free words it took. i runs over the eight rows of the beat; fld: the field of the drain's tile. -/
def drainBeat (fld : Nat) (s : State) (st : Strand) (d : Drain) : Drain × List Pending × List MassAdd :=
  let c := d.fcfg
  let b := st.av[d.acc]?.getD zeroBank
  let due := d.issue + d.beat + 10
  let first := d.row + 8 * d.beat
  let rows := (List.range 8).map fun k => first + k
  let sq : Nat → Nat := fun n => (st.regs.sqlen[n]?.getD 0).toNat
  let cap := match s.entryOf st.launch (cfgField c 4 58 6) with | some e => e.ext 0 | none => 0
  let rs := rows.map fun i => rowStages s (fun sl => s.recordKey fld st.asid d.maskFrame sl false) d b cap (sq (cfgMask c % 4)) i
  let ys := (rs.map fun r => r.1.toArray).toArray
  let ints := b.tag == 3
  let direct := directInts c ints
  let val : Nat → Nat → Val := fun k j =>
    if direct then ofInteger (signedOf 32 (b.elems[64 * (first + k) + j]?.getD 0).toNat) else val32 ((ys.getD k #[]).getD j 0)
  let stageFlags : Flags := if direct then 0 else joinFlags (rs.map fun r => r.2.2.2)
  let mask : Word := BitVec.ofNat 64 ((rows.map fun i => 2 ^ i).sum)
  let side : Nat → (Nat → Nat) → List Pending := fun n f =>
    [⟨due, d.order, .v n 7 mask (lanesOf fun l => BitVec.ofNat 32 (f (l - first)))⟩]
  let maxes := if cfgMaxen c then side (cfgField c 4 38 5) (fun k => (rs.map fun r => r.2.1).getD k 0) else []
  let sums := if cfgSumen c then side (cfgField c 4 33 5) (fun k => (rs.map fun r => r.2.2.1).getD k 0) else []
  let fmt := cfgOut c
  let mode := cfgMode c
  let flagItem : Flags → List Pending := fun f => if stageFlags ||| f = 0 then [] else [⟨due, d.order, .flags (stageFlags ||| f)⟩]
  let next := { d with beat := d.beat + 1 }
  match cfgKind c with
  | 0 => (next, maxes ++ sums ++ flagItem 0, [])
  | 1 =>
    let retag : List Pending := if d.beat = 0 then [⟨due, d.order, .ttag (cfgDt c) (BitVec.ofNat 4 fmt)⟩] else []
    if isSq fmt || mode != 5 then
      let (bs, f) := convertRows fmt mode direct 8 val (fun k => drainWord s d (512 * d.beat + k))
      let off := if isSq fmt then first / 4 * 16 * sqBytes fmt else first * 64 * elemBytes fmt
      (next, retag ++ ⟨due, d.order, .tpart (cfgDt c) off bs⟩ :: (maxes ++ sums ++ flagItem f), [])
    else
      let (zs, p, e) := convertStream fmt mode direct d.written d.err ((rowMajor 8).map fun (k, j) => (val k j, 0))
      let bs := (zs.map fun z => leBytes (elemBytes fmt) z.1).flatten
      ({ next with written := p, err := e },
        retag ++ ⟨due, d.order, .tpart (cfgDt c) (first * 64 * elemBytes fmt) bs⟩ ::
          (maxes ++ sums ++ flagItem (joinFlags (zs.map (·.2)))), [])
  | 2 =>
    match s.entryOf st.launch (cfgDh c) with
    | none => (next, maxes ++ sums, [])
    | some e =>
      let inside : Nat → Nat → Bool := fun i j => e.inside (d.destRow + i) (d.destCol + j)
      if e.kind = 1 then
        -- BMZ (R77): two row groups a beat, behind the groups written so far
        let t : TReg × Flags × Nat × Val :=
          if isSq fmt then
            let (bs, f, n) := sqCut s d fmt mode (fun k j => inside (first + k) j) val
            (tileOf (BitVec.ofNat 4 fmt) bs, f, d.written + n, d.err)
          else
            let ps := (rowMajor 8).filter fun (k, j) => inside (first + k) j
            let (zs, p, er) := convertStream fmt mode direct d.written d.err
              ((ps.zip (List.range ps.length)).map fun ((k, j), n) => (val k j, drainWord s d (d.written + n)))
            let found := ps.zip (zs.map (·.1))
            let bits := (rowMajor 8).map fun kj => match found.find? fun x => x.1 == kj with | some x => x.2 | none => 0
            (tileOf (BitVec.ofNat 4 fmt) ((bits.map (leBytes (elemBytes fmt))).flatten), joinFlags (zs.map (·.2)), p, er)
        let (tile, f, p, er) := t
        let grp : Nat → List Byte := fun g =>
          pad16 (sqHeads tile g ++ ((List.range 4).map fun r => packRow fmt ((List.range 64).map (fieldBits tile (4 * g + r)))).flatten)
        let g0 := grp 0
        let g1 := grp 1
        let items : List Pending :=
          [⟨due, d.order, .mem (d.destFrame + 4 * d.beat) (leBytes 2 d.offset ++ leBytes 2 (d.offset + g0.length))⟩,
           ⟨due, d.order, .mem (d.destFrame + d.offset) (g0 ++ g1)⟩]
        ({ next with offset := d.offset + g0.length + g1.length, written := p, err := er }, items ++ maxes ++ sums ++ flagItem f, [])
      else if isSq fmt then
        let (bs, f, w) := sqCut s d fmt mode (fun k j => inside (first + k) j) val
        let n := sqBytes fmt
        let blocks := (List.range 32).filter fun x => inside (first + 4 * (x / 16)) (4 * (x % 16))
        let items := blocks.map fun x =>
          (⟨due, d.order, .mem (d.destFrame + ((first / 4) * 16 + x) * n) ((bs.drop (x * n)).take n)⟩ : Pending)
        ({ next with written := d.written + w }, items ++ maxes ++ sums ++ flagItem f, [])
      else
        let ps := (rowMajor 8).filter fun (k, j) => inside (first + k) j
        let (zs, p, er) := convertStream fmt mode direct d.written d.err
          ((ps.zip (List.range ps.length)).map fun ((k, j), n) => (val k j, drainWord s d (d.written + n)))
        let cells := denseCells e d ((ps.map fun (k, j) => (first + k, j)).zip (zs.map (·.1)))
        ({ next with written := p, err := er },
          (cells.map fun (a, bs) => (⟨due, d.order, .mem a bs⟩ : Pending)) ++ maxes ++ sums ++ flagItem (joinFlags (zs.map (·.2))), [])
  | _ =>
    let s0 := cfgCoord c 0
    let cols := massCols st c
    let ps := ((List.range 8).map fun k => cols.map fun j => (k, j)).flatten
    let (zs, p, er) := convertStream fmt mode direct d.written d.err
      ((ps.zip (List.range ps.length)).map fun ((k, j), n) => (val k j, drainWord s d (d.written + n)))
    let adds := (ps.zip zs).filterMap fun ((_, j), z) => (s.recordKey fld st.asid d.destFrame (s0 + j) true).map fun a =>
      (⟨a + 8, z.1, d.now, d.decay, due, d.order⟩ : MassAdd)
    ({ next with written := p, err := er }, maxes ++ sums ++ flagItem (joinFlags (zs.map (·.2))), adds)

/-- A strand after a beat of a drain drew words: those of a drain at or before the mark are not given back by a rollback (R81, R84). -/
def Strand.countBeat (st : Strand) (d : Drain) (n : Nat) : Strand :=
  if n = 0 then st else { st.countWords n with markConsumed := if d.order ≤ st.markOrder then min (st.markConsumed + n) (2 ^ 32 - 1) else st.markConsumed }

/-- Whether a drain has a beat still to make (R218). -/
def Drain.beatLeft (d : Drain) : Bool := decide (8 * d.beat < d.count)

/-- Whether a drain's next beat is due at step c (R218). -/
def Drain.beatDue (c : Nat) (d : Drain) : Bool := d.issue + d.beat == c && d.beatLeft

/-- The next beat of every drain of a seat that p picks (R218), with the noise words that it draws itself. -/
def drainBeats (q : SeatId) (p : Drain → Bool) (s : State) : State :=
  match s.strandAt q with
  | none => s
  | some st =>
    st.drains.foldl (fun s d =>
      match s.strandAt q with
      | none => s
      | some st =>
        if p d then
          let n := d.beatWords st
          let (ws, own, s) := s.beatDraw q d n
          let st := ((s.strandAt q).getD st).countBeat d n
          let (d', items, adds) := drainBeat (fieldOf q.tile) s st { d with words := d.words ++ ws, own := own }
          let s := s.putStrand q { st with drains := st.drains.map (fun x => if x == d then d' else x), pend := st.pend ++ items,
                                           adds := st.adds ++ adds }
          if d'.beatLeft then s else s.logBeats q d'
        else s) s

/-- The beats due at a seat's step. -/
def drainStep (q : SeatId) (s : State) : State :=
  match s.strandAt q with
  | none => s
  | some st => drainBeats q (Drain.beatDue st.clk) s

/-- Drains with no beat left are gone (R218). -/
def Strand.dropDrains (st : Strand) : Strand := { st with drains := st.drains.filter Drain.beatLeft }

/-- One mass add performed at its slot's home (R120, R135); TB lands with its beat. -/
def massOne (q : SeatId) (s : State) (m : MassAdd) : State :=
  let (w, f) := stampedAdd (s.natAt m.addr 8) m.value m.decay m.now
  let s := s.putNat m.addr 8 w
  match s.strandAt q with
  | none => s
  | some st =>
    let st := { st with adds := st.adds.erase m }
    s.putStrand q (if f = 0 then st else { st with pend := st.pend ++ [⟨m.due, m.order, .flags f⟩] })

/-- Whether a mass add waits for a pass that asked about its page before it was sent (R138). -/
def State.massHeld (s : State) (m : MassAdd) : Bool :=
  s.cmds.any fun c => (c.frames.any fun (a, n) => decide (a ≤ m.addr) && decide (m.addr < a + n)) && !c.adds.contains m

/-- The mass adds of a seat that p picks performed, but those that wait for a pass. -/
def massSome (q : SeatId) (p : MassAdd → Bool) (s : State) : State :=
  match s.strandAt q with
  | none => s
  | some st => (st.adds.filter fun m => p m && !s.massHeld m).foldl (massOne q) s

/-- Every mass add that the seat's beats have sent, performed (R135). -/
def massAll (q : SeatId) (s : State) : State := massSome q (fun _ => true) s

/-- Every mass add of a seat whose strand ends, performed, those that wait for a pass too: nothing is left to hold them
(notes/assumptions/13.md). -/
def massEnd (q : SeatId) (s : State) : State :=
  match s.strandAt q with
  | none => s
  | some st => st.adds.foldl (massOne q) s

/-- Every mass add of the seat that must have been answered by its step (R290). -/
def massDue (q : SeatId) (c : Nat) (s : State) : State := massSome q (fun m => decide (m.due ≤ c)) s

/-- The key page of s0 for a mask, which reads its records, or a mass drain, which writes them (R124, R135, R235), in any tile's slice: the
entry and the frame's global address. -/
def State.keyPage (s : State) (st : Strand) (h s0 : Nat) (write : Bool) : Except Trap (Entry × Nat) :=
  match s.entryOf st.launch h with
  | none => .error (notLocal 0xFFFF)
  | some e =>
    if e.kind ≠ 3 then .error (formatTrap 0x200)
    else match s.stmFind s.cur.tile st.asid e.base (s0 / 256) with
      | none => .error { cause := 0x07, arg := s0 / 256 }
      | some m =>
        if [s0, s0 + 63].all fun sl => (s.recordKey (fieldOf s.cur.tile) st.asid m.frame sl write).isSome then .ok (e, m.frame)
        else .error { cause := 0x06, arg := m.frame % 2 ^ 32, faddr := m.frame }

/-- The pages that a drain's configuration names looked up now (R126): the mask's and a mass drain's. -/
def State.touchKeys (s : State) (st : Strand) : State :=
  let c := st.regs.fcfg
  let look : Nat → Nat → State → State := fun h s0 s => match s.entryOf st.launch h with
    | some e => s.stmTouch s.cur.tile st.asid e.base (s0 / 256)
    | none => s
  let s := if cfgMen c then look (cfgField c 4 58 6) (maskS0 (cfgMask c)) s else s
  if cfgKind c = 3 then look (cfgDh c) (cfgCoord c 0) s else s

/-- The destination tile of a drain to a local tensor (R235): frame, first row and column. -/
def State.drainDest (s : State) (st : Strand) (c : Vector Word 5) (row count : Nat) : Except Trap (Nat × Nat × Nat) :=
  let h := cfgDh c
  match s.entryOf st.launch h with
  | none => .error (notLocal 0xFFFF)
  | some e =>
    if !((e.kind == 0 && !cfgBmz c) || (e.kind == 1 && cfgBmz c)) || e.fmt != cfgOut c then .error (formatTrap 0x200)
    else if cfgBmz c && (row != 0 || count != 64) then .error (formatTrap 0x200)
    else match e.rowCol ((List.range e.rank).map (cfgCoord c)) 0 with
      | none => .error (notLocal 0xFFFF)
      | some (plane, r, col) =>
        if r % 64 ≠ 0 ∨ col % 64 ≠ 0 ∨ !e.inside r col then .error (notLocal 0xFFFF)
        else
          let k := e.tileNumber plane r col
          match e.owner s.cur.tile k with
          | none => .error (notLocal 0xFFFF)
          | some o =>
            if o ≠ s.cur.tile then .error (notLocal o)
            else if e.ronly || h == 0 then .error (privilegeTrap (0x300 + h))
            else if e.pageable then
              let (code, fr) := s.pageState e o k
              if code ≠ 0 then .error (s.residencyTrap o h e k code)
              else if 0x800000 < fr + e.tileUse then .error (notLocal 0xFFFF) else .ok (sliceAddr o fr, r, col)
            else .ok (sliceAddr o (e.frame k), r, col)

/-- Whether a drain's configuration names a destination that makes its MDRAIN a mark (R212). -/
def drainMarks (c : Vector Word 5) : Bool := cfgKind c == 2 || cfgKind c == 3

/-- The noise words that an SR drain takes at its issue: one for each element it writes (R76, R236); the beats of a mass drain draw their own
(notes/assumptions/10.md). -/
def State.drainWords (s : State) (st : Strand) (c : Vector Word 5) (row count destRow destCol : Nat) : Nat :=
  if cfgMode c ≠ 6 then 0
  else match cfgKind c with
    | 0 => 0
    | 1 => 64 * count
    | 2 => match s.entryOf st.launch (cfgDh c) with
      | some e => ((rowMajor count).filter fun (i, j) => e.inside (destRow + row + i) (destCol + j)).length
      | none => 0
    | _ => 0

/-- The checks of R235 in its table's order, and the drain they admit. -/
def State.startDrain (s : State) (st : Strand) (a row count : Nat) : Except Trap Drain :=
  let c := st.regs.fcfg
  let b := st.av[a]?.getD zeroBank
  let v : Nat → VReg := fun n => st.regs.v[n]?.getD zeroV
  let vs := cfgField c 4 53 5
  let vb := cfgField c 4 48 5
  let vq := cfgField c 4 43 5
  let kind := cfgKind c
  let fmt := cfgOut c
  let badTag : Nat → Bool := fun n => !((v n).tag == 3 || (v n).tag == 4)
  let seqOf : Nat → Nat → Bool → Except Trap (Entry × Nat) := fun h s0 => s.keyPage st h s0
  if b.tag ≠ 7 ∧ b.tag ≠ 3 then .error (formatTrap (0x230 + a))
  else if cfgSen c && (v vs).tag != 7 then .error (formatTrap (0x210 + vs))
  else if cfgSen c && cfgBen c && (v vb).tag != 7 then .error (formatTrap (0x210 + vb))
  else if cfgMen c && badTag vq then .error (formatTrap (0x210 + vq))
  else if cfgMen c && badTag (vq + 1) then .error (formatTrap (0x210 + (vq + 1)))
  else
    let mask : Except Trap Nat :=
      if cfgMen c then match seqOf (cfgField c 4 58 6) (maskS0 (cfgMask c)) false with | .ok (_, f) => .ok f | .error t => .error t
      else .ok 0
    match mask with
    | .error t => .error t
    | .ok mf =>
      let base : Drain :=
        { acc := a, row := row, count := count, issue := st.clk, order := st.order, beat := 0, fcfg := c, vs := v vs, vb := v vb,
          vq := v vq, vgroup := v (vq + 1), maskFrame := mf, destFrame := 0, destRow := 0, destCol := 0, words := [],
          live := decide (kind = 3 ∧ cfgMode c = 6), logged := 0, own := none,
          now := s.stepOf st.asid, decay := 0, written := 0, err := .num false 0 0, offset := 32 }
      match kind with
      | 0 => .ok base
      | 1 => if fmt = 0 ∨ fmt = 3 ∨ fmt = 4 ∨ fmt = 7 ∨ cfgBmz c then .error (formatTrap 0x200) else .ok base
      | 2 =>
        if fmt = 0 then .error (formatTrap 0x200)
        else match s.drainDest st c row count with
          | .error t => .error t
          | .ok (f, r, col) => .ok { base with destFrame := f, destRow := r, destCol := col }
      | _ =>
        if fmt ≠ 7 ∨ cfgBmz c then .error (formatTrap 0x200)
        else match seqOf (cfgDh c) (cfgCoord c 0) true with
          | .error t => .error t
          | .ok (e, f) =>
            let decay := match s.translate (fieldOf s.cur.tile) st.asid e.base false with
              | some h => (s.seqHeader h).decay
              | none => 0
            .ok { base with destFrame := f, decay := decay }

end Sys2Proof.Machine
end

