-- ==== Sys2Proof/Machine/Teams.lean ====
section
/-!
DEFINITION. The record and container pools (R25, R366), continuation records (R24), launches' strand
counts (R38), watches (R28) and the binding of strands to tiles (R56).
-/

namespace Sys2Proof.Machine

/-- The physical key of a team's record for a tile's accesses (R30). -/
def State.teamAddr (s : State) (tile asid t : Nat) : Option Nat := s.translate (fieldOf tile) asid (t * 64) true

/-! ### Pools -/

/-- A pool header (R25, R366): base, count, bitmap, the physical key of SHORT; none when invalid. A count that is no multiple of 64 and a header
that does not translate are the model's choices (notes/assumptions/63.md). -/
def State.pool (s : State) (asid hdr : Nat) : Option (Nat × Nat × Nat × Nat) :=
  if hdr = 0 then none
  else match s.translate 0 asid hdr true with
    | none => none
    | some a =>
      let base := s.natAt a 8
      let n := s.natAt (a + 8) 4
      let bmap := s.natAt (a + 16) 8
      if s.natAt (a + 12) 4 ≠ 0 ∨ (List.range 4).any (fun k => s.natAt (a + 32 + 8 * k) 8 != 0) ∨ n = 0 ∨ n % 64 ≠ 0
          ∨ base % 64 ≠ 0 ∨ bmap % 8 ≠ 0 then none
      else some (base, n, bmap, a + 24)

/-- The lowest clear bit of a bitmap of n bits at a global address, word by word with fuel; none at a word that does not translate for a write
(notes/assumptions/63.md): its bit could not be set, and the entry would be given to two. -/
def State.lowestClear (s : State) (asid bmap n : Nat) : Nat → Nat → Option Nat
  | 0, _ => none
  | fuel + 1, k =>
    if n ≤ 64 * k then none
    else match s.translate 0 asid (bmap + 8 * k) true with
      | none => none
      | some a =>
        let w := s.natAt a 8
        let i := lowestSet 64 (2 ^ 64 - 1 - w)
        if i < 64 then some (64 * k + i) else s.lowestClear asid bmap n fuel (k + 1)

/-- Bit k of a bitmap set or cleared at its home. -/
def State.putBit (s : State) (asid bmap k : Nat) (b : Bool) : State :=
  match s.translate 0 asid (bmap + 8 * (k / 64)) true with
  | none => s
  | some a =>
    let w := s.natAt a 8
    s.putNat a 8 (if w.testBit (k % 64) == b then w else if b then w + 2 ^ (k % 64) else w - 2 ^ (k % 64))

/-- The outcome of a claim (R25, R366): an invalid pool, one that is short (SHORT counted), or entry k claimed. -/
inductive Claim where
  | invalid
  | short (s : State)
  | got (k base : Nat) (s : State)

/-- SHORT of the pool whose header has a global address counts one, at its physical key (R25, R366); an overflow is reported (R144). -/
def State.countShort (s : State) (asid hdr key : Nat) : State :=
  match s.counterAdd key 1 with
  | (s, _, false) => s
  | (s, _, true) => s.event asid 0x0B 0xFF 0 0 (hdr + 24) 0 0

/-- The entries of a pool whose bits are clear, or set, by their global addresses: size is 64 bytes for records, 256 KiB for frames. A word of the
bitmap that cannot be read counts as all ones, and its entries as neither. -/
def State.poolEntries (s : State) (asid hdr size : Nat) (bit : Bool) : List Nat :=
  match s.pool asid hdr with
  | none => []
  | some (base, n, bmap, _) => (List.range n).filterMap fun k => match s.wordGlobal 0 asid (bmap + 8 * (k / 64)) with
    | some w => if w.testBit (k % 64) == bit then some (base + size * k) else none
    | none => none

/-- The lowest clear entry of a pool claimed (R25, R366). -/
def State.claim (s : State) (asid hdr : Nat) : Claim :=
  match s.pool asid hdr with
  | none => .invalid
  | some (base, n, bmap, short) =>
    match s.lowestClear asid bmap n (n / 64 + 1) 0 with
    | none => .short (s.countShort asid hdr short)
    | some k => .got k base (s.putBit asid bmap k true)

/-- A container frame of an identifier claimed (R366): an invalid pool gives none, as if no bit were clear, and SHORT of its header, where it has one,
counts that too. -/
def State.claimFrame (s : State) (asid : Nat) : Claim :=
  let hdr := s.idRecord asid 4
  match s.claim asid hdr with
  | .invalid => .short (if hdr = 0 then s else match s.translate 0 asid (hdr + 24) true with
    | some a => s.countShort asid hdr a
    | none => s)
  | c => c

/-- An entry freed by its address: size is 64 bytes for records, 256 KiB for frames (R25, R366). -/
def State.release (s : State) (asid hdr size addr : Nat) : State :=
  match s.pool asid hdr with
  | none => s
  | some (base, _, bmap, _) => if addr < base then s else s.putBit asid bmap ((addr - base) / size) false

/-- The record of a strand freed (R25). -/
def State.freeRecord (s : State) (asid rec_ : Nat) : State := s.release asid (s.idRecord asid 8) 64 rec_

/-- The key of an identifier's container frame among the saved strands: frames of two identifiers may have one global address (R366). -/
def savedKey (asid frame : Nat) : Nat := asid * 2 ^ 64 + frame

/-- The strand that a container frame of an identifier holds. -/
def State.savedAt (s : State) (asid frame : Nat) : Option Strand := assocFind (savedKey asid frame) s.saved

/-- A container frame freed (R366). -/
def State.freeFrame (s : State) (asid frame : Nat) : State :=
  { s with saved := assocDrop (savedKey asid frame) s.saved }.release asid (s.idRecord asid 4) 262144 frame

/-! ### Launches -/

/-- Word k of a descriptor (R34). -/
def Launch.word (l : Launch) (k : Nat) : Nat := (l.words[k]?.getD 0).toNat
/-- n = EX·EY·EZ (R36). -/
def Launch.count (l : Launch) : Nat := l.word 1 % 2 ^ 32 * (l.word 1 / 2 ^ 32) * (l.word 2 % 2 ^ 32)
/-- TSIZE (R34). -/
def Launch.tsize (l : Launch) : Nat := l.word 2 / 2 ^ 32 % 2 ^ 16
/-- GANG (R34). -/
def Launch.gang (l : Launch) : Bool := (l.word 2).testBit 58
/-- DRAW (R34). -/
def Launch.draw (l : Launch) : Nat := l.word 2 / 2 ^ 56 % 4
/-- TBASE (R34). -/
def Launch.tbase (l : Launch) : Nat := l.word 5 % 2 ^ 32

/-- The launch of an id changed. -/
def State.mapLaunch (s : State) (id : Nat) (f : Launch → Launch) : State :=
  { s with launches := s.launches.map fun l => if l.id == id then f l else l }

/-- Whether a launch binds its strands to tiles (R56, R57, R128): a slice-homed entry other than H0 (GSHARED ones apart for a
gang), or a sequence entry. -/
def State.binds (s : State) (l : Launch) : Bool :=
  match s.imageOf l.id with
  | none => false
  | some i => i.table.any fun (h, e) =>
      (h != 0 && Entry.kind e != 15 && Entry.kind e != 3 && Entry.map e != 3 && !(l.gang && Entry.gshared e)) || Entry.kind e == 3

/-- The tile that a launch's map gives strand i, none under map 0 (R56) and where H0 is absent, which is the model's choice
(notes/assumptions/89.md). -/
def State.mapTile (s : State) (l : Launch) (i : Nat) : Option Nat :=
  match s.tableEntryOf l.id 0 with
  | none => none
  | some e => if e.map = 0 then none else e.ownerTile 0 (i % e.owners)

/-! ### Watches and the ready queues -/

/-- Watch entries of a tile: one for each counter watched (R28). -/
def State.watchEntries (s : State) (tile : Nat) : Nat :=
  ((s.watches.filter fun w => w.armed && s.watchHome w.addr == tile).map (·.addr)).eraseDups.length

/-- Whether a watch on a counter finds a table entry: its counter's, or a free one of 256 (R9, R28). -/
def State.watchRoom (s : State) (addr : Nat) : Bool :=
  s.watches.any (fun w => w.armed && w.addr == addr) || decide (s.watchEntries (s.watchHome addr) < 256)

/-- A field changed. -/
def State.mapField (s : State) (f : Nat) (g : Field → Field) : State :=
  { s with fields := s.fields.setIfInBounds f (g (s.fields[f]?.getD fieldOff)) }

/-- A strand put at the back of its field's ready queue (R41). -/
def State.enqueue (s : State) (f : Nat) (r : Ready) : State :=
  { s.mapField f (fun d => { d with ready := d.ready ++ [{ r with since := s.tick }] }) with tick := s.tick + 1 }

/-- A watch added (R28, R325). -/
def State.addWatch (s : State) (addr target : Nat) (w : Waiter) (armed : Bool) : State :=
  { s with watches := s.watches ++ [⟨s.nextId, addr, target, w, armed⟩], nextId := s.nextId + 1 }

/-- The record of R24 as bytes. -/
def recordBytes (pc waddr wtgt x2 x3 x4 team asid flags pred pri draw : Nat) : List Byte :=
  leBytes 8 pc ++ leBytes 8 waddr ++ leBytes 8 wtgt ++ leBytes 8 x2 ++ leBytes 8 x3 ++ leBytes 8 x4 ++ leBytes 4 team ++
    leBytes 2 asid ++ leBytes 2 flags ++ leBytes 2 pred ++ leBytes 1 pri ++ leBytes 1 draw ++ leBytes 4 0

/-- The strand's record written with a flags word (R24, R27, R44). -/
def State.writeRecord (s : State) (st : Strand) (pc waddr wtgt flags : Nat) : State :=
  let bs := recordBytes pc waddr wtgt (st.regs.xAt 2).toNat (st.regs.xAt 3).toNat (st.regs.xAt 4).toNat st.team st.asid flags
    st.predWord.toNat st.pri st.draw
  (s.writeGlobal 0 st.asid st.recAddr bs).getD s

/-- Flag bits GANG and SERVICE of a strand's record (R24). -/
def Strand.recFlags (st : Strand) : Nat := (if st.gang then 2 else 0) + (if st.service then 8 else 0)

/-- Whether a strand of a launch stays on its tile (R56): the launch binds its strands, or H0's map names their tiles; a gang that its GSHARED
entries leave unbound may move (R57). -/
def State.staysOn (s : State) (l : Launch) : Bool :=
  s.binds l || match s.imageOf l.id with
    | none => false
    | some i => (match assocFind 0 i.table with | some e => decide (Entry.map e = 1 ∨ Entry.map e = 2) | none => false) &&
        !(l.gang && i.table.any fun (_, e) => Entry.gshared e)

/-- Whether a team identifier names a gang team, as a record placed on field f finds it (R30, R31). -/
def State.gangTeam (s : State) (f asid team : Nat) : Bool :=
  team != 0xFFFFFFFF && (match s.translate f asid (team * 64) false with | some a => (s.teamAt a).gang | none => false)

/-- The ready-queue item of a strand on a tile (R41, R56): one that has joined a gang team is queued as a member of it (R31, R33). -/
def State.readyItem (s : State) (st : Strand) (tile : Nat) : Ready :=
  let bound := match s.launchOf st.launch with
    | some l => if s.staysOn l then some tile else none
    | none => none
  { record := st.recAddr, asid := st.asid, launch := st.launch, since := s.tick, aged := 0, bound := bound, named := st.named,
    gang := if st.gang || s.gangTeam (fieldOf tile) st.asid st.team then some st.team else none }

/-- The strand of a seat ends (R29, R341): it leaves its team, after its own team operations on their way, its record is freed, its launch counts it, the seat is free. -/
def State.endStrand (s : State) (q : SeatId) (st : Strand) : State :=
  let s := if st.team = 0xFFFFFFFF then s
    else match s.teamAddr q.tile st.asid st.team with
      | some a =>
        let (s, full) := { { s with cur := q }.settleWords st [(a, 32)] with cur := s.cur }.leaveTeam a
        if full then s.event st.asid 0x0B 0xFF q.tile (st.recAddr / 64) (st.team * 64) 0 0 else s
      | none => s
  let s := s.freeRecord st.asid st.recAddr
  (s.mapLaunch st.launch fun l => { l with exited := l.exited + 1 }).freeSeat q

end Sys2Proof.Machine
end

