-- ==== Sys2Proof/Machine/Container.lean ====
section
/-!
DEFINITION. Context containers: the frame's bytes (R345 to R347, R367), reading the sections that a handler may change, and the
checks at resumption.
-/

namespace Sys2Proof.Config

/-- The strand that a container saved by another part holds (R45): the sections whose layouts are that part's own stepping's are not given
(R367), so all but what the container's described sections and the strand's record say is free. -/
opaque carriedStrand : List (BitVec 8) → Option Machine.Strand

/-- The tile of a bound strand that another part saved or parked, by its record's bytes (R56, R363): the record gives none. -/
opaque carriedTile : List (BitVec 8) → Nat

/-- What a gang-shared container saved by another part holds besides its bytes (R57, R346): the STRANDIDs of the members that ran on its tile, and
the slice offsets of the bytes; no rule gives them. -/
opaque carriedShare : List (BitVec 8) → List Nat × List Nat

/-- Whether a firmware image's upgrade table accepts a section by ID and VERSION (R347, R364); no rule gives the table of an image that was
written to flash. -/
opaque tableAccepts : List (BitVec 8) → Nat → Nat → Bool

end Sys2Proof.Config

namespace Sys2Proof.Machine

/-- A 256 KiB region written in one pass: the cells below, the nonzero bytes, the cells above. -/
def memFill (m : Memory) (a : Nat) (bs : List Byte) : Memory :=
  (m.takeWhile fun c => decide (c.1 < a)) ++ (((List.range bs.length).map (a + ·)).zip bs).filter (fun c => c.2 != 0) ++
    (m.dropWhile fun c => decide (c.1 < a + bs.length))

/-- A region written in one pass; its words lose their poison (R343). -/
def State.fillPhys (s : State) (a : Nat) (bs : List Byte) : State :=
  { s with mem := memFill s.mem a bs, poison := s.poison.filter fun w => !coveredWords a bs.length w }

/-- Bytes written at a global address page by page, with fuel; a page that is not writable is passed over. -/
def State.fillGlobal (s : State) (asid : Nat) : Nat → Nat → List Byte → State
  | 0, _, _ => s
  | fuel + 1, va, bs =>
    if bs.isEmpty then s
    else
      let n := 65536 - va % 65536
      let s' := match s.translate 0 asid va true with
        | some a => s.fillPhys a (bs.take n)
        | none => s
      State.fillGlobal s' asid fuel (va + n) (bs.drop n)

/-- n bytes at a global address page by page; a byte that cannot be read is 0. -/
def State.copyGlobal (s : State) (asid : Nat) : Nat → Nat → Nat → List Byte
  | 0, _, _ => []
  | fuel + 1, va, n =>
    if n = 0 then []
    else
      let k := min n (65536 - va % 65536)
      (match s.translate 0 asid va false with
        | some a => s.readPhys a k
        | none => List.replicate k 0) ++ s.copyGlobal asid fuel (va + k) (n - k)

/-- A section header (R345). -/
def sectionHead (id len : Nat) : List Byte := leBytes 2 id ++ leBytes 2 1 ++ leBytes 4 len ++ List.replicate 8 0

/-- A section with its payload padded to 16 bytes (R345). -/
def sectionBytes (id : Nat) (bs : List Byte) : List Byte :=
  sectionHead id bs.length ++ bs ++ List.replicate ((16 - bs.length % 16) % 16) 0

/-- Free bytes of a section whose layout is the stepping's own (R367, notes/assumptions/11.md). -/
def ownBytes (n from_ len : Nat) : List Byte := (List.range len).map fun k => Config.sectionByte n (from_ + k)

/-- VEC (R367). -/
def vecBytes (r : Regs) : List Byte :=
  ((r.v.toList.map fun v => (v.lanes.toList.map fun x => leBytes 4 x.toNat).flatten).flatten) ++
    r.v.toList.map fun v => BitVec.ofNat 8 v.tag.toNat

/-- Bytes of a T register that a tile of its tag uses (R367); RAW, which no tile has, uses all. -/
def tileArea (tag : BitVec 4) : Nat := if tag = 0 then 8192 else tileBytes tag.toNat

/-- TILE (R367): bytes beyond those of the tag's tile are zero. -/
def tileSection (st : Strand) : List Byte :=
  (st.t.toList.map fun t => t.bytes.toList.take (tileArea t.tag) ++ List.replicate (8192 - tileArea t.tag) 0).flatten ++ (st.t.toList.map fun t => BitVec.ofNat 8 t.tag.toNat) ++ List.replicate 56 0

/-- The bytes of a bank. -/
def bankBytes (b : Bank) : List Byte := (b.elems.toList.map fun x => leBytes 4 x.toNat).flatten

/-- ACC (R367). -/
def accBytes (st : Strand) : List Byte :=
  ((st.aw.toList.zip st.av.toList).map fun (w, v) => bankBytes w ++ bankBytes v).flatten ++
    ((st.aw.toList.zip st.av.toList).map fun (w, v) => [BitVec.ofNat 8 w.tag.toNat, BitVec.ofNat 8 v.tag.toNat]).flatten

/-- SPILL (R367). -/
def spillBytes (r : Regs) : List Byte :=
  ((r.spill.toList.map fun x => leBytes 8 x.toNat).flatten) ++
    (List.range 256).map fun k => BitVec.ofNat 8 ((r.spillTag[2 * k]?.getD 0).toNat + 16 * (r.spillTag[2 * k + 1]?.getD 0).toNat)

/-- The sections of a container in ID order (R346). -/
def containerSections (n : Nat) (st : Strand) : List (List Byte) :=
  [sectionBytes 1 (((0 :: (st.regs.x.toList.drop 1)).map fun x => leBytes 8 x.toNat).flatten ++ ownBytes n 512 512),
   sectionBytes 2 (vecBytes st.regs), sectionBytes 3 (tileSection st), sectionBytes 4 (accBytes st), sectionBytes 5 (spillBytes st.regs),
   sectionBytes 6 (if st.slatch == .empty && st.glatch == none then [] else ownBytes n 1024 16656),
   sectionBytes 7 (ownBytes n 17680 128),
   sectionBytes 8 (if st.pend.isEmpty && st.drains.isEmpty then [] else ownBytes n 17808 (min 32768 (64 * (st.pend.length + 8 * st.drains.length)))),
   sectionBytes 9 (ownBytes n 50576 256)]

/-- The container of a strand (R345): STATE 0 pre-empted, 1 trapped. -/
def containerBytes (n : Nat) (st : Strand) (code : Nat) : List Byte :=
  let body := (containerSections n st).flatten
  leBytes 4 0x6378 ++ leBytes 2 1 ++ leBytes 2 0x00A0 ++ leBytes 2 st.asid ++ leBytes 2 9 ++ leBytes 4 (64 + body.length) ++
    leBytes 1 code ++ List.replicate 7 0 ++ leBytes 8 (st.recAddr / 64) ++ leBytes 4 st.team ++ List.replicate 28 0 ++ body

/-- A strand saved into a frame (R345): the container's bytes in memory, the full state kept by its identifier and address. -/
def State.saveStrand (s : State) (frame : Nat) (st : Strand) (code : Nat) : State :=
  let s := s.fillGlobal st.asid 6 frame (containerBytes s.fresh st code)
  { s with saved := assocPut (savedKey st.asid frame) st s.saved, fresh := s.fresh + 1 }

/-- The byte offsets of the sections' headers, walked by their LENGTH fields: (id, version, payload offset), with fuel. -/
def walkSections (at_ : Nat → Byte) : Nat → Nat → List (Nat × Nat × Nat)
  | 0, _ => []
  | n + 1, o =>
    let nat : Nat → Nat → Nat := fun p k => leNat ((List.range k).map fun i => at_ (p + i))
    (nat o 2, nat (o + 2) 2, o + 16) :: walkSections at_ n (o + 16 + ceilDiv (nat (o + 4) 4) 16 * 16)

/-- The header and section checks of a resumption (R341, R345, R347): this stepping carries (1..9, version 1). -/
def containerOk (at_ : Nat → Byte) : Bool :=
  let nat : Nat → Nat → Nat := fun p k => leNat ((List.range k).map fun i => at_ (p + i))
  nat 0 4 == 0x6378 && nat 4 2 == 1 && nat 10 2 == 9 &&
    (walkSections at_ 9 64).map (fun x => (x.1, x.2.1)) == (List.range 9).map (fun k => (k + 1, 1))

/-- Four bytes as a lane. -/
def laneAt (at_ : Nat → Byte) (o : Nat) : Lane := BitVec.ofNat 32 (leNat ((List.range 4).map fun i => at_ (o + i)))

/-- Eight bytes as a word. -/
def wordAt (at_ : Nat → Byte) (o : Nat) : Word := BitVec.ofNat 64 (leNat ((List.range 8).map fun i => at_ (o + i)))

/-- The strand with the payloads of CORE 0-511, VEC, TILE, ACC and SPILL as the container now holds them (R341, R367). Bytes of a T register that
its tag does not use are not in the container and stay (R236). -/
def restoreSections (at_ : Nat → Byte) (st : Strand) : Strand :=
  let core := 80
  let vec := 1120
  let tile := 9360
  let acc := 74976
  let spill := 206080
  let tagAt : Nat → BitVec 4 := fun o => BitVec.ofNat 4 (at_ o).toNat
  { st with
    regs := { st.regs with
      x := Vector.ofFn fun i : Fin 64 => if i.val = 0 then 0 else wordAt at_ (core + 8 * i.val)
      v := Vector.ofFn fun i : Fin 32 => ⟨tagAt (vec + 8192 + i.val), lanesOf fun l => laneAt at_ (vec + 256 * i.val + 4 * l)⟩
      spill := Vector.ofFn fun i : Fin 512 => wordAt at_ (spill + 8 * i.val)
      spillTag := Vector.ofFn fun i : Fin 512 => BitVec.ofNat 4 ((at_ (spill + 4096 + i.val / 2)).toNat / 16 ^ (i.val % 2)) }
    t := Vector.ofFn fun i : Fin 8 =>
      let tag := tagAt (tile + 65536 + i.val)
      ⟨tag, Vector.ofFn fun k : Fin 8192 =>
        if k.val < tileArea tag then at_ (tile + 8192 * i.val + k.val) else (st.t[i.val]?.getD zeroT).bytes[k.val]?.getD 0⟩
    aw := Vector.ofFn fun i : Fin 4 => ⟨tagAt (acc + 131072 + 2 * i.val), Vector.ofFn fun k : Fin 4096 => laneAt at_ (acc + 32768 * i.val + 4 * k.val)⟩
    av := Vector.ofFn fun i : Fin 4 => ⟨tagAt (acc + 131073 + 2 * i.val), Vector.ofFn fun k : Fin 4096 => laneAt at_ (acc + 32768 * i.val + 16384 + 4 * k.val)⟩ }

/-- Whether the running firmware's upgrade table accepts a section at version 1 (R347, R364): the part's own carries each of them. -/
def Security.takes (u : Security) (id : Nat) : Bool := u.running.isEmpty || Config.tableAccepts u.running id 1

/-- Whether it accepts sections 1 to 9 at version 1. -/
def Security.accepts (u : Security) : Bool := (List.range 9).all fun k => u.takes (k + 1)

/-- The strand of a frame of an identifier, checked and restored from its container (R341, R347): none when refused. A container that this part
did not save came from another one (R45, notes/assumptions/11.md). -/
def State.restoreStrand (s : State) (asid frame : Nat) : Option Strand :=
  let bytes := s.copyGlobal asid 6 frame 262144
  let bs := bytes.toArray
  let at_ : Nat → Byte := fun o => bs.getD o 0
  if s.security.accepts && containerOk at_ then
    some (restoreSections at_ ((s.savedAt asid frame).getD ((Config.carriedStrand bytes).getD zeroStrand)))
  else none

end Sys2Proof.Machine
end

