-- ==== Sys2Proof/Machine/Spool.lean ====
section
/-!
DEFINITION. Spool nests (R129 to R133): level descriptors, their check, and the position after a template bundle.
-/

namespace Sys2Proof.Machine

/-- The template store of the launch a strand belongs to (R129). -/
def State.templates (s : State) (st : Strand) : Memory := match s.imageOf st.launch with | some i => i.template | none => []

/-- Level l's descriptor of nest d as a 256-bit number (R129). -/
def levelWord (m : Memory) (d l : Nat) : Nat := memNat m (192 * d + 32 * l) 32

/-- Bits [lo + len - 1 : lo] of a level descriptor. -/
def lvField (w lo len : Nat) : Nat := w / 2 ^ lo % 2 ^ len

/-- INNER (R129). -/
def lvInner (w : Nat) : Bool := lvField w 252 1 == 1

/-- Start and length of a section: 0 entry, 1 body, 3 exit (R129). -/
def lvSection (w sec : Nat) : Nat × Nat :=
  match sec with
  | 0 => (lvField w 203 9, lvField w 197 6)
  | 1 => (lvField w 188 9, lvField w 179 9)
  | _ => (lvField w 170 9, lvField w 164 6)

/-- A level descriptor that SPOOL admits (R129); a section of length 0 has its start checked as another has (notes/assumptions/93.md). -/
def levelOk (w l : Nat) : Bool :=
  lvField w 253 3 == 0 && lvField w 88 76 == 0 && !(lvInner w && l == 5) && !(decide (2 ≤ lvField w 250 2) && decide (3 < lvField w 244 6)) &&
    [0, 1, 3].all fun sec => decide ((lvSection w sec).1 + (lvSection w sec).2 ≤ 320)

/-- The first level at or inside l that SPOOL refuses, following INNER, with fuel (R129). -/
def badLevel (m : Memory) (d : Nat) : Nat → Nat → Option Nat
  | 0, _ => none
  | n + 1, l =>
    if 5 < l then none
    else
      let w := levelWord m d l
      if !levelOk w l then some l else if lvInner w then badLevel m d n (l + 1) else none

/-- The trip count of a level, read from the registers as they stand (R129, R130). -/
def tripCount (r : Regs) (w : Nat) : Nat :=
  let sel := lvField w 244 6
  let sq := (r.sqlen[sel]?.getD 0).toNat % 2 ^ 32
  match lvField w 250 2 with
  | 0 => lvField w 212 32
  | 1 => (r.xAt sel).toNat % 2 ^ 32
  | 2 => sq
  | _ => ceilDiv sq 64

/-- The increments of a level applied to the registers (R130): each reads the value old held when the iteration's last bundle
issued, in the register that its number named then (R176), and stands over what that bundle wrote; it lands at the bundle's issue + 1, so a
register of kept, where a later result has landed meanwhile, keeps that result. Of two increments of one register that act at
one bundle, of one level or of two that end together, the later one stands: the model's choice (notes/assumptions/74.md). -/
def applyIncs (w : Nat) (old : Regs) (kept : List Nat) (r : Regs) : Regs :=
  [0, 22, 44, 66].foldl (fun r lo =>
    let f := lvField w lo 22
    let n := f / 2 ^ 16
    if n = 0 ∨ kept.contains (physX old.xrot n) then r else
      { r with x := r.x.setIfInBounds (physX old.xrot n) (old.xAt n + BitVec.ofInt 64 (signedOf 16 f)) }) r

/-- The outcome of settling a nest: the registers, the active levels, whether an empty step is next, and the level that starts before the next
step, once its trip count can be read. -/
structure NestState where
  regs : Regs
  levels : List SpoolLevel
  empty : Bool := false
  start : Option Nat := none

/-- A level pushed when its trip count is not 0 (R130). -/
def pushLevel (m : Memory) (d l : Nat) (r : Regs) (ls : List SpoolLevel) : List SpoolLevel :=
  let n := tripCount r (levelWord m d l)
  if n = 0 then ls else ⟨l, n, 0, 0, 0, false⟩ :: ls

/-- Moves between sections, iterations and levels until a template bundle or an empty step is next (R130), with fuel. now: the next step
is the one that follows, so that a level that starts reads its trip count from the registers as they stand; otherwise the moves end there.
old: the registers at the last bundle's issue; kept: the X registers that results have landed in since. -/
def settle (m : Memory) (d : Nat) (now : Bool) (old : Regs) (kept : List Nat) : Nat → Regs → List SpoolLevel → NestState
  | 0, r, ls => ⟨r, ls, false, none⟩
  | _, r, [] => ⟨r, [], false, none⟩
  | fuel + 1, r, t :: ls =>
    let w := levelWord m d t.level
    let endIteration : Unit → NestState := fun _ =>
      if !t.issued then ⟨r, { t with section_ := 4 } :: ls, true, none⟩
      else
        let r := applyIncs w old kept r
        if t.iter + 1 < t.trips then settle m d now old kept fuel r ({ t with iter := t.iter + 1, section_ := 1, pos := 0, issued := false } :: ls)
        else settle m d now old kept fuel r ({ t with section_ := 3, pos := 0 } :: ls)
    match t.section_ with
    | 0 =>
      if t.pos < (lvSection w 0).2 then ⟨r, t :: ls, false, none⟩
      else settle m d now old kept fuel r ({ t with section_ := 1, pos := 0, issued := false } :: ls)
    | 1 =>
      if t.pos < (lvSection w 1).2 then ⟨r, t :: ls, false, none⟩
      else if lvInner w then
        if now then settle m d now old kept fuel r (pushLevel m d (t.level + 1) r ({ t with section_ := 2 } :: ls))
        else ⟨r, { t with section_ := 2 } :: ls, false, some (t.level + 1)⟩
      else endIteration ()
    | 2 => endIteration ()
    | 3 => if t.pos < (lvSection w 3).2 then ⟨r, t :: ls, false, none⟩ else settle m d now old kept fuel r ls
    | _ =>
      -- the empty step has been taken
      let r := applyIncs w old kept r
      if t.iter + 1 < t.trips then settle m d now old kept fuel r ({ t with iter := t.iter + 1, section_ := 1, pos := 0, issued := false } :: ls)
      else settle m d now old kept fuel r ({ t with section_ := 3, pos := 0 } :: ls)

/-- The address in the template store of the bundle a nest is at (R129). -/
def Spool.bundleAt (m : Memory) (sp : Spool) : Nat :=
  match sp.levels with
  | t :: _ => 3072 + 16 * ((lvSection (levelWord m sp.nest t.level) t.section_).1 + t.pos)
  | [] => 3072

/-- Every active level has issued a bundle, and the innermost one stands at the next template bundle. -/
def stepLevels : List SpoolLevel → List SpoolLevel
  | [] => []
  | t :: ls => { t with pos := t.pos + 1, issued := true } :: ls.map fun u => { u with issued := true }

/-- The nest after its bundle issued (R130), or after SPBRK l (R132): inner levels dropped, level l at its iteration's end. -/
def breakLevels (l : Nat) : List SpoolLevel → List SpoolLevel
  | [] => []
  | t :: ls => if t.level = l then { t with section_ := 2, issued := true } :: ls.map (fun u => { u with issued := true }) else breakLevels l ls

/-- Whether SPBRK l may act (R132): level l is active and one of its iterations is running. -/
def Spool.canBreak (sp : Spool) (l : Nat) : Bool := sp.levels.any fun t => t.level == l && (t.section_ == 1 || t.section_ == 2)

/-- SPCFGl (R133): trip count and iteration, zero for a level that is not active. -/
def Regs.spcfg (r : Regs) (l : Nat) : Word :=
  match r.spool with
  | none => 0
  | some sp => match sp.levels.find? fun t => t.level == l with
    | some t => BitVec.ofNat 64 (t.trips * 2 ^ 32 + t.iter)
    | none => 0

end Sys2Proof.Machine
end

