-- ==== Sys2Proof/Machine/Ops.lean ====
section
/-!
DEFINITION. The shared operations of a seat: the clock (R289), the end of a bundle (R165, R193, R195, R130), taking a trap (R339),
the return from one (R341), termination, and the frame in which every slot acts (R164, R174).
-/

namespace Sys2Proof.Machine

/-- Whether a result acts on the working bank of Aa (R217). -/
def onBank (a : Nat) : Res → Bool
  | .beat b _ _ _ _ _ => b == a
  | .mzero b _ => b == a
  | .minit b _ => b == a
  | .mshift b _ => b == a
  | _ => false

/-- A waiting MSWAP exchanges its banks once nothing is in flight on the working bank and no drain beat of it is left (R217). -/
def Strand.trySwap (st : Strand) : Strand :=
  match st.swap with
  | some a =>
    if st.pend.any (fun p => onBank a p.res) || st.drains.any (fun d => d.acc == a) then st
    else { st with aw := st.aw.setIfInBounds a (st.av[a]?.getD zeroBank), av := st.av.setIfInBounds a (st.aw[a]?.getD zeroBank), swap := none }
  | none => st

/-- One step of the seat's clock (R289): drain beats due now, the clock, mass adds and results due at the new step. -/
def clockStep (q : SeatId) (s : State) : State :=
  let s := drainStep q s
  match s.strandAt q with
  | none => s
  | some st =>
    let st := st.dropDrains.trySwap
    let s := s.putStrand q { st with clk := st.clk + 1 }
    landDue q (massDue q (st.clk + 1) s)

/-- The end of a LOOP iteration (R195, R196). -/
def loopEnd (r : Regs) (l : Loop) (next : Nat) : Regs :=
  let (lc, ec) := if 0 < r.lc then (r.lc - 1, r.ec) else if 0 < r.ec then (0, r.ec - 1) else (0, 0)
  let lc := l.lcHeld.getD lc
  let ec := l.ecHeld.getD ec
  let r := { r with lc := lc, ec := ec, xrot := (r.xrot + 31) % 32, prot := (r.prot + 7) % 8 }
  if lc = 0 ∧ ec = 0 then { r with loop := none, pc := next }
  else
    let n := physP r.prot 8
    let b := decide (0 < lc)
    { r with loop := some { l with lcHeld := none, ecHeld := none }, pc := l.start,
             p := if b then r.p ||| (1#16 <<< n) else r.p &&& ~~~(1#16 <<< n) }

/-- Where a bundle at its last repetition leaves the program counter (R193, R195): a pending branch after its delay bundle, the
end of a loop iteration, or the next bundle. Inside a nest it stays. -/
def Regs.goOn (r : Regs) : Regs :=
  if r.spool.isSome then r
  else match r.branch with
    | some t => { r with pc := t, branch := none }
    | none => match r.loop with
      | some l => if r.pc = l.start + 16 * (l.length - 1) then loopEnd r l (r.pc + 16) else { r with pc := r.pc + 16 }
      | none => { r with pc := r.pc + 16 }

/-- What the bundle's control slot asks for (R192 to R201), on the registers. -/
def Regs.control (r : Regs) (c : Ctl) : Regs :=
  match c with
  | .branch t => { r with branch := some t, pc := r.pc + 16 }
  | .skipLoop n => { r with pc := r.pc + 16 * (n + 1) }
  | .loop n => { r with loop := some ⟨r.pc + 16, n, none, none⟩, pc := r.pc + 16 }
  | .spool d _ => { r with pc := r.pc + 16, spool := some ⟨d, r.pc, [], false, none, r.x, r.xrot, []⟩ }
  | _ => r.goOn

/-- Whether this is the last repetition of a REP bundle, or no REP runs (R172). -/
def Regs.lastRep (r : Regs) : Bool := match r.rep with | some j => decide (r.repN ≤ j + 1) | none => true

/-- The registers after a bundle or one repetition (R172): REPIDX counts it, the last one goes on. -/
def Regs.nextBundle (r : Regs) (c : Ctl) : Regs :=
  if r.lastRep then { r with rep := none, repN := 0 }.control c else { r with rep := some (r.rep.getD 0 + 1) }

/-- The registers with their nest as it has been settled (R130); old: the registers that increments still to come read. -/
def NestState.put (n : NestState) (sp : Spool) (old : Regs) : Regs :=
  let sp' : Spool := { sp with levels := n.levels, empty := n.empty, start := n.start, oldX := old.x, oldRot := old.xrot, landed := [] }
  { n.regs with spool := if n.levels.isEmpty && n.start.isNone then none else some sp' }

/-- The nest after a bundle at its last repetition (R130, R132, R201); now: the seat issues at the next step; old: registers at the
bundle's issue. -/
def Regs.nestOn (r : Regs) (m : Memory) (c : Ctl) (now : Bool) (old : Regs) : Regs :=
  match r.spool with
  | none => r
  | some sp =>
    (match c with
      | .spool d l => if now then settle m d now old [] 64 r (pushLevel m d l r []) else ⟨r, [], false, some l⟩
      | .spbrk l => settle m sp.nest now old [] 64 r (breakLevels l sp.levels)
      | _ => settle m sp.nest now old [] 64 r (if sp.empty then sp.levels else stepLevels sp.levels)).put sp old

/-- A level that waits for the next issue step starts: its trip count is read now (R130). -/
def Regs.nestStart (r : Regs) (m : Memory) : Regs :=
  match r.spool with
  | none => r
  | some sp => match sp.start with
    | none => r
    | some l =>
      let old := { r with x := sp.oldX, xrot := sp.oldRot }
      (settle m sp.nest true old sp.landed 64 r (pushLevel m sp.nest l r sp.levels)).put sp old

/-- Whether the seat issues at its next step: no STALL runs and no MSWAP waits for its landings. -/
def Strand.issues (st : Strand) : Bool := st.stall == 0 && st.swap.isNone

/-- Whether something holds the seat back (R290): a wait of a sync slot, an IDLE, or a command without its unit or entry. -/
def Strand.frozen (st : Strand) : Bool := st.wait != .none || st.idle.isSome || st.held.isSome

/-- What is left of the control slot's request: PARK and EXIT wait for what else holds their bundle's seat. -/
def Ctl.left (c : Ctl) (frozen : Bool) : Ctl :=
  if frozen then (match c with
    | .park a t => .park a t
    | .exit => .exit
    | _ => .none)
  else .none

/-- A bundle, or repetition, of the current seat has taken effect (R165, R172): the control slot acts, the clock steps and what is
due lands, the nest goes on, and a mark takes its shadows (R197). -/
def finishBundle (s : State) : State :=
  match s.strand with
  | none => s
  | some st =>
    let last := st.regs.lastRep
    let wait : Wait := if st.frozen then st.wait
      else match st.ctl with
        | .park a t => .park a t
        | .exit => .exit
        | _ => .none
    let old := st.regs
    let s := s.setStrand { st with regs := st.regs.nextBundle st.ctl, wait := wait, issued := st.clk, stall := st.stall - 1 }
    let s := clockStep s.cur s
    match s.strand with
    | none => s
    | some st' =>
      let st' := if last then { st' with regs := st'.regs.nestOn (s.templates st') st.ctl st'.issues old } else st'
      let st' := if st.marked then st'.takeMark else st'
      s.setStrand { st' with marked := false, ctl := st.ctl.left st.frozen, order := st'.order + 1 }

/-- A clock step without a bundle: of a STALL, a landing wait or an empty iteration (R289); a level that waited for the end of such steps
starts at the last one's end (R130). -/
def idleStep (s : State) : State :=
  match s.strand with
  | none => s
  | some st =>
    let old := st.regs
    let empty := st.issues && (match st.regs.spool with | some sp => sp.empty | none => false)
    let s := clockStep s.cur (s.setStrand { st with stall := st.stall - 1 })
    match s.strand with
    | none => s
    | some st' =>
      let m := s.templates st'
      s.setStrand (if empty then { st' with regs := st'.regs.nestOn m .none true old }
        else if st'.issues then { st' with regs := st'.regs.nestStart m } else st')

/-! ### Traps -/

/-- The trap record of R340. pc, clk: the bundle at fault and its step; st: the strand as it resumes. -/
def trapRecord (t : Trap) (st0 st : Strand) : Vector Word 8 :=
  let (pc, clk, raisedIn) := t.site.getD st0.site
  let bit : Bool → Nat → Nat := fun b k => if b then 2 ^ k else 0
  #v[BitVec.ofNat 64 (t.cause + t.reason * 2 ^ 8 + raisedIn * 2 ^ 24 + bit t.rollback 27 + st.asid * 2 ^ 32),
     BitVec.ofNat 64 pc, BitVec.ofNat 64 t.arg, BitVec.ofNat 64 (st.recAddr / 64), BitVec.ofNat 64 st.here, BitVec.ofNat 64 t.faddr,
     BitVec.ofNat 64 (t.rstate + t.cctr / 8 * 8), BitVec.ofNat 64 clk]

/-- The strand on the current seat is terminated (R339, R341): event code, detail in W6; the mass adds that its beats have sent are performed. -/
def State.terminate (s : State) (st : Strand) (code detail : Nat) : State :=
  let s := (massEnd s.cur s).event st.asid code 0xFF s.cur.tile (st.recAddr / 64) 0 0 detail
  s.endStrand s.cur st

/-- The strand that a handler runs for, ended with it (R341): event code and detail, the frame freed. -/
def State.terminateHandled (s : State) (h : Strand) (frame code detail : Nat) : State :=
  let st := (s.savedAt h.asid frame).getD h
  let s := s.freeFrame h.asid frame
  s.terminate st code detail

/-- The handler's strand at its entry (R339): all registers zero but X2 to X4. -/
def handlerStrand (st : Strand) (frame entry cause : Nat) (rec_ : Vector Word 8) : Strand :=
  let x := ((zeroRegs.x.setIfInBounds 2 (BitVec.ofNat 64 frame)).setIfInBounds 3 (BitVec.ofNat 64 cause)).setIfInBounds 4
    (BitVec.ofNat 64 (st.recAddr / 64))
  let r := { zeroRegs with pc := entry, x := x }
  { zeroStrand with regs := r, shadow := r, recAddr := st.recAddr, asid := st.asid, pri := 248, service := true, draw := st.draw,
                    launch := st.launch, named := st.named, handler := some ⟨frame, cause⟩, trapRec := rec_ }

/-- The entry of a cause in the handler table, 0 when there is none (R339, R336). -/
def State.handlerEntry (s : State) (asid cause : Nat) : Nat :=
  let hb := if s.idValid asid then s.idRecord asid 2 else 0
  if hb = 0 then 0 else (s.wordGlobal 0 asid (hb + 8 * (1 + cause))).getD 0

/-- The strand as it is saved for a trap (R339): rolled back, or with its gated stores performed, after its operations on their way to the same
words (R143); the trapping bundle takes its own issue step unless it has taken it already (R289); the mass adds that its beats have sent are
performed (R135). -/
def trapSave (t : Trap) (st : Strand) (s : State) : State :=
  let s := if t.rollback then s.setStrand st.rollback
    else
      let s := s.settleWords st ((s.ownCells s.cur st).map fun c => (c.1, 1))
      let s' := st.gate.foldl (fun s g => match performGated s.cur.tile st.launch s g with | .ok (s, _) => s | .error _ => s) s
      s'.setStrand { st with gate := [] }
  massAll s.cur (if t.after || t.site.isSome then s
    else
      let s' := clockStep s.cur s
      match s'.strand with
      | none => s
      | some st' => s'.setStrand { st' with order := st'.order + 1 })

/-- CONSUMED counts the poisoned words that a core trap consumes in the seat's field (R359). -/
def State.countPoison (s : State) (t : Trap) : State :=
  if t.cause = 0x0E ∧ t.arg ≠ 0xFFFE then s.mapField (fieldOf s.cur.tile) fun d => { d with consumed := min (d.consumed + 1) 65535 }
  else s

/-- The steps of a trap once a frame is claimed (R339): the strand saved there, and handler mode at the cause's entry; with no entry the strand is
terminated and the frame freed (R366). -/
def trapInto (t : Trap) (st0 : Strand) (frame : Nat) (s : State) : State :=
  let s := trapSave t st0 s
  match s.strand with
  | none => s
  | some st =>
    let rec_ := trapRecord t st0 st
    let st := { st with trapRec := rec_,
                        pend := match s.raised with | some u => ⟨st.clk, st.order, .trap u⟩ :: st.pend | none => st.pend }
    let s := ({ s with raised := none }.setStrand st).saveStrand frame st 1
    let entry := s.handlerEntry st.asid t.cause
    if entry = 0 then (s.freeFrame st.asid frame).terminate st 0x24 t.cause
    else s.setStrand (handlerStrand st frame entry t.cause rec_)

/-- TAKING A TRAP (R339): a trap in handler mode terminates both; without a free frame the strand is terminated and nothing of it saved; otherwise
it is saved in the frame and its seat enters handler mode at the cause's entry. -/
def takeTrap (t : Trap) (s : State) : State :=
  match s.strand with
  | none => s
  | some st0 =>
    let s := { s with raised := none }.countPoison t
    match st0.handler with
    | some h => s.terminateHandled st0 h.frame 0x24 (h.cause + t.cause * 256)
    | none => match s.claimFrame st0.asid with
      | .got k base s => trapInto t st0 (base + 262144 * k) s
      | .short s => s.terminate st0 0x24 t.cause
      | .invalid => s.terminate st0 0x24 t.cause

/-- A trap whose TRAPARG marks the slot at fault gets its mark (R173). -/
def Trap.atSlot (t : Trap) (pos : Nat) : Trap := if t.inSlot then { t with arg := t.arg + 2 ^ pos, inSlot := false } else t

/-- THE RETURN FROM A TRAP (R200, R341): the handler's gated stores are performed, the container is checked and restored, the frame
freed; a container that fails its checks ends the strand with event 0x25. -/
def returnFromTrap (s : State) : State :=
  match s.strand with
  | none => s
  | some h => match h.handler with
    | none => s
    | some hd =>
      let s := match s.flushGate with | .ok s => s | .error _ => s
      match s.restoreStrand h.asid hd.frame with
      | some st => (s.freeFrame h.asid hd.frame).setStrand st
      | none => s.terminateHandled h hd.frame 0x25 hd.cause

/-! ### The frame of a slot -/

/-- The outcome of a step of this machine. -/
abbrev Out := Host.Outcome State Fault Refusal

/-- The trap of a landing kept in flight when another trap is taken first. -/
def requeueTrap (t : Trap) (s : State) : State :=
  match s.strand with
  | some st => { s with raised := none }.setStrand { st with pend := ⟨st.clk, st.order, .trap t⟩ :: st.pend }
  | none => { s with raised := none }

/-- The traps left at a step's end are taken: the one after the bundle, else one that a landing raised (R199, R246). -/
def takeLeft (after : Option Trap) (s : State) : State :=
  match after, s.raised with
  | some t, some u => takeTrap t (requeueTrap u s)
  | some t, none => takeTrap t s
  | none, some u => takeTrap u s
  | none, none => s

/-- A trap taken after its bundle holds the place of its bundle (R199, R340). -/
def Trap.sited (t : Trap) (st : Strand) : Trap := { t with site := some (t.site.getD st.site) }

/-- A trap that a slot raised is taken at once outside a bundle; inside one the step takes it (R174, R199). -/
def settleTrap (s : State) : State :=
  if s.inBundle then s
  else match s.raised, s.strand with
    | some t, some st => if t.after then takeLeft (some ((t.atSlot 0).sited st)) (finishBundle { s with raised := none }) else takeTrap (t.atSlot 0) s
    | _, _ => s

/-- A slot of the current seat (R164, R174): with a false guard it does nothing; its action gives the state, or the trap it raises,
and then it changes nothing else. -/
def runSlot (g : BitVec 4) (act : Strand → State → Except Trap State) (s : State) : Out :=
  match s.strand with
  | none => .fault .idleSeat
  | some st =>
    if !st.pr g then .next s
    else match act st s with
      | .ok s' => .next (settleTrap s')
      | .error t => .next (settleTrap { s with raised := some t })

/-- A slot whose action is on its strand alone and never traps. -/
def strandSlot (g : BitVec 4) (f : Strand → Strand) (s : State) : Out := runSlot g (fun st s => .ok (s.setStrand (f st))) s

/-- A slot whose action is on its strand alone and may trap. -/
def checkedSlot (g : BitVec 4) (f : Strand → Except Trap Strand) (s : State) : Out :=
  runSlot g (fun st s => match f st with | .ok st' => .ok (s.setStrand st') | .error t => .error t) s

/-- A non-replayable slot (R212, R247, R262): its bundle's mark performs the gated stores first, then it acts. -/
def markSlot (g : BitVec 4) (act : Strand → State → Except Trap State) (s : State) : Out :=
  runSlot g (fun _ s => match s.mark with
    | .error t => .error t
    | .ok s => match s.strand with
      | none => .ok s
      | some st => act st s) s

end Sys2Proof.Machine
end

