-- ==== Sys2Proof/Machine/Control.lean ====
section
/-!
DEFINITION. Control (R192 to R201): branches, LOOP, MARK, PARK, EXIT, TRAP, SPOOL, SPBRK and ERET. The control slot sets what the
bundle's end carries out (finishBundle).
-/

namespace Sys2Proof.Machine

/-- A branch (R192, R193): the bundle at B + 16 is its delay bundle whatever the guard; with a false guard control goes to B + 32. -/
def branchSlot (g : BitVec 4) (target : Strand → Nat) (link : Bool) (s : State) : Out :=
  match s.strand with
  | none => .fault .idleSeat
  | some st =>
    if !st.pr g then .next (s.setStrand { st with ctl := .branch (st.regs.pc + 32) })
    else
      let st' := { st with ctl := .branch (target st) }
      .next (s.setStrand (if link then st'.landX 1 (1#6) (BitVec.ofNat 64 (st.regs.pc + 32)) else st'))

/-- B + 16·offset, within 64 bits (R192). -/
def relTarget (st : Strand) (off : Word) : Nat := (BitVec.ofNat 64 st.regs.pc + off * 16).toNat

/-- BR (R192). -/
def execBr (g : BitVec 4) (o : BitVec 20) (x : Option (BitVec 8)) (s : State) : Out := branchSlot g (fun st => relTarget st (immCt x o)) false s
/-- CALL (R192): X1 receives B + 32. -/
def execCall (g : BitVec 4) (o : BitVec 20) (x : Option (BitVec 8)) (s : State) : Out := branchSlot g (fun st => relTarget st (immCt x o)) true s
/-- JMP (R192). -/
def execJmp (g : BitVec 4) (a : BitVec 6) (s : State) : Out := branchSlot g (fun st => (st.xr a).toNat / 16 * 16) false s
/-- CALLX (R192): reads its target before the link lands. -/
def execCallx (g : BitVec 4) (a : BitVec 6) (s : State) : Out := branchSlot g (fun st => (st.xr a).toNat / 16 * 16) true s

/-- LOOP (R195): with a count of 0 control passes over the body; else LC, EC and P8 land for the first body bundle. -/
def execLoop (g : BitVec 4) (a : BitVec 6) (e : BitVec 4) (l : BitVec 10) (x : Option (BitVec 8)) (s : State) : Out :=
  strandSlot g (fun st =>
    let n := (st.xr a).toNat % 2 ^ 32
    let len := (x.getD 0).toNat * 1024 + l.toNat
    if n = 0 then { st with ctl := .skipLoop len }
    else (({ st with ctl := .loop len } : Strand).land 1 (.lc n)).land 1 (.ec e.toNat) |>.landP 1 8 true) s

/-- MARK (R197): the gated stores are performed; the bundle's end takes the shadows. -/
def execMark (g : BitVec 4) (s : State) : Out := runSlot g (fun _ s => s.mark) s

/-- PARK (R27, R198): waits for its landings and gated stores, then leaves the seat; with Xb = X0 there is no wait. In handler mode
it is an illegal bundle (R341). The counter's address is checked as R262 checks one. -/
def execPark (g : BitVec 4) (a b : BitVec 6) (s : State) : Out :=
  runSlot g (fun st s =>
    let va := (st.xr a).toNat
    if st.handler.isSome then .error (illegalTrap 11)
    else if b = 0 then .ok (s.setStrand { st with ctl := .park va none })
    else if va % 8 ≠ 0 then .error (notLocal 0xFFFF)
    else match s.translate (fieldOf s.cur.tile) st.asid va false with
      | none => .error { cause := 0x06, arg := va % 2 ^ 32, faddr := va }
      | some _ => .ok ((s.fillXlat (fieldOf s.cur.tile) st.asid va).setStrand { st with ctl := .park va (some (st.xr b).toNat) })) s

/-- EXIT (R29). -/
def execExit (g : BitVec 4) (s : State) : Out := strandSlot g (fun st => { st with ctl := .exit }) s

/-- TRAP (R199): software trap with the code, taken after its bundle has taken effect. -/
def execTrap (g : BitVec 4) (c : BitVec 8) (s : State) : Out :=
  runSlot g (fun _ s => .ok { s with raised := some { cause := 0x10, arg := c.toNat, after := true } }) s

/-- SPOOL (R129, R201): every level the nest can reach is checked, then the nest runs from level l. A bundle whose SPOOL fails the check is illegal
whatever its guard (State.issueFault); the reason code 5 is the model's choice (notes/assumptions/79.md). -/
def execSpool (g n : BitVec 4) (l : BitVec 3) (s : State) : Out :=
  runSlot g (fun st s =>
    match badLevel (s.templates st) n.toNat 6 l.toNat with
    | some b => .error { cause := 0x01, arg := b, reason := 5 }
    | none => .ok (s.setStrand { st with ctl := .spool n.toNat l.toNat })) s

/-- SPBRK (R132): ends the current iteration of level l after its bundle; elsewhere an illegal bundle. -/
def execSpbrk (g : BitVec 4) (l : BitVec 3) (s : State) : Out :=
  checkedSlot g (fun st =>
    if (match st.regs.spool with | some sp => sp.canBreak l.toNat | none => false) then .ok { st with ctl := .spbrk l.toNat }
    else .error (illegalTrap 11)) s

/-- ERET (R200): leaves handler mode; elsewhere it raises privilege. -/
def execEret (g : BitVec 4) (s : State) : Out :=
  checkedSlot g (fun st => if st.handler.isSome then .ok { st with ctl := .eret } else .error (privilegeTrap 0)) s

end Sys2Proof.Machine
end

