-- ==== Sys2Proof/Machine/DrainOps.lean ====
section
/-!
DEFINITION. Drain and finish (R228 to R234, R237, R238): class 0xB; the drain itself is Machine/Finisher.lean and MDRAIN.
-/

namespace Sys2Proof.Machine

/-- A result that writes len bits at lo of configuration word w to v at +1 (R228). -/
def Strand.config (st : Strand) (w lo len v : Nat) : Strand :=
  st.land 1 (.fcfg w (BitVec.ofNat 64 ((2 ^ len - 1) * 2 ^ lo)) (BitVec.ofNat 64 (v % 2 ^ len * 2 ^ lo)))

/-- DFCFG (R229): FN, OUTFMT, RMODE, BMZ, K; SEN, MEN, MAXEN, SUMEN clear. -/
def execDfcfg (g n f : BitVec 4) (r : BitVec 3) (z : BitVec 1) (k : BitVec 8) (s : State) : Out :=
  strandSlot g (fun st =>
    (((((((st.config 0 56 8 k.toNat).config 0 55 1 0).config 0 50 3 0).config 0 49 1 z.toNat).config 0 46 3 r.toNat).config 0 42 4
      f.toNat).config 0 38 4 n.toNat)) s

/-- DFDST NONE (R230). -/
def execDfdstNone (g : BitVec 4) (s : State) : Out := strandSlot g (fun st => st.config 0 36 2 0) s
/-- DFDST T (R230). -/
def execDfdstT (g : BitVec 4) (n : BitVec 3) (s : State) : Out := strandSlot g (fun st => (st.config 0 36 2 1).config 0 27 3 n.toNat) s

/-- DFDST H (R230): RANK coordinates of Hh from Xc on, the others 0. -/
def execDfdstH (g : BitVec 4) (h c : BitVec 6) (s : State) : Out :=
  runSlot g (fun st s =>
    match s.entryOf st.launch h.toNat with
    | none => .error (notLocal 0xFFFF)
    | some e =>
      if 63 < c.toNat + e.rank - 1 then .error (illegalTrap 5)
      else
        let cs := (List.range e.rank).map fun d => (st.regs.xAt (c.toNat + d)).toNat % 2 ^ 32
        let st := (st.config 0 36 2 2).config 0 30 6 h.toNat
        .ok (s.setStrand ((((st.config 1 0 32 (cs.getD 0 0)).config 1 32 32 (cs.getD 1 0)).config 2 0 32 (cs.getD 2 0)).config 2 32 32 (cs.getD 3 0)))) s

/-- DFSCALE (R231): SEN, SAXIS, BEN, VS, VB. -/
def execDfscale (g : BitVec 4) (x b : BitVec 1) (v w : BitVec 5) (s : State) : Out :=
  strandSlot g (fun st => ((((st.config 0 55 1 1).config 0 54 1 x.toNat).config 0 53 1 b.toNat).config 4 53 5 v.toNat).config 4 48 5 w.toNat) s

/-- A slot of the configuration that names a handle, which must not be absent (R51), and acts on its strand. -/
def handleSlot (g : BitVec 4) (h : BitVec 6) (f : Strand → Except Trap Strand) (s : State) : Out :=
  runSlot g (fun st s =>
    match s.entryOf st.launch h.toNat with
    | none => .error (notLocal 0xFFFF)
    | some _ => match f st with
      | .error t => .error t
      | .ok st => .ok (s.setStrand st)) s

/-- DFMASK (R233): MEN, MH, VQ and the mask word, whose reserved bit must be 0. -/
def execDfmask (g : BitVec 4) (h x : BitVec 6) (q : BitVec 5) (s : State) : Out :=
  handleSlot g h (fun st =>
    let w := st.xr x
    if w.getLsbD 5 then .error (formatTrap 0x201)
    else .ok ((((st.config 0 52 1 1).config 4 58 6 h.toNat).config 4 43 5 q.toNat).config 3 0 64 w.toNat)) s

/-- DFROW (R232): MAXEN, SUMEN, VMAX, VSUM. -/
def execDfrow (g : BitVec 4) (m n : BitVec 1) (x y : BitVec 5) (s : State) : Out :=
  strandSlot g (fun st => (((st.config 0 51 1 m.toNat).config 0 50 1 n.toNat).config 4 38 5 x.toNat).config 4 33 5 y.toNat) s

/-- DFMASS (R234): DKIND 3, DH, MSQ and C0 = Xs[31:0], a multiple of 64. -/
def execDfmass (g : BitVec 4) (h x : BitVec 6) (n : BitVec 2) (s : State) : Out :=
  handleSlot g h (fun st =>
    let w := (st.xr x).toNat
    if w % 64 ≠ 0 then .error (formatTrap 0x201)
    else .ok ((((st.config 0 36 2 3).config 0 30 6 h.toNat).config 0 25 2 n.toNat).config 1 0 32 w)) s

/-- One lane of DFV (R237) on FP32 bits. -/
def dfvLane (f : Nat) (k : Int) (a b : Nat) : Nat × Flags :=
  match f with
  | 16 => add32f a b
  | 17 => add32f a (neg32 b)
  | 18 => mul32 a b
  | 19 => (max32 a b, 0)
  | 20 => (min32 a b, 0)
  | _ => finishFn f k a

/-- DFV (R237): landing at +10. -/
def execDfv (g : BitVec 4) (d a b f : BitVec 5) (s : State) : Out :=
  checkedSlot g (fun st =>
    let va := st.vr a
    let vb := st.vr b
    if va.tag ≠ 7 then .error (formatTrap (0x210 + a.toNat))
    else if 16 ≤ f.toNat ∧ vb.tag ≠ 7 then .error (formatTrap (0x210 + b.toNat))
    else
      let k := signedOf 8 (fieldAt (st.regs.fcfg[0]?.getD 0) 56 8)
      let rs := (List.range 64).map fun l => dfvLane f.toNat k (va.lane l).toNat (vb.lane l).toNat
      let arr := (rs.map (·.1)).toArray
      .ok ((st.landV 10 d 7 (-1) (lanesOf fun l => BitVec.ofNat 32 (arr.getD l 0))).landFlags 10 (joinFlags (rs.map (·.2))))) s

/-- DFSTAT (R238). -/
def execDfstat (g : BitVec 4) (d : BitVec 6) (w : BitVec 3) (s : State) : Out :=
  strandSlot g (fun st => st.landX 1 d (st.regs.fcfg[w.toNat]?.getD 0)) s

end Sys2Proof.Machine
end

