-- ==== Sys2Proof/Machine/Patterns.lean ====
section
/-!
DEFINITION. Pattern descriptors: their check (R93), their elements (R94), the values a bound V register gives them (R95), and the
operand elements of a beat (R86, R87, R96).
-/

namespace Sys2Proof.Machine

/-- KIND (R93). -/
def patKind (d : Word) : Nat := fieldAt d 0 4
/-- REXT. -/
def patRext (d : Word) : Nat := fieldAt d 4 7
/-- CEXT. -/
def patCext (d : Word) : Nat := fieldAt d 11 7
/-- K, signed: the offset k, or lo. -/
def patK (d : Word) : Int := signedOf 8 (fieldAt d 18 8)
/-- The segment length L of SEGSUM. -/
def patSeg (d : Word) : Nat := fieldAt d 18 7
/-- HI, signed. -/
def patHi (d : Word) : Int := signedOf 8 (fieldAt d 26 8)
/-- VREG. -/
def patVreg (d : Word) : Nat := fieldAt d 34 5

/-- A descriptor that MLOADG and MPUSHG admit (R93). -/
def patternOk (d : Word) : Bool :=
  decide (patKind d ≤ 10) && decide (patRext d ≤ 64) && decide (patCext d ≤ 64) && fieldAt d 39 25 == 0 &&
    (patKind d != 10 || (decide (1 ≤ patSeg d) && decide (patSeg d ≤ 64))) &&
    (patKind d != 6 || decide (patHi d - patK d ≤ 63))

/-- Kinds that read a bound V register: BANDV, PERM, ONEHOT, DIAG (R93). -/
def patBound (d : Word) : Bool := 6 ≤ patKind d && patKind d ≤ 9

/-- The tag check of the bound register (R95): index lanes I32 or N32; value lanes FP32 or I32, and with a partner tag FP32, or
I32 for I8. -/
def boundTagOk (d : Word) (tag : BitVec 4) (partner : Option Nat) : Bool :=
  match patKind d with
  | 7 => tag == 3 || tag == 4
  | 8 => tag == 3 || tag == 4
  | 6 => (match partner with | none => tag == 7 || tag == 3 | some t => tag == (if t = 1 then 3 else 7))
  | 9 => (match partner with | none => tag == 7 || tag == 3 | some t => tag == (if t = 1 then 3 else 7))
  | _ => true

/-- What element (i, j) of a pattern is (R94): a structural zero, a one, lane l of the bound register; OOR for an index outside
0 to 63 (R95). -/
inductive PatElt where
  | structural
  | oor
  | one
  | lane (l : Nat)
  deriving DecidableEq, Repr

/-- An element of PERM or ONEHOT: index lane l against position p. -/
def indexElt (v : VReg) (l p : Nat) : PatElt :=
  let x := laneInt v.tag.toNat (v.lane l)
  if x < 0 ∨ 63 < x then .oor else if x = (p : Nat) then .one else .structural

/-- Element (i, j) of R94. -/
def patternElt (d : Word) (v : VReg) (i j : Nat) : PatElt :=
  if patRext d ≤ i ∨ patCext d ≤ j then .structural
  else
    let diff : Int := (j : Int) - i
    let when_ : Bool → PatElt := fun b => if b then .one else .structural
    match patKind d with
    | 0 => .one
    | 1 => when_ (decide ((j : Int) + patK d ≤ i))
    | 2 => when_ (decide ((i : Int) ≤ j + patK d))
    | 3 => when_ (decide (i = j))
    | 4 => when_ (decide (diff = patK d))
    | 5 => when_ (decide (patK d ≤ diff) && decide (diff ≤ patHi d))
    | 6 => if patK d ≤ diff ∧ diff ≤ patHi d then .lane (diff - patK d).toNat else .structural
    | 7 => indexElt v j i
    | 8 => indexElt v i j
    | 9 => if i = j then .lane i else .structural
    | _ => when_ (decide (i / patSeg d = j / patSeg d))

/-- A value lane rounded into the partner's format, I8 or binary (R95). -/
def valueElt (partner : Nat) (x : Lane) : Val × Flags :=
  if partner = 1 then
    let n := signedOf 32 x.toNat
    if n < -128 then (ofInteger (-128), flOF) else if 127 < n then (ofInteger 127, flOF) else (ofInteger n, 0)
  else
    let (y, f) := convertOne partner 0 0 false (val32 x.toNat)
    (valueOf partner y, f)

/-- The 4×4 block at (4R, 4C) of a DIAG or BANDV pattern for an SQ partner: the block number and flags of R71 with RNE, structural
elements as zeros, which take no part in choosing E (R215); that they enter their pair's micro bit as +0 is the model's choice
(notes/assumptions/88.md). -/
def patternBlock (partner : Nat) (d : Word) (v : VReg) (br bc : Nat) : Nat × Flags :=
  sqBlock partner 0 ((List.range 16).map fun k =>
    match patternElt d v (4 * br + k / 4) (4 * bc + k % 4) with
    | .lane l => (val32 (v.lane l).toNat, 0)
    | _ => (.num false 0 0, 0))

/-- Element (i, j) of a pattern with its partner's tag, as an operand of a beat, and the flags that generating it sets (R95). -/
def generate (partner : Nat) (d : Word) (v : VReg) (i j : Nat) : Elt × Flags :=
  match patternElt d v i j with
  | .structural => (none, 0)
  | .oor => (none, flOOR)
  | .one => (some (.num false 1 0), 0)
  | .lane l =>
    if isSq partner then
      let (b, f) := patternBlock partner d v (i / 4) (j / 4)
      (some (sqValue partner b (4 * (i % 4) + j % 4)), f)
    else
      let (x, f) := valueElt partner (v.lane l)
      (some x, f)

/-- Rows of a beat by the tag of A (R86). -/
def beatCount (tag : Nat) : Nat := if tag = 8 then 4 else if tag = 9 then 2 else 1

/-- The tags that a beat multiplies (R87). -/
def beatTag (t : Nat) : Bool := t == 1 || t == 5 || t == 6 || isSq t

/-- The element (i, j) of a gather latch (R61): none in a structural row. -/
def gatherElt (l : GatherLatch) (i j : Nat) : Elt :=
  match (l.rows[i]?).getD none with
  | none => none
  | some bs =>
    let w := elemBytes l.tag.toNat
    some (valueOf l.tag.toNat (leNat ((bs.drop (w * j)).take w)))

/-- The stationary operand's element (k, j) with partner tag t, and the flags of generating it (R214). -/
def latchElt (l : StatLatch) (t k j : Nat) : Elt × Flags :=
  match l with
  | .empty => (none, 0)
  | .tile r _ => (some (tileVal r k j), 0)
  | .gen d v _ tr => if tr then generate t d v j k else generate t d v k j

end Sys2Proof.Machine
end

