-- ==== Sys2Proof/Machine/Local.lean ====
section
/-!
DEFINITION. Local load and store (R239 to R246): class 0x5.
-/

namespace Sys2Proof.Machine

/-! ### Admission (R53, R240) -/

/-- Entries that a scalar load of w bytes admits; a sequence admits LD32 for its metadata words too (R105). -/
def admitScalarLoad (w : Nat) (e : Entry) : Bool :=
  match e.kind with
  | 0 => !isSq e.fmt && e.elem == w
  | 1 => !isSq e.fmt && e.elem == w
  | 2 => w == 8
  | 3 => w == 4 || (!isSq e.fmt && e.elem == w)
  | 4 => w == 8
  | _ => false

/-- Entries that a scalar store of w bytes admits. -/
def admitScalarStore (w : Nat) (e : Entry) : Bool := e.kind != 1 && e.kind != 4 && admitScalarLoad w e

/-- Entries that LDV and LDVX admit. -/
def admitVectorLoad (e : Entry) : Bool := (e.kind == 0 || e.kind == 1 || e.kind == 3) && decide (1 ≤ e.fmt) && decide (e.fmt ≤ 7)

/-- Entries that STV and STVX admit with a source tag. -/
def admitVectorStore (tag : BitVec 4) (e : Entry) : Bool := (e.kind == 0 || e.kind == 3) && admitVectorLoad e && e.fmt == tag.toNat

/-- Formats that a tile access moves. -/
def tileFormat (f : Nat) : Bool := f == 1 || f == 2 || f == 5 || f == 6 || isSq f

/-- Entries that LDT admits. -/
def admitTileLoad (e : Entry) : Bool := (e.kind == 0 || e.kind == 1 || e.kind == 3) && tileFormat e.fmt

/-- Entries that STT admits with a source tag. -/
def admitTileStore (tag : BitVec 4) (e : Entry) : Bool := (e.kind == 0 || e.kind == 3) && tileFormat e.fmt && e.fmt == tag.toNat

/-- Entries that LDS and LDSV admit. -/
def admitStamped (e : Entry) : Bool := e.kind == 2

/-! ### Reading -/

/-- n bytes of the slice as the seat sees them, as a number (R239). -/
def seenNat (cells : List (Nat × Byte)) (s : State) (a n : Nat) : Nat := leNat ((List.range n).map fun k => overlay cells s (a + k))

/-- The first poisoned word that a read of regions (address, bytes) meets; bytes of the seat's own gated stores are not read from the
slice (R239, R343). -/
def poisonMet (cells : List (Nat × Byte)) (s : State) (rs : List (Nat × Nat)) : Option Nat :=
  s.poison.find? fun w => rs.any fun (a, n) => (List.range 8).any fun k =>
    decide (a ≤ 8 * w + k) && decide (8 * w + k < a + n) && !cells.any fun c => c.1 == 8 * w + k

/-- The trap of a load that met poison (R246): the slice offset of the bank word, taken when the load would have landed. -/
def poisonTrap (st : Strand) (w : Nat) : Trap :=
  { cause := 0x0E, arg := 8 * w % 0x800000 / 64 * 64, faddr := 8 * w, site := some st.site }

/-- A load's result queued, or the trap of the poison that it met, at the landing step (R246). -/
def Strand.landLoad (st : Strand) (l : Nat) (bad : Option Nat) (f : Strand → Strand) : Strand :=
  match bad with
  | some w => st.land l (.trap (poisonTrap st w))
  | none => f st

/-- The bytes of a BMZ frame that elements (i, j) of its tile need, as (offset, bytes) (R77): their groups' offsets and, for SQ, heads, the
bitmaps of their groups up to their rows, and their own fields. -/
def bmzRegions (fmt : Nat) (at_ : Nat → Byte) (ps : List (Nat × Nat)) : List (Nat × Nat) :=
  let head := if isSq fmt then 32 else 0
  let w := packBits fmt
  let off : Nat → Nat := fun g => leNat [at_ (2 * g), at_ (2 * g + 1)]
  let starts := ((List.range 64).map fun i => (unpackRows fmt at_ (i % 4) (off (i / 4) + head)).2).toArray
  (ps.map fun (i, j) =>
    let o := starts.getD i 0
    let bm := leNat ((List.range 8).map fun k => at_ (o + k))
    let bit := w * popCount j bm
    (i / 4 * 2, 2) :: (off (i / 4), head) :: ((List.range (i % 4 + 1)).map fun k => (starts.getD (i / 4 * 4 + k) 0, 8)) ++
      (if bm.testBit j then [(o + 8 + bit / 8, (bit % 8 + w + 7) / 8)] else [])).flatten

/-- The BMZ frame of a place as the seat sees it: the bytes of the dense tile it expands to and the regions that elements ps of the tile read
(R60, R77, R239), within TSTRIDE. An inconsistent frame has free element values (notes/assumptions/7.md). -/
def bmzTile (s : State) (cells : List (Nat × Byte)) (pl : Place) (ps : List (Nat × Nat)) : List Byte × List (Nat × Nat) × State :=
  let at_ : Nat → Byte := fun k => if k < pl.e.tstride then overlay cells s (pl.frame + k) else 0
  let within : List (Nat × Nat) → List (Nat × Nat) := fun rs =>
    rs.filterMap fun (o, n) => if o < pl.e.tstride then some (pl.frame + o, min n (pl.e.tstride - o)) else none
  if frameConsistent pl.e.fmt at_ then (unpackFrame pl.e.fmt at_, within (bmzRegions pl.e.fmt at_ ps), s)
  else
    let (bs, s) := s.freeBytes (tileBytes pl.e.fmt)
    (bs, within (ps.map fun p => (p.1 / 4 * 2, 2)), s)

/-- The bits of elements (row + i, col + j) of a place for a list of offsets, with the poison they meet (R241, R242). The strand's own operations
on their way to what is read come first (R143). -/
def State.loadElems (s : State) (st : Strand) (pl : Place) (ps : List (Nat × Nat)) : List Nat × Option Nat × State :=
  let w := pl.e.elem
  if pl.e.kind = 1 then
    let s := s.settleWords st [(pl.frame, pl.e.tstride)]
    let cells := s.ownCells s.cur st
    let (bs, rs, s) := bmzTile s cells pl
      ((ps.filter fun p => pl.e.inside (pl.row + p.1) (pl.col + p.2)).map fun p => ((pl.row + p.1) % 64, (pl.col + p.2) % 64))
    let a := bs.toArray
    let bits : Nat → Nat → Nat := fun i j => leNat ((List.range w).map fun k => a.getD (w * (64 * (i % 64) + j % 64) + k) 0)
    (ps.map fun (i, j) => if pl.e.inside (pl.row + i) (pl.col + j) then bits (pl.row + i) (pl.col + j) else 0,
      poisonMet cells s rs, s)
  else
    let addrs := ps.map fun (i, j) => s.elemAddr s.cur.tile st.asid pl i j
    let s := s.settleWords st ((addrs.filterMap id).map fun a => (a, w))
    let cells := s.ownCells s.cur st
    (addrs.map fun a => match a with | some a => seenNat cells s a w | none => 0,
      poisonMet cells s ((addrs.filterMap id).map fun a => (a, w)), s)

/-- The offsets of the 64 lanes of a vector access: along the last coordinate, or the second-last (R241). -/
def laneOffset (across : Bool) (l : Nat) : Nat × Nat := if across then (l, 0) else (0, l)

/-- Lanes enabled by a mask. -/
def enabled (mask : Word) : List Nat := (List.range 64).filter fun l => mask.getLsbD l

/-- A scalar load (R240): w bytes, zero- or sign-extended, landing at +4. That LD32S reads a metadata word too, sign-extended, is the model's choice:
R105 names LD32 alone, R240 gives LD32S its access (notes/assumptions/75.md). -/
def scalarLoad (w : Nat) (sgn : Bool) (g : BitVec 4) (h d c : BitVec 6) (x : Option (BitVec 8)) (s : State) : Out :=
  runSlot g (fun st s =>
    match s.locate st h.toNat c.toNat (lendRow x).1 false false false (w == 4) (admitScalarLoad w) with
    | .error t => .error t
    | .ok pl =>
      let metaWord : Bool := pl.e.kind == 3 && decide (pl.e.extCol ≤ pl.col)
      if pl.e.kind == 3 && !metaWord && (isSq pl.e.fmt || pl.e.elem != w) then .error (formatTrap (0x300 + h.toNat))
      else
        let s := s.touch st.asid pl
        let (vs, bad, s) := if metaWord then
            match s.elemAddr s.cur.tile st.asid pl 0 0 with
            | some a =>
              let s := s.settleWords st [(a, 4)]
              ([seenNat (s.ownCells s.cur st) s a 4], poisonMet (s.ownCells s.cur st) s [(a, 4)], s)
            | none => ([0], none, s)
          else s.loadElems st pl [(0, 0)]
        let v := vs.getD 0 0
        let r : Word := if sgn then BitVec.ofInt 64 (signedOf (8 * w) v) else BitVec.ofNat 64 v
        .ok (s.setStrand (st.landLoad 4 bad fun st => st.landX 4 d r))) s

/-- LD8 (R240). -/
def execLd8 (g : BitVec 4) (h d c : BitVec 6) (x : Option (BitVec 8)) (s : State) : Out := scalarLoad 1 false g h d c x s
/-- LD16 (R240). -/
def execLd16 (g : BitVec 4) (h d c : BitVec 6) (x : Option (BitVec 8)) (s : State) : Out := scalarLoad 2 false g h d c x s
/-- LD32 (R240). -/
def execLd32 (g : BitVec 4) (h d c : BitVec 6) (x : Option (BitVec 8)) (s : State) : Out := scalarLoad 4 false g h d c x s
/-- LD64 (R240). -/
def execLd64 (g : BitVec 4) (h d c : BitVec 6) (x : Option (BitVec 8)) (s : State) : Out := scalarLoad 8 false g h d c x s
/-- LD8S (R240). -/
def execLd8s (g : BitVec 4) (h d c : BitVec 6) (x : Option (BitVec 8)) (s : State) : Out := scalarLoad 1 true g h d c x s
/-- LD16S (R240). -/
def execLd16s (g : BitVec 4) (h d c : BitVec 6) (x : Option (BitVec 8)) (s : State) : Out := scalarLoad 2 true g h d c x s
/-- LD32S (R240). -/
def execLd32s (g : BitVec 4) (h d c : BitVec 6) (x : Option (BitVec 8)) (s : State) : Out := scalarLoad 4 true g h d c x s

/-- A vector load (R242): enabled lanes of the 64 along one coordinate, tag FMT. -/
def vectorLoad (across : Bool) (l : Nat) (g : BitVec 4) (h : BitVec 6) (d : BitVec 5) (c : BitVec 6) (x : Option (BitVec 8)) (s : State) :
    Out :=
  runSlot g (fun st s =>
    match s.locate st h.toNat c.toNat (lendRow x).1 across (!across) false false admitVectorLoad with
    | .error t => .error t
    | .ok pl =>
      let mask := st.kr (BitVec.ofNat 3 (lendRow x).2)
      let ls := enabled mask
      let (vs, bad, s) := (s.touch st.asid pl).loadElems st pl (ls.map (laneOffset across))
      let found := ls.zip vs
      let out := lanesOf fun n => match found.find? fun p => p.1 == n with | some p => laneOf pl.e.fmt p.2 | none => 0
      .ok (s.setStrand (st.landLoad l bad fun st => st.landV l d (BitVec.ofNat 4 pl.e.fmt) mask out))) s

/-- LDV (R240, R242). -/
def execLdv (g : BitVec 4) (h : BitVec 6) (d : BitVec 5) (c : BitVec 6) (x : Option (BitVec 8)) (s : State) : Out :=
  vectorLoad false 4 g h d c x s
/-- LDVX (R240, R242). -/
def execLdvx (g : BitVec 4) (h : BitVec 6) (d : BitVec 5) (c : BitVec 6) (x : Option (BitVec 8)) (s : State) : Out :=
  vectorLoad true 6 g h d c x s

/-- Block b of an SQ tile as a load gives it at the extents: fields outside are 0, a block wholly outside is a block of zeros
(R241). -/
def trimBlock (fmt : Nat) (inside : Nat → Bool) (blk : Nat) : Nat :=
  let w := 2 ^ (1 + sqBits fmt)
  if (List.range 16).all inside then blk
  else if !(List.range 16).any inside then 255 * 2 ^ (8 * (sqBytes fmt - 2))
  else blk / 2 ^ (8 * (sqBytes fmt - 2)) * 2 ^ (8 * (sqBytes fmt - 2)) +
    ((List.range 16).map fun k => if inside k then blk / w ^ k % w * w ^ k else 0).sum

/-- Element k of block b lies inside the extents. -/
def blockInside (pl : Place) (b k : Nat) : Bool := pl.e.inside (pl.row + 4 * (b / 16) + k / 4) (pl.col + 4 * (b % 16) + k % 4)

/-- A free block of a sequence's SQ tile (notes/assumptions/7.md) with zeros for elements outside the extents and those of RETIRED slots (R106,
R241). -/
def seqBlock (fmt : Nat) (inside dead : Nat → Bool) (blk : Nat) : Nat :=
  let eAt := 2 ^ (8 * (sqBytes fmt - 1))
  let blk := if (List.range 16).any dead && decide (blk / eAt = 255) then blk - eAt else blk
  trimBlock fmt (fun k => inside k && !dead k) blk

/-- Whether slot row + i of a sequence place is RETIRED, or left out by compaction (R106, R125). -/
def State.deadRow (s : State) (tile asid : Nat) (pl : Place) (i : Nat) : Bool :=
  (s.slotMeta tile asid pl i).any (fun m => (s.natAt (m.1 + 8) 8).testBit 48) || (match pl.page with
    | some (_, b) => (payloadOffset 16 b ((pl.row + i) % 256)).isNone
    | none => false)

/-- LDT (R240, R242): one 64×64 tile, landing at +16. An SQ sequence's layout is open, so what its slots hold is free
(notes/assumptions/7.md). -/
def execLdt (g : BitVec 4) (h : BitVec 6) (d : BitVec 3) (c : BitVec 6) (x : Option (BitVec 8)) (s : State) : Out :=
  runSlot g (fun st s =>
    match s.locate st h.toNat c.toNat (lendRow x).1 true true false false admitTileLoad with
    | .error t => .error t
    | .ok pl =>
      let f := pl.e.fmt
      let s := s.touch st.asid pl
      let (r, bad, s) : TReg × Option Nat × State :=
        if pl.e.kind = 1 then
          let s := s.settleWords st [(pl.frame, pl.e.tstride)]
          let cells := s.ownCells s.cur st
          let (bs, rs, s) := bmzTile s cells pl ((rowMajor 64).filter fun (i, j) => pl.e.inside (pl.row + i) (pl.col + j))
          let t := tileOf (BitVec.ofNat 4 f) bs
          let t := if isSq f then tileOfBlocks f ((List.range 256).map fun b => trimBlock f (blockInside pl b) (tileBlock t b))
            else tileOfBits f ((rowMajor 64).map fun (i, j) => if pl.e.inside (pl.row + i) (pl.col + j) then tileBits t i j else 0)
          (t, poisonMet cells s rs, s)
        else if !isSq f then
          let (vs, bad, s) := s.loadElems st pl (rowMajor 64)
          (tileOfBits f vs, bad, s)
        else if pl.e.kind = 3 then
          let (bs, s') := s.freeBytes (256 * sqBytes f)
          let t := tileOf (BitVec.ofNat 4 f) bs
          (tileOfBlocks f ((List.range 256).map fun b =>
            seqBlock f (blockInside pl b) (fun k => s.deadRow s.cur.tile st.asid pl (4 * (b / 16) + k / 4)) (tileBlock t b)), none, s')
        else
          let n := sqBytes f
          let read := ((List.range 256).filter fun b => (List.range 16).any (blockInside pl b)).map fun b => (pl.frame + n * b, n)
          let s := s.settleWords st read
          let cells := s.ownCells s.cur st
          (tileOfBlocks f ((List.range 256).map fun b => trimBlock f (blockInside pl b) (seenNat cells s (pl.frame + n * b) n)),
            poisonMet cells s read, s)
      .ok (s.setStrand (st.landLoad 16 bad fun st => st.land 16 (.t d.toNat r)))) s

/-- LDS (R245): the decayed value of a stamped word at the issue step's now, landing at +8. -/
def execLds (g : BitVec 4) (h d c : BitVec 6) (x : Option (BitVec 8)) (s : State) : Out :=
  runSlot g (fun st s =>
    match s.locate st h.toNat c.toNat (lendRow x).1 false false false false admitStamped with
    | .error t => .error t
    | .ok pl =>
      let (vs, bad, s) := (s.touch st.asid pl).loadElems st pl [(0, 0)]
      let w := vs.getD 0 0
      let (y, f) := readStamped pl.e.decay (w % 2 ^ 32) (w / 2 ^ 32 % 2 ^ 16) (s.stepOf st.asid)
      .ok (s.setStrand (st.landLoad 8 bad fun st => (st.landX 8 d (BitVec.ofNat 64 y)).landFlags 8 f))) s

/-- LDSV (R245). -/
def execLdsv (g : BitVec 4) (h : BitVec 6) (d : BitVec 5) (c : BitVec 6) (x : Option (BitVec 8)) (s : State) : Out :=
  runSlot g (fun st s =>
    match s.locate st h.toNat c.toNat (lendRow x).1 false true false false admitStamped with
    | .error t => .error t
    | .ok pl =>
      let mask := st.kr (BitVec.ofNat 3 (lendRow x).2)
      let ls := enabled mask
      let (vs, bad, s) := (s.touch st.asid pl).loadElems st pl (ls.map (laneOffset false))
      let now := s.stepOf st.asid
      let rs := (ls.zip vs).map fun (l, w) => (l, readStamped pl.e.decay (w % 2 ^ 32) (w / 2 ^ 32 % 2 ^ 16) now)
      let out := lanesOf fun n => match rs.find? fun p => p.1 == n with | some p => BitVec.ofNat 32 p.2.1 | none => 0
      .ok (s.setStrand (st.landLoad 8 bad fun st => (st.landV 8 d 7 mask out).landFlags 8 (joinFlags (rs.map (·.2.2)))))) s

/-! ### Gated stores -/

/-- Entries of the gate buffer in use (R244). -/
def Strand.gateUsed (st : Strand) : Nat := (st.gate.map (·.entries)).sum

/-- A store put into the gate buffer (R243, R244): mark overflow when it does not fit. -/
def Strand.gateStore (st : Strand) (pl : Place) (n : Nat) (cells : List (Nat × Byte)) (slots : List (Nat × Nat)) : Except Trap Strand :=
  if 64 < st.gateUsed + n then .error { cause := 0x0A, arg := 64 }
  else .ok { st with gate := st.gate ++ [⟨pl.h, pl.tile, cells, slots, n, st.order⟩] }

/-- A store of cells to a place's slots put into the gate buffer; one that meets a counter raises counter store (R14, R101, R30; a pageable tile's
when it is performed). -/
def State.gatePlace (s : State) (st : Strand) (pl : Place) (n : Nat) (cells : List (Nat × Byte)) (slots : List (Nat × Nat)) :
    Except Trap State :=
  if !pl.e.pageable && s.meetsCounter s.cur.tile cells then .error counterTrap
  else match st.gateStore pl n cells slots with
    | .error t => .error t
    | .ok st => .ok ((s.touch st.asid pl).setStrand st)

/-- The cells of elements at offsets with their bits; elements outside the extents are not written (R241). -/
def State.storeCells (s : State) (st : Strand) (pl : Place) (xs : List ((Nat × Nat) × Nat)) : List (Nat × Byte) :=
  (xs.map fun ((i, j), v) => match s.elemAddr s.cur.tile st.asid pl i j with
    | some a => ((List.range pl.e.elem).map (a + ·)).zip (leBytes pl.e.elem v)
    | none => []).flatten

/-- A scalar store (R240, R243): the low w bytes of Xd enter the gate buffer; metadata words 2 and 3 refuse it (R106). -/
def scalarStore (w : Nat) (g : BitVec 4) (h d c : BitVec 6) (x : Option (BitVec 8)) (s : State) : Out :=
  runSlot g (fun st s =>
    match s.locate st h.toNat c.toNat (lendRow x).1 false false true (w == 4) (admitScalarStore w) with
    | .error t => .error t
    | .ok pl =>
      let metaWord : Bool := pl.e.kind == 3 && decide (pl.e.extCol ≤ pl.col)
      if pl.e.kind == 3 && !metaWord && (isSq pl.e.fmt || pl.e.elem != w) then .error (formatTrap (0x300 + h.toNat))
      else if metaWord && decide (pl.e.extCol + 2 ≤ pl.col) then .error (sequenceTrap 0)
      else
        let v := (st.xr d).toNat
        let cells := match s.elemAddr s.cur.tile st.asid pl 0 0 with
          | some a => ((List.range w).map (a + ·)).zip (leBytes w v)
          | none => []
        s.gatePlace st pl 1 cells (s.slotMeta s.cur.tile st.asid pl 0)) s

/-- ST8 (R243). -/
def execSt8 (g : BitVec 4) (h d c : BitVec 6) (x : Option (BitVec 8)) (s : State) : Out := scalarStore 1 g h d c x s
/-- ST16 (R243). -/
def execSt16 (g : BitVec 4) (h d c : BitVec 6) (x : Option (BitVec 8)) (s : State) : Out := scalarStore 2 g h d c x s
/-- ST32 (R243). -/
def execSt32 (g : BitVec 4) (h d c : BitVec 6) (x : Option (BitVec 8)) (s : State) : Out := scalarStore 4 g h d c x s
/-- ST64 (R243). -/
def execSt64 (g : BitVec 4) (h d c : BitVec 6) (x : Option (BitVec 8)) (s : State) : Out := scalarStore 8 g h d c x s

/-- The slots of a sequence that rows i of a place name, within the extent (R243). -/
def State.slotsOf (s : State) (st : Strand) (pl : Place) (is : List Nat) : List (Nat × Nat) :=
  ((is.filter fun i => decide (pl.row + i < pl.e.extRow)).map (s.slotMeta s.cur.tile st.asid pl)).flatten

/-- A vector store (R243): the low bits of enabled lanes. -/
def vectorStore (across : Bool) (g : BitVec 4) (h : BitVec 6) (d : BitVec 5) (c : BitVec 6) (x : Option (BitVec 8)) (s : State) : Out :=
  runSlot g (fun st s =>
    let va := st.vr d
    match s.locate st h.toNat c.toNat (lendRow x).1 across (!across) true false (admitVectorStore va.tag) with
    | .error t => .error t
    | .ok pl =>
      let ls := enabled (st.kr (BitVec.ofNat 3 (lendRow x).2))
      let cells := s.storeCells st pl (ls.map fun l => (laneOffset across l, (va.lane l).toNat))
      s.gatePlace st pl 1 cells (if across then s.slotsOf st pl ls else s.slotMeta s.cur.tile st.asid pl 0)) s

/-- STV (R243). -/
def execStv (g : BitVec 4) (h : BitVec 6) (d : BitVec 5) (c : BitVec 6) (x : Option (BitVec 8)) (s : State) : Out :=
  vectorStore false g h d c x s
/-- STVX (R243). -/
def execStvx (g : BitVec 4) (h : BitVec 6) (d : BitVec 5) (c : BitVec 6) (x : Option (BitVec 8)) (s : State) : Out :=
  vectorStore true g h d c x s

/-- STT (R243): the whole tile in 16 entries; SQ blocks as they stand. The layout of an SQ sequence is open: every payload byte of the
64 slots takes a free value (notes/assumptions/7.md). -/
def execStt (g : BitVec 4) (h : BitVec 6) (d : BitVec 3) (c : BitVec 6) (x : Option (BitVec 8)) (s : State) : Out :=
  runSlot g (fun st s =>
    let r := st.tr d
    match s.locate st h.toNat c.toNat (lendRow x).1 true true true false (admitTileStore r.tag) with
    | .error t => .error t
    | .ok pl =>
      let f := pl.e.fmt
      let (cells, s) : List (Nat × Byte) × State :=
        if !isSq f then (s.storeCells st pl ((rowMajor 64).map fun (i, j) => ((i, j), tileBits r i j)), s)
        else if pl.e.kind = 3 then
          let n := s.payloadOf s.cur.tile st.asid pl.e.base
          let starts := (List.range 64).filterMap fun i => s.elemAddr s.cur.tile st.asid { pl with col := 0 } i 0
          let (bs, s) := s.freeBytes (n * starts.length)
          (((starts.map fun a => (List.range n).map (a + ·)).flatten).zip bs, s)
        else
          let n := sqBytes f
          let bs := (List.range 256).filter fun b => (List.range 16).any (blockInside pl b)
          ((bs.map fun b => ((List.range n).map (pl.frame + n * b + ·)).zip (leBytes n (tileBlock r b))).flatten, s)
      s.gatePlace st pl 16 cells (s.slotsOf st pl (List.range 64))) s

end Sys2Proof.Machine
end

