-- ==== Sys2Proof/Machine/Engines.lean ====
section
/-!
DEFINITION. What the engines share: global reads and writes with their failures (R247), the regions of the tensor table and the bind
check (R145, R247), the copy geometry (R250, R251), and the slots, queues and trigger tables (R248, R249).
-/

namespace Sys2Proof.Machine

/-- A failure after issue (R247, R344): event code, fault address, detail. -/
structure Fail where
  code : Nat
  addr : Nat
  detail : Nat
  deriving DecidableEq, Repr

/-- An engine's run: the state, the bytes written, and the failure that stopped it. -/
abbrev Ran := State × Nat × Option Fail

/-- A translation fault at a global address. -/
def faultAt (va : Nat) : Fail := ⟨0x06, va, va % 2 ^ 32⟩
/-- A failed precondition (R335). -/
def precondition : Fail := ⟨0x21, 0, 0⟩

/-- Z register k of a command. -/
def Cmd.zn (c : Cmd) (k : Nat) : Nat := (c.z[k]?.getD 0).toNat
/-- Bits [lo + len - 1 : lo] of Z register k of a command. -/
def Cmd.zf (c : Cmd) (k lo len : Nat) : Nat := c.zn k / 2 ^ lo % 2 ^ len
/-- The field whose caches a command uses. -/
def Cmd.field (c : Cmd) : Nat := fieldOf c.seat.tile

/-- The counter of a command with xk = X0: no completion counter (R247). -/
def noCounter : Nat := 2 ^ 64

/-- n bytes at a global address, read page by page with fuel (R247): an unmapped byte or a poisoned word fails. -/
def State.engineRead (s : State) (f asid : Nat) : Nat → Nat → Nat → Except Fail (List Byte)
  | 0, _, _ => .ok []
  | fuel + 1, va, n =>
    if n = 0 then .ok []
    else
      let k := min n (65536 - va % 65536)
      match s.translate f asid va false with
      | none => .error (faultAt va)
      | some a => match s.poisonIn a k with
        | some w => .error ⟨0x0E, va + (8 * w - a), 8 * w % 0x800000 / 64 * 64⟩
        | none => match s.engineRead f asid fuel (va + k) (n - k) with
          | .ok bs => .ok (s.readPhys a k ++ bs)
          | .error e => .error e

/-- n bytes at a global address. -/
def State.engRead (s : State) (f asid va n : Nat) : Except Fail (List Byte) := s.engineRead f asid (n / 65536 + 2) va n

/-! ### Writes, and the sequence slots that they meet (R106) -/

/-- The metadata records (physical keys) of the slots of a sequence whose record or payload n bytes at a physical key meet, over the pages
below CAP: some none where a record does not translate. -/
def State.slotsMet (s : State) (f asid : Nat) (h : SeqHeader) (a n : Nat) : List (Option Nat) :=
  ((List.range (h.cap / 256)).map fun p =>
    match s.pagePlace asid h p with
    | none => []
    | some (fr, b) =>
      if !(((s.pieces f asid fr (frameBytes h.payload b) false).getD []).any fun (x, k) => meets x k a n) then []
      else
        let hit : Nat → Nat → Bool := fun off k => ((s.pieces f asid (fr + off) k false).getD []).any fun (x, m) => meets x m a n
        (List.range 256).filterMap fun i =>
          if hit (64 + 16 * i) 16 || (match payloadOffset h.payload b i with | some off => hit off h.payload | none => false)
          then some (s.translate f asid (fr + 64 + 16 * i) false) else none).flatten

/-- Whether an engine may write n bytes at a physical key: every slot of a known sequence that they meet is OPEN (R106,
notes/assumptions/33.md). -/
def State.slotsWritable (s : State) (f a n : Nat) : Bool :=
  s.knownSequences.all fun (asid, hdr) => match s.translate f asid hdr false with
    | none => true
    | some ha => (s.slotsMet f asid (s.seqHeader ha) a n).all fun m => match m with
      | some m => (s.natAt (m + 8) 8).testBit 51
      | none => true

/-- Bytes written at a global address page by page, with fuel; open_: only into slots that are OPEN. -/
def State.engineWrite (s : State) (f asid : Nat) (open_ : Bool) : Nat → Nat → List Byte → State × Option Fail
  | 0, _, _ => (s, none)
  | fuel + 1, va, bs =>
    if bs.isEmpty then (s, none)
    else
      let k := 65536 - va % 65536
      match s.translate f asid va true with
      | none => (s, some (faultAt va))
      | some a =>
        if open_ && !s.slotsWritable f a (bs.take k).length then (s, some ⟨0x08, va, 0⟩)
        else State.engineWrite (s.writePhys a (bs.take k)) f asid open_ fuel (va + k) (bs.drop k)

/-- Bytes written by an engine at a global address (R247, R106). -/
def State.engWrite (s : State) (f asid va : Nat) (bs : List Byte) : State × Option Fail :=
  s.engineWrite f asid true (bs.length / 65536 + 2) va bs

/-- A range copied between global addresses page by page, with fuel, poison carried (R343); open_: only into slots that are OPEN. -/
def moveRange (f asid : Nat) (open_ : Bool) : Nat → Nat → Nat → Nat → State → State × Option Fail
  | 0, _, _, _, s => (s, none)
  | fuel + 1, src, dst, n, s =>
    if n = 0 then (s, none)
    else
      let k := min n (min (65536 - src % 65536) (65536 - dst % 65536))
      match s.translate f asid src false, s.translate f asid dst true with
      | some a, some b =>
        if open_ && !s.slotsWritable f b k then (s, some ⟨0x08, dst, 0⟩)
        else moveRange f asid open_ fuel (src + k) (dst + k) (n - k) (s.copyPhys a b k)
      | none, _ => (s, some (faultAt src))
      | _, none => (s, some (faultAt dst))

/-- n bytes copied between global addresses. -/
def State.copyRange (s : State) (f asid : Nat) (open_ : Bool) (src dst n : Nat) : State × Option Fail :=
  moveRange f asid open_ (2 * (n / 65536) + 3) src dst n s

/-- One element written by an engine (R251). -/
def State.elementWrite (s : State) (c : Cmd) (va : Nat) (bs : List Byte) : State × Option Fail := s.engWrite c.field c.asid va bs

/-! ### Regions of the table and the bind check -/

/-- The regions (global address, bytes) of entry e of handle h, those of slices in tile t's slice: map 0 resolves to t. -/
def State.entryRegions (s : State) (h : Nat) (e : Entry) (t : Nat) : List (Nat × Nat) :=
  let e := Entry.seen h e
  let size := e.tileUse
  if e.kind = 3 ∨ e.kind = 15 then []
  else if e.map = 3 then [(e.base, (e.tiles - 1) * e.tileSize + size)]
  else
    let mine := (List.range e.tiles).filter fun k => e.owner t k == some t
    mine.filterMap fun k =>
      if e.pageable then
        let (code, fr) := s.pageState e t k
        if code ≤ 1 then some (sliceAddr t fr, size) else none
      else some (sliceAddr t (e.frame k), size)

/-- GUARD as R145 resolves it for tile t's slice. -/
def Entry.guardAt (e : Entry) (t : Nat) : Nat := if e.glocal then e.guard + t * 0x800000 else e.guard

/-- The bind check of R247: the first handle whose region meets a destination range and binds it to another counter. -/
def State.bindTrap (s : State) (launch counter : Nat) (dests : List (Nat × Nat)) : Option Trap :=
  match s.imageOf launch with
  | none => none
  | some i =>
    let tiles := ((dests.filter fun d => decide (d.1 < sliceEnd)).map fun (b, m) =>
      (List.range ((b + m - 1) / 0x800000 - b / 0x800000 + 1)).map (b / 0x800000 + ·)).flatten.eraseDups
    let tiles := if tiles.isEmpty then [0] else tiles
    (i.table.find? fun (h, e) => Entry.guard e != 0 && tiles.any fun t =>
        Entry.guardAt e t != counter && (s.entryRegions h e t).any fun (a, n) => dests.any fun (b, m) => meets a n b m).map fun (h, _) =>
      { cause := 0x09, arg := h }

/-! ### Copy geometry -/

/-- The extents F0 to F3 of a copy (R251). -/
def copyExtents (c : Cmd) : List Nat :=
  let rec2 := c.zf 4 2 1 == 1
  [c.zf 2 0 32, c.zf 2 32 32, if rec2 then c.zf 4 32 16 else 1, if rec2 then c.zf 4 48 16 else 1]

/-- The strides of one side from its four fields, 0 meaning packed (R251). -/
def copyStrides (es : List Nat) (f : List Int) : List Int :=
  let e : Nat → Int := fun k => (es.getD k 0 : Nat)
  let t0 : Int := if f.getD 0 0 = 0 then 1 else f.getD 0 0
  let t1 : Int := if f.getD 1 0 = 0 then e 0 * t0 else f.getD 1 0
  let t2 : Int := if f.getD 2 0 = 0 then e 1 * t1 else f.getD 2 0
  let t3 : Int := if f.getD 3 0 = 0 then e 2 * t2 else f.getD 3 0
  [t0, t1, t2, t3]

/-- The number of elements of a copy. -/
def copyCount (c : Cmd) : Nat := (copyExtents c).foldl (· * ·) 1

/-- The offset in elements of element n, a0 fastest (R251). -/
def copyOffset (es : List Nat) (ts : List Int) (n : Nat) : Int :=
  let e := fun k => es.getD k 1
  let a0 : Int := (n % e 0 : Nat)
  let a1 : Int := (n / e 0 % e 1 : Nat)
  let a2 : Int := (n / e 0 / e 1 % e 2 : Nat)
  let a3 : Int := (n / e 0 / e 1 / e 2 : Nat)
  a0 * ts.getD 0 0 + a1 * ts.getD 1 0 + a2 * ts.getD 2 0 + a3 * ts.getD 3 0

/-- The source and destination addresses of element n of a copy, and its size; an address that leaves the 64 bits wraps. -/
def copyElement (c : Cmd) (n : Nat) : Nat × Nat × Nat :=
  let es := copyExtents c
  let size : Nat := 2 ^ c.zf 4 0 2
  let sf : Nat → Nat → Int := fun k lo => signedOf 32 (c.zf k lo 32)
  let x := copyOffset es (copyStrides es [sf 3 0, sf 3 32, sf 6 0, sf 6 32]) n
  let y := copyOffset es (copyStrides es [sf 5 0, sf 5 32, sf 7 0, sf 7 32]) n
  (lowBits 64 ((c.zn 0 : Int) + size * x), lowBits 64 ((c.zn 1 : Int) + size * y), size)

/-- The tiles that a COPYM delivers to (R252), in ascending bit order. -/
def copyTiles (c : Cmd) : List Nat :=
  let t := c.zn 1 / 0x800000
  (setBits 16 (c.zf 4 16 16)).map fun b => tileAt (tileX t + b % 4) (tileY t + b / 4)

/-- The places that a destination address goes to: itself, or for COPYM the same offset on each selected tile. -/
def copyDests (c : Cmd) (va : Nat) : List Nat :=
  if c.op = 1 then (copyTiles c).map fun (t : Nat) => lowBits 64 ((va : Int) + ((t : Int) - (c.zn 1 / 0x800000 : Nat)) * 0x800000) else [va]

/-- A CEXP's destination range of tile n (R253). -/
def cexpDest (c : Cmd) (n : Nat) : Nat × Nat :=
  let f := c.zf 4 4 4
  let d := signedOf 32 (c.zf 5 0 32)
  let stride : Int := if d = 0 then (tileBytes f : Nat) else d
  (lowBits 64 ((c.zn 1 : Int) + n * stride), tileBytes f)

/-- The destination ranges that the bind check looks at (R247). -/
def copyRegions (c : Cmd) : List (Nat × Nat) :=
  if c.op = 2 then (List.range (c.zf 2 0 32)).map (cexpDest c)
  else ((List.range (copyCount c)).map fun n =>
    let (_, y, k) := copyElement c n
    (copyDests c y).map fun a => (a, k)).flatten

/-! ### Slots, queues and trigger tables (R248, R249) -/

/-- Ops that hold a slot of the tile's copy engine. -/
def usesCopySlot (op : Nat) : Bool := op != 3 && op != 6 && op != 9 && op != 13

/-- Whether a unit is free for a command: one of 8 copy slots of the tile, or one of 64 Ballast queue entries of the field. -/
def State.unitFree (s : State) (c : Cmd) : Bool :=
  let busy := s.cmds.filter fun d => decide (2 ≤ d.phase)
  if usesCopySlot c.op then decide ((busy.filter fun d => usesCopySlot d.op && d.seat.tile == c.seat.tile).length < 8)
  else decide ((busy.filter fun d => (d.op == 6 || d.op == 9) && fieldOf d.seat.tile == c.field).length < 64)

/-- Entries of a field's trigger table in use (R40, R249). -/
def State.triggersUsed (s : State) (f : Nat) : Nat :=
  (s.cmds.filter fun d => d.phase == 0 && fieldOf d.seat.tile == f).length +
    (s.launches.filter fun l => l.phase == .armed && l.field == f).length

/-- A tile's state bits set in the owner's table (R58). -/
def State.setPageState (s : State) (e : Entry) (own k code : Nat) : State :=
  let a := sliceAddr own (e.base + 8 * k)
  let w := s.natAt a 8
  s.putNat a 8 (w / 4 * 4 + code)

/-- A command's start (R261): OFFLOAD makes its tile leaving, RECALL returning; in another state the tile is left and the command
fails when it is performed. -/
def State.startCmd (s : State) (c : Cmd) : State :=
  if c.op = 14 ∨ c.op = 15 then
    match s.entryOf c.launch c.handle with
    | none => s
    | some e =>
      let (code, _) := s.pageState e c.seat.tile (c.zf 0 0 32)
      if c.op = 14 ∧ code = 0 then s.setPageState e c.seat.tile (c.zf 0 0 32) 1
      else if c.op = 15 ∧ code = 2 then s.setPageState e c.seat.tile (c.zf 0 0 32) 3
      else s
  else s

/-- Whether an OFFLOAD or RECALL finds its tile in the state it requires. -/
def State.startOk (s : State) (c : Cmd) : Bool :=
  if c.op = 14 ∨ c.op = 15 then
    match s.entryOf c.launch c.handle with
    | none => false
    | some e => (s.pageState e c.seat.tile (c.zf 0 0 32)).1 == (if c.op = 14 then 0 else 2)
  else true

/-- The command of an id changed. -/
def State.mapCmd (s : State) (id : Nat) (f : Cmd → Cmd) : State :=
  { s with cmds := s.cmds.map fun c => if c.id == id then f c else c }

/-- A command put at the end of its unit's queue, in a phase: the commands under way stand in the order of their arrival (R248). -/
def State.arriveCmd (s : State) (c : Cmd) (phase : Nat) : State :=
  { s with cmds := s.cmds.filter (fun d => d.id != c.id) ++ [{ c with phase := phase }] }

/-- A command put under way, or failed at its start when its tile is in another state (R261): phase 3. -/
def State.runCmd (s : State) (c : Cmd) : State :=
  if s.startOk c then (s.startCmd c).arriveCmd c 2 else s.arriveCmd c 3

/-- Commands that wait with their seats frozen go on, in issue order, as units and trigger entries allow (R248, R249). -/
def State.promoteAll (s : State) : List Cmd → State
  | [] => s
  | c :: t =>
    let s' := if c.phase ≠ 1 then s
      else if c.arm.isSome then
        (if s.triggersUsed c.field < 8192 then s.mapCmd c.id fun c => { c with phase := 0 } else s)
      else if s.unitFree c then s.runCmd c else s
    State.promoteAll s' t

/-- Promotion after a unit or an entry has become free. -/
def State.promote (s : State) : State := s.promoteAll s.cmds

/-- A command issued by the current seat (R247 to R249): it goes under way, waits for its arming counter, or freezes its seat. -/
def State.issueCmd (s : State) (c : Cmd) : State :=
  let s := { s with cmds := s.cmds ++ [c], nextId := s.nextId + 1 }
  let s := s.promote
  if s.cmds.any (fun d => d.id == c.id && d.phase == 1) then
    match s.strand with
    | some st => s.setStrand { st with held := some c.id }
    | none => s
  else s

end Sys2Proof.Machine
end

