-- ==== Sys2Proof/Machine/Launching.lean ====
section
/-!
DEFINITION. Accepting a launch (R34 to R40): the descriptor's and the table's validity (R35, R51), the pending-launch store and the
trigger table.
-/

namespace Sys2Proof.Machine

/-- HOME bits that a map does not name are zero, and its tiles lie on the mesh (R51, R55). -/
def Entry.homeOk (e : Entry) : Bool :=
  match e.map with
  | 1 => e.home % 2 ^ 62 / 2 ^ 9 == 0 && decide (e.home % 512 ≤ 383)
  | 2 => e.home % 2 ^ 62 / 2 ^ 18 == 0 && decide (e.home % 16 + e.home / 2 ^ 9 % 16 + 1 ≤ 16) &&
      decide (e.home / 16 % 32 + e.home / 2 ^ 13 % 32 + 1 ≤ 24)
  | _ => e.home % 2 ^ 62 == 0

/-- An entry that makes no launch invalid (R51, R52, R55, R60, R105, R117). -/
def Entry.valid (h : Nat) (e : Entry) : Bool :=
  e.kind == 15 ||
  (decide (e.kind ≤ 5) && decide (e.fmt ≤ 10) && decide (1 ≤ e.rank) && decide (e.rank ≤ 4) &&
    entryField e 6 17 47 == 0 && entryField e 7 0 64 == 0 &&
    ((List.range 4).all fun d => decide (d < e.rank) || e.ext d == 0) && e.base % 64 == 0 && e.homeOk &&
    (if e.kind = 2 then decide (e.decay ≤ 0x3F800000) else e.decay == 0) &&
    (if e.kind = 1 then e.tstride % 64 == 0 && decide (tileBytes e.fmt + 784 ≤ e.tstride) else e.tstride == 0) &&
    !(e.pageable && e.map == 3) && !(e.glocal && (e.map == 3 || decide (0x800000 ≤ e.guard))) &&
    !(e.kind == 3 && e.rank != 2) && !(h == 0 && e.map == 3) &&
    (e.kind == 3 || e.map == 3 || e.tiles == 0 ||
      (if e.pageable then decide (e.base + 8 * e.tiles ≤ 0x800000)
       else decide (e.base + (e.tiles - 1) / (Entry.seen h e).owners * e.tileSize + e.tileUse ≤ 0x800000))))

/-- The tiles that H0's placement map names (R56): none under map 0. -/
def Entry.placementTiles (e : Entry) : List Nat :=
  if e.kind = 15 ∨ e.map = 0 then [] else (List.range e.owners).filterMap (e.ownerTile 0)

/-- Whether the table of a launch's image is valid (R51); a gang launch's map 2 rectangle lies in one field (R56), and a placement map that
names a fenced field is refused with it (R365). -/
def State.tableValid (s : State) (l : Launch) : Bool :=
  match s.imageAt (l.word 0) with
  | none => true
  | some i =>
    i.table.all (fun (h, e) => Entry.valid h e) &&
    (match assocFind 0 i.table with
      | some e =>
        let ts := Entry.placementTiles e
        !(l.gang && Entry.map e == 2 && ts.any fun t => some (fieldOf t) != ts.head?.map fieldOf) && !(ts.any fun t => s.fenced (fieldOf t))
      | none => true)

/-- A pageable entry's tile table as tile t's layout unit checks it when it loads the table (R51). -/
def State.tileTableValid (s : State) (l : Launch) (t : Nat) : Bool :=
  match s.imageAt (l.word 0) with
  | none => true
  | some i => i.table.all fun (h, e) =>
      !(Entry.pageable e && Entry.kind e != 15) || (List.range (Entry.tiles e)).all fun k =>
        (Entry.seen h e).owner t k != some t ||
          (let w := s.natAt (sliceAddr t (Entry.base e + 8 * k)) 8
           decide (2 ≤ w % 4) || decide (w / 64 * 64 + Entry.tileUse e ≤ 0x800000))

/-- A descriptor that R35 admits. -/
def Launch.valid (l : Launch) : Bool :=
  l.word 2 / 2 ^ 62 == 0 && l.word 5 / 2 ^ 32 == 0 && l.word 0 % 16 == 0 && l.word 2 / 2 ^ 59 % 8 != 7 && l.tsize != 0 &&
    !(l.gang && decide (128 < l.tsize)) && decide (l.count < 2 ^ 48) && decide (l.tbase + ceilDiv l.count l.tsize < 2 ^ 32)

/-- Entries of a field's pending-launch store in use (R39). -/
def State.pendingUsed (s : State) (f : Nat) : Nat := (s.launches.filter fun l => l.phase == .pending && l.field == f).length

/-- Whether a field has room for a descriptor (R39): 4,096 pending launches, 8,192 triggers. -/
def State.launchRoom (s : State) (f : Nat) (armed : Bool) : Bool :=
  decide (s.pendingUsed f < 4096) && (!armed || decide (s.triggersUsed f < 8192))

/-- An event record about a launch for its issuer, with DONE in W2, a fault address and a detail (R35, R344): that of a host's descriptor goes to its
queue's event sequence. -/
def State.launchReport (s : State) (l : Launch) (code fault detail : Nat) : State :=
  match l.issuer with
  | .strand _ sid tile => s.event l.asid code 13 tile sid (l.word 4) fault detail
  | .queue evt =>
    match s.eventTo l.asid evt [code + 0xFF * 2 ^ 8 + l.asid * 2 ^ 16, 0, l.word 4, 0, 0, fault, detail, s.stepOf l.asid] with
    | (true, s) => s
    | (false, s) => (s.counterAdd (idWord l.asid 7) 1).1

/-- A launch's failure without an address. -/
def State.launchEvent (s : State) (l : Launch) (code : Nat) : State := s.launchReport l code 0 0

/-- A descriptor accepted by a field with room for it (R35, R39, R40): an invalid one creates nothing and writes its event record. -/
def State.acceptLaunch (s : State) (l : Launch) : State :=
  if !l.valid || !s.tableValid l then s.launchEvent l 0x22
  else { s with launches := s.launches ++ [{ l with id := s.nextId, since := s.tick, phase := if l.word 6 = 0 then .pending else .armed }],
                nextId := s.nextId + 1, tick := s.tick + 1 }

end Sys2Proof.Machine
end

