-- ==== Sys2Proof/Machine/Engine.lean ====
section
/-!
DEFINITION. Engine commands (R247 to R261, R39): class 0xC. A slot makes its checks, captures its window and hands the command over;
what the command does when its engine performs it is in Machine/EngineRun.lean.
-/

namespace Sys2Proof.Machine

/-- The fields of an engine slot (R248): acq, rel, scope, xk, xm and ARM. -/
structure EcFields where
  q : BitVec 1
  r : BitVec 1
  s : BitVec 3
  k : BitVec 6
  m : BitVec 6
  w : BitVec 1
  deriving DecidableEq, Repr

/-- The command that a slot captures at its issue (R247, R249). -/
def makeCmd (s : State) (st : Strand) (op : Nat) (f : EcFields) (handle : Nat) : Cmd :=
  { id := s.nextId, op := op, phase := 1, seat := s.cur, asid := st.asid, launch := st.launch,
    sid := if f.w = 1 then 0 else st.recAddr / 64, z := st.z, counter := if f.k = 0 then noCounter else (st.xr f.k).toNat,
    acq := f.q == 1, rel := f.r == 1, scope := f.s.toNat,
    arm := if f.w = 1 then some ((st.xr f.m).toNat, (st.regs.xAt (f.m.toNat + 1)).toNat) else none,
    handle := handle, now := s.stepOf st.asid, owner := st.recAddr, moved := [], leased := [], awaits := [], frames := [], adds := [],
    length := none }

/-- format 0x400 + z (R247). -/
def windowTrap (z : Nat) : Trap := formatTrap (0x400 + z)

/-- The first failing window check, as the number of its Z register. -/
def firstBad (cs : List (Bool × Nat)) : Option Trap := (cs.find? fun c => !c.1).map fun c => windowTrap c.2

/-- The seat's operations on their way that a command reads after (R151): those to the tile's own slice, with acq all of them. -/
def State.settleCmd (s : State) (st : Strand) (c : Cmd) : State := if c.acq then s.settleAll st else s.settleSlice st s.cur.tile

/-- A command's issue (R247): a mark, the window's checks, the bind check on its destination ranges, then the hand-over, after the operations that
it reads after (R151). -/
def commandSlot (g : BitVec 4) (op : Nat) (f : EcFields) (handle : Nat) (check : State → Strand → Cmd → Option Trap)
    (dests : State → Cmd → List (Nat × Nat)) (s : State) : Out :=
  markSlot g (fun st s =>
    let c := makeCmd s st op f handle
    match check s st c with
    | some t => .error t
    | none => match s.bindTrap st.launch c.counter (dests s c) with
      | some t => .error t
      | none => .ok ((s.settleCmd st c).issueCmd c)) s

/-- The window checks that COPY, COPYM and CEXP share (R250). -/
def copyChecks (c : Cmd) : List (Bool × Nat) :=
  let size := 2 ^ c.zf 4 0 2
  let rec2 := c.zf 4 2 1 == 1
  [(c.zn 0 % size == 0, 0), (c.zn 1 % size == 0, 1),
   (c.zf 4 8 8 == 0 && c.zf 4 3 1 == 0 && (rec2 || c.zf 4 32 32 == 0), 4), (rec2 || c.zn 6 == 0, 6), (rec2 || c.zn 7 == 0, 7)]

/-- COPY (R250, R251). -/
def execCopy (g : BitVec 4) (q r : BitVec 1) (sc : BitVec 3) (k m : BitVec 6) (w : BitVec 1) (s : State) : Out :=
  commandSlot g 0 ⟨q, r, sc, k, m, w⟩ 0
    (fun _ _ c => firstBad (copyChecks c ++ [(c.zf 4 16 16 == 0 && c.zf 4 4 4 == 0, 4)])) (fun _ c => copyRegions c) s

/-- A COPYM mask that R252 admits: at least one tile, none beyond column 15 or row 23. -/
def copymMaskOk (c : Cmd) : Bool :=
  let t := c.zn 1 / 0x800000
  c.zf 4 16 16 != 0 && (setBits 16 (c.zf 4 16 16)).all fun b => decide (tileX t + b % 4 ≤ 15) && decide (tileY t + b / 4 ≤ 23)

/-- COPYM (R252). -/
def execCopym (g : BitVec 4) (q r : BitVec 1) (sc : BitVec 3) (k m : BitVec 6) (w : BitVec 1) (s : State) : Out :=
  commandSlot g 1 ⟨q, r, sc, k, m, w⟩ 0
    (fun _ _ c => firstBad ((decide (c.zn 1 < sliceEnd), 1) :: copyChecks c ++ [(c.zf 4 4 4 == 0, 4), (copymMaskOk c, 4)]))
    (fun _ c => copyRegions c) s

/-- CEXP (R253). -/
def execCexp (g : BitVec 4) (q r : BitVec 1) (sc : BitVec 3) (k m : BitVec 6) (w : BitVec 1) (s : State) : Out :=
  commandSlot g 2 ⟨q, r, sc, k, m, w⟩ 0
    (fun _ _ c => firstBad (copyChecks c ++
      [(c.zf 3 0 32 != 0, 3), (c.zf 4 16 16 == 0 && c.zf 2 32 32 == 1 && c.zf 4 2 1 == 0 && c.zf 4 0 2 == 0, 4),
       (decide (1 ≤ c.zf 4 4 4) && decide (c.zf 4 4 4 ≤ 10), 4)])) (fun _ c => copyRegions c) s

/-! ### GATH -/

/-- A Z register of the strand. -/
def Strand.zNat (st : Strand) (k : Nat) : Nat := (st.zr k).toNat

/-- Row l of a gather resolved (R254): the address of its first element. A leaving tile serves it (R58, notes/assumptions/65.md). -/
def State.gatherRow (s : State) (st : Strand) (e : Entry) (h row : Nat) : Except Trap Nat :=
  let z8 := st.zNat 8
  let z9 := st.zNat 9
  let col := z8 / 2 ^ 32
  let cs := match e.rank with
    | 2 => [row, col]
    | 3 => [z9 % 2 ^ 32, row, col]
    | _ => [z9 % 2 ^ 32, z9 / 2 ^ 32, row, col]
  match e.rowCol cs 0 with
  | none => .error (notLocal 0xFFFF)
  | some (plane, r, cl) =>
    if !e.inside r cl then .error (notLocal 0xFFFF)
    else
      let k := e.tileNumber plane r cl
      match e.owner s.cur.tile k with
      | none => .error (notLocal 0xFFFF)
      | some o =>
        if o ≠ s.cur.tile then .error (notLocal o)
        else if e.pageable then
          let (code, fr) := s.pageState e o k
          if 2 ≤ code then .error (s.residencyTrap o h e k code)
          else if 0x800000 < fr + e.tileUse then .error (notLocal 0xFFFF) else .ok (sliceAddr o fr + e.elem * (64 * (r % 64)))
        else .ok (sliceAddr o (e.frame k) + e.elem * (64 * (r % 64)))

/-- The rows of a gather in lane order, none for a lane off in the mask (R61). -/
def State.gatherRows (s : State) (st : Strand) (e : Entry) (h : Nat) (v : VReg) (mask : Word) : List Nat → Except Trap (List (Option Nat))
  | [] => .ok []
  | l :: ls =>
    if !mask.getLsbD l then
      match s.gatherRows st e h v mask ls with
      | .ok rs => .ok (none :: rs)
      | .error t => .error t
    else match s.gatherRow st e h (v.lane l).toNat with
      | .error t => .error t
      | .ok a => match s.gatherRows st e h v mask ls with
        | .ok rs => .ok (some a :: rs)
        | .error t => .error t

/-- GATH (R61, R254): the latch lands at +12; a poisoned row raises its trap then. The rows are those of the issue step, after the seat's operations on
their way to them (R143; notes/assumptions/6.md). -/
def execGath (g : BitVec 4) (v : BitVec 5) (s : State) : Out :=
  markSlot g (fun st s =>
    let z8 := st.zNat 8
    let h := z8 % 64
    let va := st.vr v
    if z8 / 2 ^ 19 % 2 ^ 13 ≠ 0 ∨ z8 / 2 ^ 6 % 2 ^ 10 ≠ 0 ∨ z8 / 2 ^ 32 % 64 ≠ 0 then .error (windowTrap 8)
    else if va.tag ≠ 4 then .error (formatTrap (0x210 + v.toNat))
    else match s.entryOf st.launch h with
      | none => .error (notLocal 0xFFFF)
      | some e =>
        if e.kind ≠ 0 ∨ e.rank = 1 ∨ !(e.fmt == 1 || e.fmt == 5 || e.fmt == 6) then .error (windowTrap 8)
        else if e.rank = 2 ∧ st.zNat 9 % 2 ^ 32 ≠ 0 then .error (windowTrap 9)
        else
          let mask := st.kr (BitVec.ofNat 3 (z8 / 2 ^ 16))
          match s.gatherRows st e h va mask (List.range 64) with
          | .error t => .error t
          | .ok rows =>
            let w := e.elem
            let n := min 64 (e.extCol - z8 / 2 ^ 32)
            let read := (rows.filterMap id).map fun a => (a, w * n)
            let s := s.settleWords st read
            let bytes : Nat → List Byte := fun a => s.readPhys a (w * n) ++ List.replicate (w * (64 - n)) 0
            .ok (s.setStrand (st.land 12 (match poisonMet [] s read with
              | some w => .gtrap (poisonTrap st w)
              | none => .glatch ⟨BitVec.ofNat 4 e.fmt, rows.map fun r => r.map bytes⟩)))) s

/-! ### POOL -/

/-- A local entry of POOL: slice-homed, dense, with the rank and format given. -/
def poolEntry (e : Option Entry) (rank : Nat) (fmts : List Nat) : Bool :=
  match e with
  | some e => e.kind == 0 && e.rank == rank && fmts.contains e.fmt && e.map != 3
  | none => false

/-- The handles TH, IH, DH, EH of POOL's window (R255). -/
def poolHandle (c : Cmd) (k : Nat) : Nat := c.zf 8 (6 * k) 6

/-- POOL's checks at issue (R255). -/
def poolCheck (s : State) (st : Strand) (c : Cmd) : Option Trap :=
  let ent : Nat → Option Entry := fun k => s.entryOf st.launch (poolHandle c k)
  if (List.range 4).any fun k => (ent k).isNone then some (notLocal 0xFFFF)
  else
    let table := match ent 0 with | some e => poolEntry (some e) 2 [1, 5, 6] && (e.map == 1 || e.map == 2) && decide (e.owners ≤ 64) | none => false
    let i8 := match ent 0 with | some e => e.fmt == 1 | none => false
    firstBad [(c.zf 8 24 8 == 0 && decide (1 ≤ c.zf 8 32 32) && decide (c.zf 8 32 32 ≤ 4096), 8),
      (table && poolEntry (ent 1) 1 [4] && poolEntry (ent 2) 2 [if i8 then 3 else 7] && poolEntry (ent 3) 1 [4], 8),
      (decide (1 ≤ c.zf 9 32 32) && decide (c.zf 9 32 32 ≤ 4096), 9), (c.zf 10 32 32 % 64 == 0, 10)]

/-- The address of element (row, col) of an entry on a tile (R54, R55): none outside the extents, owned by another tile, or not served there: a
leaving tile serves reads only (R58). -/
def State.localElem (s : State) (write : Bool) (e : Entry) (t row col : Nat) : Option Nat :=
  if !e.inside row col then none
  else
    let k := e.tileNumber 0 row col
    if e.owner t k ≠ some t then none
    else
      let off := e.elem * (64 * (row % 64) + col % 64)
      if e.pageable then
        let (code, fr) := s.pageState e t k
        if (code = 0 || (code == 1 && !write)) && decide (fr + e.tileUse ≤ 0x800000) then some (sliceAddr t fr + off) else none
      else some (sliceAddr t (e.frame k) + off)

/-- POOL's destination rows (R255): 64 columns of B·NOWN rows from DROW. -/
def poolDests (s : State) (c : Cmd) : List (Nat × Nat) :=
  match s.entryOf c.launch (poolHandle c 2), s.entryOf c.launch (poolHandle c 0) with
  | some d, some t => (List.range (c.zf 9 32 32 * t.owners)).filterMap fun n =>
      (s.localElem true d c.seat.tile (c.zf 10 0 32 + n) 0).map fun a => (a, 4 * min 64 d.extCol)
  | _, _ => []

/-- POOL (R255). -/
def execPool (g : BitVec 4) (q r : BitVec 1) (sc : BitVec 3) (k m : BitVec 6) (w : BitVec 1) (s : State) : Out :=
  commandSlot g 4 ⟨q, r, sc, k, m, w⟩ 0 poolCheck poolDests s

/-! ### Sequence commands (R256): the fields that a command does not name are zero -/

/-- SFORK (R112). -/
def execSfork (g : BitVec 4) (q r : BitVec 1) (sc : BitVec 3) (k m : BitVec 6) (w : BitVec 1) (s : State) : Out :=
  commandSlot g 5 ⟨q, r, sc, k, m, w⟩ 0
    (fun _ _ c => firstBad ((c.zf 18 32 32 == 0, 18) :: [19, 20, 21, 22, 23].map fun z => (c.zn z == 0, z))) (fun _ _ => []) s

/-- The pass record's range (R140): 64 + 16·pages bytes at REC. -/
def passRecord (c : Cmd) (pages : Nat) : List (Nat × Nat) := [(c.zn 21, 64 + 16 * pages)]

/-- Pages that SRETIRE's range touches (R257). -/
def sretirePages (c : Cmd) : Nat := (c.zf 17 0 32 + c.zf 17 32 32 - 1) / 256 - c.zf 17 0 32 / 256 + 1

/-- SRETIRE (R257). -/
def execSretire (g : BitVec 4) (q r : BitVec 1) (sc : BitVec 3) (k m : BitVec 6) (w : BitVec 1) (s : State) : Out :=
  commandSlot g 6 ⟨q, r, sc, k, m, w⟩ 0
    (fun _ _ c => firstBad ((decide (1 ≤ c.zf 17 32 32) && decide (c.zf 17 32 32 ≤ 65536), 17) ::
      [18, 19, 20, 22, 23].map fun z => (c.zn z == 0, z))) (fun _ c => passRecord c (sretirePages c)) s

/-- STLD (R126); its own conditions fail the command with an event record. -/
def execStld (g : BitVec 4) (q r : BitVec 1) (sc : BitVec 3) (k m : BitVec 6) (w : BitVec 1) (s : State) : Out :=
  commandSlot g 7 ⟨q, r, sc, k, m, w⟩ 0
    (fun _ _ c => firstBad ([18, 19, 20, 21, 22, 23].map fun z => (c.zn z == 0, z))) (fun _ _ => []) s

/-- STINV (R127): LOCK is ignored. -/
def execStinv (g : BitVec 4) (q r : BitVec 1) (sc : BitVec 3) (k m : BitVec 6) (w : BitVec 1) (s : State) : Out :=
  commandSlot g 8 ⟨q, r, sc, k, m, w⟩ 0
    (fun _ _ c => firstBad ((c.zf 17 42 21 == 0 && decide (1 ≤ c.zf 17 32 10) && decide (c.zf 17 32 10 ≤ 512), 17) :: [18, 19, 20, 21, 22, 23].map fun z => (c.zn z == 0, z))) (fun _ _ => []) s

/-- Pages that a BALLAST names (R136), those below LEN for NPG = 0. -/
def ballastPages (s : State) (c : Cmd) : Nat :=
  if c.zf 22 32 32 ≠ 0 then c.zf 22 32 32
  else match s.translate c.field c.asid (c.zn 16) false with
    | some a => ceilDiv (s.natAt a 8) 256
    | none => 0

/-- BALLAST (R136). -/
def execBallast (g : BitVec 4) (q r : BitVec 1) (sc : BitVec 3) (k m : BitVec 6) (w : BitVec 1) (s : State) : Out :=
  commandSlot g 9 ⟨q, r, sc, k, m, w⟩ 0
    (fun _ _ c => firstBad [(c.zf 17 32 32 == 0, 17), (c.zf 18 32 32 == 0, 18), (c.zf 19 32 32 == 0, 19),
      (c.zn 20 / 2 ^ 9 == 0 && decide (c.zf 20 0 9 ≤ 256), 20)]) (fun s c => passRecord c (ballastPages s c)) s

/-! ### Fabric commands -/

/-- The window checks of R258; FRED's ETAG is FP32 or I32. -/
def fabricChecks (fred : Bool) (c : Cmd) : List (Bool × Nat) :=
  [(c.zn 24 % 64 == 0, 24), (c.zn 25 % 64 == 0, 25), (c.zf 26 32 32 % 64 == 0 && c.zf 26 32 32 != 0 && c.zf 26 9 23 == 0, 26),
   (c.zn 28 / 16 == 0 && (if fred then c.zn 28 == 7 || c.zn 28 == 3 else c.zn 28 == 0), 28),
   (c.zn 29 == 0, 29), (c.zn 30 == 0, 30), (c.zn 31 == 0, 31)]

/-- FPUT (R258). -/
def execFput (g : BitVec 4) (q r : BitVec 1) (sc : BitVec 3) (k m : BitVec 6) (w : BitVec 1) (s : State) : Out :=
  commandSlot g 10 ⟨q, r, sc, k, m, w⟩ 0 (fun _ _ c => firstBad (fabricChecks false c))
    (fun s c => if c.zf 26 0 9 = s.fabric.self then [(c.zn 25, c.zf 26 32 32)] else []) s
/-- FGET (R258). -/
def execFget (g : BitVec 4) (q r : BitVec 1) (sc : BitVec 3) (k m : BitVec 6) (w : BitVec 1) (s : State) : Out :=
  commandSlot g 11 ⟨q, r, sc, k, m, w⟩ 0 (fun _ _ c => firstBad (fabricChecks false c)) (fun _ c => [(c.zn 24, c.zf 26 32 32)]) s
/-- FRED (R258, R259). -/
def execFred (g : BitVec 4) (q r : BitVec 1) (sc : BitVec 3) (k m : BitVec 6) (w : BitVec 1) (s : State) : Out :=
  commandSlot g 12 ⟨q, r, sc, k, m, w⟩ 0 (fun _ _ c => firstBad (fabricChecks true c)) (fun _ _ => []) s

/-! ### LAUNCH, OFFLOAD, RECALL -/

/-- LAUNCH (R39, R260): the descriptor in Z16 to Z23, the pair receiving acceptance at +1; a release covers every earlier write of the strand. -/
def execLaunch (g : BitVec 4) (r : BitVec 1) (_sc : BitVec 3) (p : BitVec 3) (s : State) : Out :=
  markSlot g (fun st s =>
    let words : Vector Word 8 := Vector.ofFn fun k : Fin 8 => st.zr (16 + k.val)
    let f := fieldOf s.cur.tile
    let armed := (words[6]?.getD 0) != 0
    let ok := s.launchRoom f armed
    let s := if r = 1 then s.settleAll st else s
    let s := s.setStrand (st.landPair 1 (2 * p.toNat) ok)
    if !ok then .ok s
    else
      .ok (s.acceptLaunch { id := 0, field := f, words := words, asid := st.asid, pri := min (fieldAt (words[2]?.getD 0) 48 8) st.pri,
                            issuer := .strand s.cur (st.recAddr / 64) s.cur.tile, phase := .pending, created := 0, exited := 0, lost := false,
                            args := none, tiles := [], agePeriod := 0, ceiling := 0, short := false, since := 0 })) s

/-- The checks of OFFLOAD and RECALL (R261), with RECALL's own GUARD. -/
def pageCheck (back : Bool) (s : State) (st : Strand) (c : Cmd) : Option Trap :=
  match s.entryOf st.launch c.handle with
  | none => some (notLocal 0xFFFF)
  | some e =>
    if !e.pageable ∨ e.map = 3 then some (formatTrap (0x300 + c.handle))
    else if c.zf 0 32 32 ≠ 0 ∨ e.tiles ≤ c.zf 0 0 32 then some (windowTrap 0)
    else if c.zn 1 % 64 ≠ 0 then some (windowTrap 1)
    else match e.owner s.cur.tile (c.zf 0 0 32) with
      | none => some (notLocal 0xFFFF)
      | some o =>
        if o ≠ s.cur.tile then some (notLocal o)
        else if back then
          if c.zn 1 / 0x800000 ≠ s.cur.tile ∨ 0x800000 < c.zn 1 % 0x800000 + e.tileSize then some (windowTrap 1)
          else if e.guard ≠ 0 ∧ e.guardAt s.cur.tile ≠ c.counter then some { cause := 0x09, arg := c.handle }
          else none
        else none

/-- OFFLOAD (R261): its external frame is unbound. -/
def execOffload (g : BitVec 4) (q r : BitVec 1) (sc : BitVec 3) (k h : BitVec 6) (s : State) : Out :=
  commandSlot g 14 ⟨q, r, sc, k, 0, 0⟩ h.toNat (pageCheck false) (fun _ _ => []) s
/-- RECALL (R261). -/
def execRecall (g : BitVec 4) (q r : BitVec 1) (sc : BitVec 3) (k h : BitVec 6) (s : State) : Out :=
  commandSlot g 15 ⟨q, r, sc, k, 0, 0⟩ h.toNat (pageCheck true)
    (fun s c => match s.entryOf c.launch c.handle with | some e => [(c.zn 1, e.tileSize)] | none => []) s

end Sys2Proof.Machine
end

