-- ==== Sys2Proof/Machine/EngineRun.lean ====
section
/-!
DEFINITION. What engine commands do when they are performed (R112, R126, R127, R251 to R259, R261): each run gives the state, the
bytes written and the failure that stopped it. COPY, COPYM and CEXP may also move a single element in a step (notes/assumptions/13.md).
-/

namespace Sys2Proof.Machine

/-- A result of a step of a run carried on, or the run stopped (R247: writes made before a failure stand). -/
def goOnWith (done n : Nat) (x : State × Option Fail) (next : State → Nat → Ran) : Ran :=
  match x with
  | (s, none) => next s (done + n)
  | (s, some e) => (s, done, some e)

/-- A list of bytes written at every destination of an element. -/
def writeEach (c : Cmd) (bs : List Byte) : List Nat → State → State × Option Fail
  | [], s => (s, none)
  | a :: t, s => match s.elementWrite c a bs with
    | (s, none) => writeEach c bs t s
    | (s, some e) => (s, some e)

/-- k elements of a COPY or COPYM from element n on (R251, R252). -/
def copyLoop (c : Cmd) : Nat → Nat → State → Nat → Ran
  | 0, _, s, done => (s, done, none)
  | k + 1, n, s, done =>
    let (x, y, size) := copyElement c n
    match s.engRead c.field c.asid x size with
    | .error e => (s, done, some e)
    | .ok bs => goOnWith done size (writeEach c bs (copyDests c y) s) (copyLoop c k (n + 1))

/-! ### CEXP -/

/-- The frame's byte k as CEXP may read it (R253): no further than SS0 bytes. -/
def cexpByte (s : State) (c : Cmd) (n k : Nat) : Byte :=
  let d := signedOf 32 (c.zf 3 0 32)
  if k < d.natAbs then
    match s.translate c.field c.asid (lowBits 64 ((c.zn 0 : Int) + n * d) + k) false with
    | some a => memRead s.mem a
    | none => 0
  else 0

/-- The ranges of a frame that the expansion reads. -/
def cexpRanges (s : State) (c : Cmd) (n : Nat) : List (Nat × Nat) :=
  let f := c.zf 4 4 4
  let d := signedOf 32 (c.zf 3 0 32)
  let base := lowBits 64 ((c.zn 0 : Int) + n * d)
  let at_ := cexpByte s c n
  let off : Nat → Nat := fun g => leNat [at_ (2 * g), at_ (2 * g + 1)]
  let head := if isSq f then 32 else 0
  (base, min 32 d.natAbs) :: (if frameConsistent f at_ then (List.range 16).map fun g =>
    (base + off g, min ((unpackRows f at_ 4 (off g + head)).2 - off g) (d.natAbs - off g)) else [])

/-- The first failure of reading ranges. -/
def readRanges (s : State) (c : Cmd) : List (Nat × Nat) → Option Fail
  | [] => none
  | (a, n) :: t => match s.engRead c.field c.asid a n with
    | .error e => some e
    | .ok _ => readRanges s c t

/-- k frames of a CEXP from frame n on (R253): an inconsistent frame has free element values (notes/assumptions/7.md). -/
def cexpLoop (c : Cmd) : Nat → Nat → State → Nat → Ran
  | 0, _, s, done => (s, done, none)
  | k + 1, n, s, done =>
    let f := c.zf 4 4 4
    match readRanges s c (cexpRanges s c n) with
    | some e => (s, done, some e)
    | none =>
      let (bs, s) := if frameConsistent f (cexpByte s c n) then (unpackFrame f (cexpByte s c n), s) else s.freeBytes (tileBytes f)
      let (y, size) := cexpDest c n
      goOnWith done size (s.elementWrite c y bs) (cexpLoop c k (n + 1))

/-! ### POOL -/

/-- n 32-bit elements of a rank-1 local tensor from element i on (R255). -/
def poolList (s : State) (c : Cmd) (e : Entry) : Nat → Nat → Except Fail (List Nat)
  | 0, _ => .ok []
  | n + 1, i =>
    match s.localElem false e c.seat.tile (i / 64) (i % 64) with
    | none => .error ⟨0x05, 0, 0xFFFF⟩
    | some a => match s.engRead c.field c.asid a 4 with
      | .error f => .error f
      | .ok bs => match poolList s c e n (i + 1) with
        | .ok r => .ok (leNat bs :: r)
        | .error f => .error f

/-- The 64 values of a table row from a column on, as its owner reads them (R62): 0 beyond the column extent. A column at or above the extent has no
element to read, and the command fails with code 0x06: the model's choice (notes/assumptions/37.md). -/
def poolRow (s : State) (c : Cmd) (e : Entry) (row col : Nat) : Except Fail (List Val) :=
  match e.owner 0 (e.tileNumber 0 row col) with
  | none => .error ⟨0x05, 0, 0xFFFF⟩
  | some t => match s.localElem false e t row col with
    | none => .error ⟨0x06, 0, e.tileNumber 0 row col⟩
    | some a =>
      let w := e.elem
      let n := min 64 (e.extCol - col)
      match s.engRead c.field c.asid a (w * n) with
      | .error f => .error f
      | .ok bs => .ok ((List.range 64).map fun j => if j < n then valueOf e.fmt (leNat ((bs.drop (w * j)).take w)) else .num false 0 0)

/-- Rows read in list order. -/
def poolRows (s : State) (c : Cmd) (e : Entry) (col : Nat) : List Nat → Except Fail (List (List Val))
  | [] => .ok []
  | r :: t => match poolRow s c e r col with
    | .error f => .error f
    | .ok x => match poolRows s c e col t with
      | .ok xs => .ok (x :: xs)
      | .error f => .error f

/-- One column's sum, 64 rows to a beat (R255): R91, or R92 for I8. -/
def poolSum (ints : Bool) (j : Nat) : List (List (List Val)) → Nat → Nat
  | [], acc => acc
  | rows :: t, acc =>
    let vs := rows.map fun r => r.getD j (.num false 0 0)
    poolSum ints j t (if ints then intSum (signedOf 32 acc) (vs.map intOfVal) else windowSum false (val32 acc :: vs)).1

/-- The partial rows written: bag b, owner number j of the owners left. A row outside the extents is passed over (notes/assumptions/37.md); one
whose tile is not resident or is owned elsewhere fails the command (R247). -/
def poolOwners (c : Cmd) (te de : Entry) (idx : List Nat) (row : Nat) : List Nat → State → Nat → Ran
  | [], s, done => (s, done, none)
  | t :: ts, s, done =>
    let col := c.zf 10 32 32
    let mine := idx.filter fun i => te.owner 0 (te.tileNumber 0 i col) == some t
    match poolRows s c te col mine with
    | .error f => (s, done, some f)
    | .ok rows =>
      let groups := runsOf 64 (rows.length + 1) rows
      let n := min 64 de.extCol
      let bs := ((List.range n).map fun j => leBytes 4 (poolSum (te.fmt == 1) j groups 0)).flatten
      if !de.inside row 0 then poolOwners c te de idx (row + 1) ts s done
      else match s.localElem true de c.seat.tile row 0 with
      | none =>
        let k := de.tileNumber 0 row 0
        (s, done, some (if de.owner c.seat.tile k = some c.seat.tile then ⟨0x06, 0, k⟩ else ⟨0x05, 0, (de.owner c.seat.tile k).getD 0xFFFF⟩))
      | some a => goOnWith done (4 * n) (s.engWrite c.field c.asid a bs) (poolOwners c te de idx (row + 1) ts)

/-- The bags in order: their first and last positions. -/
def poolBags (c : Cmd) (te de : Entry) (owners : List Nat) (idx : List Nat) : Nat → List Nat → Nat → State → Nat → Ran
  | _, [], _, s, done => (s, done, none)
  | from_, e :: es, row, s, done =>
    match poolOwners c te de ((idx.drop from_).take (e - from_)) row owners s done with
    | (s, done, none) => poolBags c te de owners idx e es (row + owners.length) s done
    | r => r

/-- Whether bag ends do not decrease and end at n (R255). -/
def bagsOk (n : Nat) : Nat → List Nat → Bool
  | e, [] => e == n
  | e, x :: t => decide (e ≤ x) && bagsOk n x t

/-- POOL performed (R62, R255). -/
def runPool (c : Cmd) (s : State) : Ran :=
  let ent : Nat → Option Entry := fun k => s.entryOf c.launch (poolHandle c k)
  match ent 0, ent 1, ent 2, ent 3 with
  | some te, some ie, some de, some be =>
    match poolList s c ie (c.zf 8 32 32) (c.zf 9 0 32), poolList s c be (c.zf 9 32 32) 0 with
    | .ok idx, .ok ends =>
      if !bagsOk (c.zf 8 32 32) 0 ends || idx.any (fun i => decide (te.extRow ≤ i)) then (s, 0, some precondition)
      else
        let owners := (List.range 384).filter fun t => (List.range te.owners).any fun j => te.ownerTile 0 j == some t
        poolBags c te de owners idx 0 ends (c.zf 10 0 32) s 0
    | .error f, _ => (s, 0, some f)
    | _, .error f => (s, 0, some f)
  | _, _, _, _ => (s, 0, some precondition)

/-! ### Sequence commands -/

/-- A valid header at a global address (R101, R102), which the command writes or only reads (R337). A command meets an invalid header as a failed
precondition, and a header that is not 64-byte aligned as it stands: the model's choices (notes/assumptions/67.md). -/
def headerAt (s : State) (c : Cmd) (write : Bool) (va : Nat) : Except Fail SeqHeader :=
  match s.translate c.field c.asid va write with
  | none => .error (faultAt va)
  | some a => let h := s.seqHeader a; if h.valid then .ok h else .error { precondition with addr := va }

/-- Pages below the fork point shared with the child (R112): k pages from page p on. One that is not VALID or does not translate fails the command
with 0x06 at the child's page-table address, and the pages shared before it stay: the model's choice (notes/assumptions/76.md). -/
def forkPages (c : Cmd) (p q : SeqHeader) : Nat → Nat → State → Nat → Ran
  | 0, _, s, done => (s, done, none)
  | k + 1, n, s, done =>
    match s.pageFrame c.asid p n, s.frameAddr c.asid p n, s.translate c.field c.asid (q.ptab + 8 * n) true with
    | some fr, some fa, some qa => forkPages c p q k (n + 1) ((s.putNat qa 8 (fr + 1)).putNat fa 8 (s.natAt fa 8 + 1)) (done + 8)
    | _, _, _ => (s, done, some (faultAt (q.ptab + 8 * n)))

/-- Steps of a run in turn, stopped by the first that fails. -/
def stepsOf : List (State → State × Option Fail) → State → State × Option Fail
  | [], s => (s, none)
  | f :: t, s => match f s with
    | (s, none) => stepsOf t s
    | r => r

/-- n zero bytes written at a global address. -/
def State.zeroRange (s : State) (f asid va n : Nat) : State × Option Fail :=
  s.engineWrite f asid false (n / 65536 + 2) va (List.replicate n 0)

/-- The boundary page (R112): slots below k copied with their metadata, the others zero. Where it is not VALID in the parent or the child, the
command fails as a failed precondition: the model's choice (notes/assumptions/76.md). -/
def forkBoundary (c : Cmd) (p q : SeqHeader) (k : Nat) (s : State) : State × Option Fail :=
  let n := k / 256
  match s.pagePlace c.asid p n, s.pageFrame c.asid q n with
  | some (src, b), some dst =>
    let slot : Nat → State → State × Option Fail := fun i s =>
      let rec_ := 64 + 16 * i
      let pay := 4160 + i * q.payload
      if i < k % 256 then
        stepsOf [fun s => s.copyRange c.field c.asid false (src + rec_) (dst + rec_) 16,
          fun s => match payloadOffset p.payload b i with
            | some off => s.copyRange c.field c.asid false (src + off) (dst + pay) q.payload
            | none => s.zeroRange c.field c.asid (dst + pay) q.payload] s
      else stepsOf [fun s => s.zeroRange c.field c.asid (dst + rec_) 16, fun s => s.zeroRange c.field c.asid (dst + pay) q.payload] s
    stepsOf ((List.range 256).map slot) s
  | _, _ => (s, some precondition)

/-- SFORK performed (R112). -/
def runSfork (c : Cmd) (s : State) : Ran :=
  match headerAt s c false (c.zn 16), headerAt s c true (c.zn 17) with
  | .ok p, .ok q =>
    let k := c.zf 18 0 32
    if p.len < k ∨ q.cap < k ∨ p.psize ≠ q.psize ∨ q.len ≠ 0 then (s, 0, some precondition)
    else match forkPages c p q (k / 256) 0 s 0 with
      | (s, done, some e) => (s, done, some e)
      | (s, done, none) =>
        let b : State × Option Fail := if k % 256 = 0 then (s, none) else forkBoundary c p q k s
        goOnWith done (if k % 256 = 0 then 0 else 4096 + 256 * q.payload) b fun s done =>
          ((((s.putNat (q.addr + 40) 8 (c.zn 16)).putNat (q.addr + 48) 4 k).putNat (q.addr + 8) 8 k).putNat q.addr 8 k, done, none)
  | .error e, _ => (s, 0, some e)
  | _, .error e => (s, 0, some e)

/-- The entry that STLD installs for a page (R126): none when the page is beyond CAP, not VALID or has a reserved bit. -/
def stldEntry (s : State) (c : Cmd) (h : SeqHeader) (p : Nat) : Option StmEntry :=
  let lock := c.zf 17 63 1 == 1
  if h.cap ≤ 256 * p then none
  else match s.wordGlobal (fieldOf (homeTile h.addr)) c.asid (h.ptab + 8 * p) with
    | none => none
    | some w =>
      if w % 2 = 0 ∨ w / 2 % 2 ^ 11 ≠ 0 then none
      else
        let plain : StmEntry := ⟨c.seat.tile, c.asid, c.zn 16, p, w / 4096 * 4096, none, lock, s.tick⟩
        if h.remap = 0 then some plain
        else match s.translate (fieldOf (homeTile h.addr)) c.asid (h.remap + 64 * p) false with
          | none => none
          | some r =>
            let v := s.natAt (r + 40) 8
            if v / 2 ≠ 0 ∨ s.natAt (r + 48) 8 ≠ 0 ∨ s.natAt (r + 56) 8 ≠ 0 then none
            else if v = 0 then some plain
            else some { plain with frame := s.natAt (r + 32) 8,
                                   bitmap := some #v[BitVec.ofNat 64 (s.natAt r 8), BitVec.ofNat 64 (s.natAt (r + 8) 8),
                                                     BitVec.ofNat 64 (s.natAt (r + 16) 8), BitVec.ofNat 64 (s.natAt (r + 24) 8)] }

/-- Whether an entry is that of a page of a command's sequence on its tile. -/
def stmOf (c : Cmd) (e : StmEntry) : Bool := e.tile == c.seat.tile && e.asid == c.asid && e.hdr == c.zn 16

/-- The longest-unused unlocked entry of the tile outside the named pages (R126); of several of one age the first in the list, which is the model's
choice (notes/assumptions/94.md). -/
def oldestEntry (es : List StmEntry) : Option StmEntry :=
  es.foldl (fun best e => match best with
    | none => some e
    | some b => if e.used < b.used then some e else some b) none

/-- Room made on a tile for need entries within its 512, with fuel: none when too few are replaceable (R125, R126). -/
def makeRoom (c : Cmd) (pages : List Nat) (need : Nat) : Nat → List StmEntry → Option (List StmEntry)
  | 0, _ => none
  | n + 1, es =>
    let here := es.filter fun e => e.tile == c.seat.tile
    if here.length + need ≤ 512 then some es
    else match oldestEntry (here.filter fun e => !e.lock && !(stmOf c e && pages.contains e.page)) with
      | none => none
      | some e => makeRoom c pages need n (es.erase e)

/-- STLD performed (R126): all or nothing. LEASES has 16 bits, and an add that passes 65,535 wraps: the model's choice (notes/assumptions/77.md). -/
def runStld (c : Cmd) (s : State) : Ran :=
  match headerAt s c (c.zf 17 63 1 == 1) (c.zn 16) with
  | .error e => (s, 0, some e)
  | .ok h =>
    let npg := c.zf 17 32 10
    let pages := (List.range npg).map (c.zf 17 0 32 + ·)
    let new := pages.filterMap (stldEntry s c h)
    if c.zf 17 42 21 ≠ 0 ∨ npg = 0 ∨ 512 < npg ∨ new.length ≠ npg then (s, 0, some precondition)
    else
      let old : Nat → Option StmEntry := fun p => s.stm.find? fun e => stmOf c e && e.page == p
      let kept := s.stm.filter fun e => !(stmOf c e && pages.contains e.page)
      let room := makeRoom c pages npg 513 kept
      match room with
      | none => (s, 0, some precondition)
      | some es =>
        let ins := new.map fun e => { e with lock := e.lock || (match old e.page with | some o => o.lock | none => false) }
        let leases := (ins.filter fun e => e.lock && !(match old e.page with | some o => o.lock | none => false)).length
        let s := { s with stm := es ++ ins, tick := s.tick + 1 }
        (if leases = 0 then s else s.putNat (h.addr + 60) 2 (s.natAt (h.addr + 60) 2 + leases), 0, none)

/-- STINV performed (R127): it never fails. -/
def runStinv (c : Cmd) (s : State) : Ran :=
  let pages := (List.range (c.zf 17 32 10)).map (c.zf 17 0 32 + ·)
  let gone := s.stm.filter fun e => stmOf c e && pages.contains e.page
  let locked := (gone.filter (·.lock)).length
  let s := { s with stm := s.stm.filter fun e => !(stmOf c e && pages.contains e.page) }
  match s.translate c.field c.asid (c.zn 16) true with
  | some a => (s.putNat (a + 60) 2 (s.natAt (a + 60) 2 - locked), 0, none)
  | none => (s, 0, none)

/-! ### Ballast -/

/-- A pass's record so far (R140). -/
structure Pass where
  examined : Nat
  retired : Nat
  compacted : Nat
  skipped : Nat
  entries : List (Nat × Nat × Nat)
  deriving DecidableEq, Repr

/-- Whether a command under way has yet to read bytes of a range (R128). -/
def State.cmdReads (s : State) (c : Cmd) (a n : Nat) : Bool :=
  let hits : Nat → Nat → Bool := fun va k => ((s.pieces c.field c.asid va k false).getD []).any fun (x, m) => meets x m a n
  c.phase == 2 && (match c.op with
    | 0 => ((List.range (copyCount c)).filter fun i => !c.moved.contains i).any fun i => let (x, _, k) := copyElement c i; hits x k
    | 1 => ((List.range (copyCount c)).filter fun i => !c.moved.contains i).any fun i => let (x, _, k) := copyElement c i; hits x k
    | 2 => ((List.range (c.zf 2 0 32)).filter fun i => !c.moved.contains i).any fun i => (cexpRanges s c i).any fun (x, k) => hits x k
    | 5 => (match headerAt s c false (c.zn 16) with
      | .ok p => (match s.pagePlace c.asid p (c.zf 18 0 32 / 256) with
        | some (fr, b) => c.zf 18 0 32 % 256 != 0 && hits fr (frameBytes p.payload b)
        | none => false)
      | .error _ => false)
    | 10 => hits (c.zn 24) (c.zf 26 32 32)
    | 11 => c.zf 26 0 9 == s.fabric.self && hits (c.zn 25) (c.zf 26 32 32)
    | 12 => hits (c.zn 24) (c.zf 26 32 32)
    | _ => false)

/-- The physical pieces of a page's frame (R103). -/
def State.framePieces (s : State) (f asid : Nat) (h : SeqHeader) (pl : Nat × Option Nat) : Option (List (Nat × Nat)) :=
  s.pieces f asid pl.1 (frameBytes h.payload pl.2) true

/-- The commands whose reads hold a page, and the mass adds in flight that do (R128, R138); pieces: its frame's. -/
def State.pageHeld (s : State) (pieces : List (Nat × Nat)) : List Nat × List MassAdd :=
  ((s.cmds.filter fun c => pieces.any fun (a, n) => s.cmdReads c a n).map (·.id),
    ((s.seats ++ s.saved).map fun (_, st) => st.adds.filter fun m =>
      pieces.any fun (a, n) => decide (a ≤ m.addr) && decide (m.addr < a + n)).flatten)

/-- The lease query of R138 on a page: unlocked entries are dropped; whether the page is leased, by a locked entry or by a read or add that the
pass found in flight when its query arrived. -/
def leaseQuery (c : Cmd) (p : Nat) (s : State) : State × Bool :=
  let mine : StmEntry → Bool := fun e => e.asid == c.asid && e.hdr == c.zn 16 && e.page == p
  ({ s with stm := s.stm.filter fun e => !(mine e) || e.lock }, s.stm.any (fun e => mine e && e.lock) || c.leased.contains p)

/-- Slots of a page retired in ascending order (R114, R137): which tells the slots to retire; fr: the frame's global address. -/
def retireSlots (c : Cmd) (h : SeqHeader) (fr page : Nat) (which : Nat → Nat → Bool) : List Nat → State → Nat → State × Nat
  | [], s, n => (s, n)
  | i :: is, s, n =>
    match s.recordKey c.field c.asid fr i true with
    | none => retireSlots c h fr page which is s n
    | some m =>
      let w := s.natAt (m + 8) 8
      if !w.testBit 48 && !w.testBit 49 && which (256 * page + i) w then
        retireSlots c h fr page which is (((s.putNat (m + 8) 8 (w + 2 ^ 48)).counterAdd (h.addr + 16) 1).1) (n + 1)
      else retireSlots c h fr page which is s n

/-- A frame taken from the free-frame list (R139): none when the list has none left; a word of the list that does not translate fails the command
(R247). -/
def takeFrame (c : Cmd) (s : State) : Except Fail (Option (Nat × State)) :=
  match s.translate c.field c.asid (c.zn 23) true with
  | none => .error (faultAt (c.zn 23))
  | some a =>
    let taken := s.natAt a 8
    if s.natAt (a + 8) 8 ≤ taken then .ok none
    else match s.wordGlobal c.field c.asid (c.zn 23 + 64 + 8 * taken) with
      | none => .error (faultAt (c.zn 23 + 64 + 8 * taken))
      | some fr => .ok (some (fr, (s.counterAdd a 1).1))

/-- The word of slot i's record that holds RETIRED and COMPACTED, in a frame at a global address. -/
def State.slotWord (s : State) (c : Cmd) (fr i : Nat) : Nat :=
  match s.recordKey c.field c.asid fr i false with
  | some m => s.natAt (m + 8) 8
  | none => 0

/-- Live slots of a frame: those not retired. -/
def liveSlots (c : Cmd) (s : State) (fr : Nat) : List Nat := (List.range 256).filter fun i => !(s.slotWord c fr i).testBit 48

/-- A mass drain with beats still to make on a page goes on in the page's new frame. -/
def Drain.retarget (old_ new_ : Nat) (d : Drain) : Drain :=
  if cfgKind d.fcfg = 3 ∧ d.destFrame = old_ then { d with destFrame := new_ } else d

/-- The mass drains of an identifier's strands go on in the new frame of a page: the old one is never written again (R139). -/
def State.retarget (s : State) (asid old_ new_ : Nat) : State :=
  let go : Nat × Strand → Nat × Strand := fun (k, st) =>
    (k, if st.asid = asid then { st with drains := st.drains.map (Drain.retarget old_ new_) } else st)
  { s with seats := s.seats.map go, saved := s.saved.map go }

/-- A page compacted into a new frame (R139): records, live payloads in ascending order, COMPACTED on the survivors, then the page-table entry
and the remap entry. All of its places translate, or nothing is done. A word of the free-frame list is written into the entry whole, its low 12 bits
with it, which should be zero: the model's choice (notes/assumptions/86.md). -/
def compactPage (c : Cmd) (h : SeqHeader) (p : Nat) (pl : Nat × Option Nat) (new : Nat) (s : State) : Option State :=
  let live := liveSlots c s pl.1
  let f := fieldOf (homeTile h.addr)
  match s.translate f c.asid (h.ptab + 8 * p) true, s.translate f c.asid (h.remap + 64 * p) true,
      s.pieces c.field c.asid new (4160 + live.length * h.payload) true with
  | some e, some r, some _ =>
    let payloads := (live.zip (List.range live.length)).map fun (i, n) => fun (s : State) =>
      match payloadOffset h.payload pl.2 i with
      | some off => s.copyRange c.field c.asid false (pl.1 + off) (new + 4160 + n * h.payload) h.payload
      | none => (s, none)
    match stepsOf ((fun s => s.copyRange c.field c.asid false pl.1 new 4160) :: payloads) s with
    | (_, some _) => none
    | (s, none) =>
      let s := live.foldl (fun s i => match s.recordKey c.field c.asid new i true with
        | some m => let w := s.natAt (m + 8) 8; s.putNat (m + 8) 8 (if w.testBit 50 then w else w + 2 ^ 50)
        | none => s) s
      some (((((s.retarget c.asid pl.1 new).putNat e 8 (new + 1)).putNat r 32 (live.map (2 ^ ·)).sum).putNat (r + 32) 8 new).putNat (r + 40) 24 1)
  | _, _, _ => none

/-- REFS and PINS of a frame's page header (R103). -/
def State.pageCounts (s : State) (c : Cmd) (fr : Nat) : Nat × Nat :=
  match s.translate c.field c.asid fr false with
  | some a => (s.natAt a 8, s.natAt (a + 8) 8)
  | none => (0, 0)

/-- The failure of a pass at a page that it cannot examine: it is not VALID or beyond CAP, or a place of it does not translate. That the pass then
ends as a failed precondition is the model's choice (notes/assumptions/78.md). -/
def pageFail (h : SeqHeader) : Fail := { precondition with addr := h.addr }

/-- One page of a BALLAST pass (R137, R138), or the failure that stops the pass. -/
def ballastPage (c : Cmd) (h : SeqHeader) (p : Nat) (s : State) (r : Pass) : Except Fail (State × Pass) :=
  match s.pagePlace c.asid h p with
  | none => .error (pageFail h)
  | some pl =>
    if h.cap ≤ 256 * p ∨ (s.framePieces c.field c.asid h pl).isNone then .error (pageFail h)
    else
    let r := { r with examined := r.examined + 1 }
    let (s, leased) := leaseQuery c p s
    let (refs, pins) := s.pageCounts c pl.1
    let skip : Nat → Except Fail (State × Pass) := fun why => .ok (s, { r with skipped := r.skipped + 1, entries := r.entries ++ [(p, why, 0)] })
    if leased then skip 2
    else if 0 < pins then skip 1
    else if 1 < refs then skip 4
    else
      let tail : Int := (h.len : Int) - (c.zf 19 0 32 : Nat)
      let thr := val32 (c.zf 17 0 32)
      let (s, n) := retireSlots c h pl.1 p (fun sl w => decide (sl < h.len) && decide (c.zf 18 0 32 ≤ sl) && decide ((sl : Int) < tail) &&
        ltVal (val32 (readStamped h.decay (w % 2 ^ 32) (w / 2 ^ 32 % 2 ^ 16) c.now).1) thr) (List.range 256) s 0
      let r := { r with retired := r.retired + n }
      let cmin := if c.zf 20 0 9 = 0 then 128 else c.zf 20 0 9
      if ((256 * (p + 1) : Nat) : Int) ≤ tail ∧ h.remap ≠ 0 ∧ (liveSlots c s pl.1).length < cmin then
        match takeFrame c s with
        | .error f => .error f
        | .ok none => .ok (s, { r with skipped := r.skipped + 1, entries := r.entries ++ [(p, 3, 0)] })
        | .ok (some (new, s')) => match compactPage c h p pl new s' with
          | some s' => .ok (s', { r with compacted := r.compacted + 1, entries := r.entries ++ [(p, 5, pl.1)] })
          | none => .error (pageFail h)
      else .ok (s, r)

/-- One page of an SRETIRE pass (R257). -/
def sretirePage (c : Cmd) (h : SeqHeader) (p : Nat) (s : State) (r : Pass) : Except Fail (State × Pass) :=
  let r := { r with examined := r.examined + 1 }
  match s.pagePlace c.asid h p with
  | none => .ok (s, r)
  | some pl =>
    if (s.framePieces c.field c.asid h pl).isNone then .error (pageFail h)
    else
    let (s, leased) := leaseQuery c p s
    let (refs, pins) := s.pageCounts c pl.1
    let skip : Nat → Except Fail (State × Pass) := fun why => .ok (s, { r with skipped := r.skipped + 1, entries := r.entries ++ [(p, why, 0)] })
    if leased then skip 2
    else if 1 < refs then skip 4
    else
      let r := if 0 < pins then { r with entries := r.entries ++ [(p, 1, 0)] } else r
      let lo := c.zf 17 0 32
      let (s, n) := retireSlots c h pl.1 p (fun sl _ => decide (sl < h.len) && decide (lo ≤ sl) && decide (sl < lo + c.zf 17 32 32))
        (List.range 256) s 0
      .ok (s, { r with retired := r.retired + n })

/-- The header of a pass (R137, R257): its length is LEN as the pass acquired it at its start, once it has started. -/
def passHeader (s : State) (c : Cmd) : Except Fail SeqHeader :=
  match headerAt s c true (c.zn 16) with
  | .ok h => .ok { h with len := c.length.getD h.len }
  | .error e => .error e

/-- Pages examined in ascending order, stopping at one that cannot be reached. -/
def passPages (page : Nat → State → Pass → Except Fail (State × Pass)) : List Nat → State → Pass → State × Pass × Option Fail
  | [], s, r => (s, r, none)
  | p :: ps, s, r => match page p s r with
    | .ok (s, r) => passPages page ps s r
    | .error f => (s, r, some f)

/-- The bytes of a pass record (R140). -/
def passBytes (r : Pass) : List Byte :=
  (([r.examined, r.retired, r.compacted, r.skipped, 0, 0, 0, 0].map (leBytes 8)).flatten) ++
    (r.entries.map fun (p, why, old) => leBytes 8 (p % 2 ^ 32 + why * 2 ^ 32) ++ leBytes 8 old).flatten

/-- A pass performed and its record written (R137, R140, R257). -/
def runPass (c : Cmd) (pages : List Nat) (page : Nat → State → Pass → Except Fail (State × Pass)) (s : State) : Ran :=
  match passPages page pages s ⟨0, 0, 0, 0, []⟩ with
  | (s, _, some e) => (s, 0, some e)
  | (s, r, none) =>
    let bs := passBytes r
    goOnWith 0 bs.length (s.engWrite c.field c.asid (c.zn 21) bs) fun s n => (s, n, none)

/-- The pages that a pass examines (R136, R257). -/
def passPageList (c : Cmd) (h : SeqHeader) : List Nat :=
  if c.op = 6 then (List.range (sretirePages c)).map (c.zf 17 0 32 / 256 + ·)
  else if c.zf 22 32 32 = 0 then List.range (ceilDiv h.len 256)
  else (List.range (c.zf 22 32 32)).map (c.zf 22 0 32 + ·)

/-- BALLAST performed (R136, R137). -/
def runBallast (c : Cmd) (s : State) : Ran :=
  match passHeader s c with
  | .error e => (s, 0, some e)
  | .ok h => runPass c (passPageList c h) (ballastPage c h) s

/-- SRETIRE performed (R257). -/
def runSretire (c : Cmd) (s : State) : Ran :=
  match passHeader s c with
  | .error e => (s, 0, some e)
  | .ok h => runPass c (passPageList c h) (sretirePage c h) s

/-- What a lease query has found of a page (R138): the page, the pieces of memory of its frame, the commands that read it and the mass adds to it. -/
structure Held where
  page : Nat
  pieces : List (Nat × Nat)
  cmds : List Nat
  adds : List MassAdd
  deriving DecidableEq, Repr

/-- The pages of a pass that reads or adds in flight hold and that it has not found so yet (R138). -/
def State.passFinds (s : State) (c : Cmd) : List Held :=
  match passHeader s c with
  | .error _ => []
  | .ok h => (passPageList c h).filterMap fun p => match s.pagePlace c.asid h p with
    | none => none
    | some pl =>
      let pieces := (s.framePieces c.field c.asid h pl).getD []
      let (ids, adds) := s.pageHeld pieces
      if c.leased.contains p || (ids.isEmpty && adds.isEmpty) then none else some ⟨p, pieces, ids, adds⟩

/-- A pass after lease queries that found pages held (R137, R138): started, if it had not, with LEN as it stands. -/
def State.passAsks (s : State) (c : Cmd) (hs : List Held) (d : Cmd) : Cmd :=
  { d with leased := d.leased ++ hs.map (·.page), awaits := d.awaits ++ (hs.map (·.cmds)).flatten.eraseDups,
           frames := d.frames ++ (hs.map (·.pieces)).flatten, adds := d.adds ++ (hs.map (·.adds)).flatten,
           length := match passHeader s c with | .ok h => some h.len | .error _ => d.length }

/-- Whether a pass still waits for what its queries found (R138): a command's reads, or mass adds. -/
def State.passWaits (s : State) (c : Cmd) : Bool :=
  s.cmds.any (fun d => c.awaits.contains d.id) || (s.seats ++ s.saved).any fun (_, st) => st.adds.any fun m => c.adds.contains m

/-- Whether a pass is the one that its field's Ballast serves now: the first to arrive of those there (R136, R248). -/
def State.passTurn (s : State) (c : Cmd) : Bool :=
  match s.cmds.find? fun d => (d.op == 6 || d.op == 9) && d.field == c.field && decide (2 ≤ d.phase) with
  | some d => d.id == c.id
  | none => false

/-! ### Fabric -/

/-- The identifier's Bridle window (R334): first and last device. -/
def State.fabricWindow (s : State) (asid : Nat) : Option (Nat × Nat) :=
  (s.fabric.win.toList.find? fun w => w.getLsbD 63 && fieldAt w 0 16 == asid && decide (fieldAt w 16 9 ≤ fieldAt w 32 9)).map fun w =>
    (fieldAt w 16 9, fieldAt w 32 9)

/-- The link that carries a 64-byte transfer at a remote address (R334). -/
def linkOf (a : Nat) : Nat := a / 4096 % 36

/-- DEV lies in the identifier's window, else code 0x21; every link of the transfers is up, else 0x20 (R258, R333, R334). -/
def fabricFail (s : State) (c : Cmd) : Option Fail :=
  let dev := c.zf 26 0 9
  match s.fabricWindow c.asid with
  | none => some precondition
  | some (lo, hi) =>
    if dev < lo ∨ hi < dev then some precondition
    else if (List.range (c.zf 26 32 32 / 64)).any fun i => !s.fabric.up.getLsbD (linkOf (c.zn 25 + 64 * i)) then some ⟨0x20, c.zn 25, 0⟩
    else none

/-- A counter at a global address counts one for a command (R144, R247): a translation fault fails the command, an overflow is reported. -/
def addCounter (f asid op tile sid va : Nat) (s : State) : State × Option Fail :=
  match s.translate f asid va true with
  | none => (s, some (faultAt va))
  | some a => match s.counterAdd a 1 with
    | (s, _, false) => (s, none)
    | (s, _, true) => (s.event asid 0x0B op tile sid va 0 0, none)

/-- The add of 1 to RCTR when the target is this device (R258): the other device's counter is outside the model. -/
def addRemote (s : State) (c : Cmd) : State × Option Fail :=
  if c.zn 27 = 0 ∨ c.zf 26 0 9 ≠ s.fabric.self then (s, none)
  else addCounter c.field c.asid c.op c.seat.tile c.sid (c.zn 27) s

/-- FPUT performed (R258). -/
def runFput (c : Cmd) (s : State) : Ran :=
  match fabricFail s c with
  | some e => (s, 0, some e)
  | none => match s.engRead c.field c.asid (c.zn 24) (c.zf 26 32 32) with
    | .error e => (s, 0, some e)
    | .ok bs =>
      let w : State × Option Fail := if c.zf 26 0 9 = s.fabric.self then s.engWrite c.field c.asid (c.zn 25) bs else (s, none)
      goOnWith 0 bs.length w fun s n => goOnWith n 0 (addRemote s c) fun s n => (s, n, none)

/-- The first n bytes that an FGET reads (R258): what another device answers is free (notes/assumptions/7.md). -/
def fgetRead (c : Cmd) (n : Nat) (s : State) : Except Fail (List Byte × State) :=
  if c.zf 26 0 9 = s.fabric.self then match s.engRead c.field c.asid (c.zn 25) n with
    | .ok bs => .ok (bs, s)
    | .error e => .error e
  else .ok ((List.range n).map fun k => Config.remoteByte s.fresh (c.zf 26 0 9) (c.zn 25 + k), { s with fresh := s.fresh + 1 })

/-- The first n bytes of an FGET read and written here. -/
def fgetWrite (c : Cmd) (n : Nat) (s : State) : Ran :=
  match fgetRead c n s with
  | .error e => (s, 0, some e)
  | .ok (bs, s) => goOnWith 0 n (s.engWrite c.field c.asid (c.zn 24) bs) fun s d => (s, d, none)

/-- FGET performed (R258): the add to RCTR follows the reads. -/
def runFget (c : Cmd) (s : State) : Ran :=
  match fabricFail s c with
  | some e => (s, 0, some e)
  | none =>
    let n := c.zf 26 32 32
    match fgetRead c n s with
    | .error e => (s, 0, some e)
    | .ok (bs, s) => goOnWith 0 0 (addRemote s c) fun s _ => goOnWith 0 n (s.engWrite c.field c.asid (c.zn 24) bs) fun s d => (s, d, none)

/-! ### OFFLOAD and RECALL -/

/-- The tile's entry written (R58, R261). -/
def State.setPage (s : State) (e : Entry) (own k frame code : Nat) : State := s.putNat (sliceAddr own (e.base + 8 * k)) 8 (frame + code)

/-- OFFLOAD or RECALL performed (R261): on a failure the tile keeps its old frame and returns to its old state. -/
def runPaging (c : Cmd) (s : State) : Ran :=
  match s.entryOf c.launch c.handle with
  | none => (s, 0, some precondition)
  | some e =>
    let k := c.zf 0 0 32
    let own := c.seat.tile
    let (_, fr) := s.pageState e own k
    if c.phase = 3 then (s, 0, some precondition)
    else if c.op = 14 then
      match s.copyRange c.field c.asid true (sliceAddr own fr) (c.zn 1) e.tileSize with
      | (s, none) => (s.setPage e own k (c.zn 1) 2, e.tileSize, none)
      | (s, some f) => (s.setPageState e own k 0, 0, some f)
    else
      match s.copyRange c.field c.asid true fr (c.zn 1) e.tileSize with
      | (s, none) => (s.setPage e own k (c.zn 1 % 0x800000) 0, e.tileSize, none)
      | (s, some f) => (s.setPageState e own k 2, 0, some f)

/-! ### Completion and failure (R247) -/

/-- A command removed; what waits for its unit goes on. -/
def State.dropCmd (s : State) (c : Cmd) : State := { s with cmds := s.cmds.filter fun d => d.id != c.id }.promote

/-- The poisoned words that a field has consumed (R359). -/
def State.consumedPoison (s : State) (f : Nat) : State := s.mapField f fun d => { d with consumed := min (d.consumed + 1) 65535 }

/-- The stride-and-extent records of a COPY, COPYM or CEXP (R250). -/
def copyRecords (c : Cmd) : Nat := if c.zf 4 2 1 = 1 then 2 else 1

/-- The event record of a command (R344): W3 the records completed, all of them by a COPY, COPYM or CEXP that has completed, else free
(notes/assumptions/7.md), W4 the bytes written. -/
def State.commandEvent (s : State) (c : Cmd) (completed : Bool) (f : Fail) (bytes : Nat) : State :=
  let ctr := if c.counter = noCounter then 0 else c.counter
  let recs := if completed ∧ c.op ≤ 2 then copyRecords c else (Config.recordsDone s.fresh).toNat
  let words := [f.code + c.op * 2 ^ 8 + c.asid * 2 ^ 16 + c.seat.tile * 2 ^ 32, c.sid, ctr, recs, bytes,
    f.addr, f.detail, s.stepOf c.asid]
  let s := { s with fresh := s.fresh + 1 }
  match s.eventTo c.asid (s.idRecord c.asid 3) words with
  | (true, s) => s
  | (false, s) => (s.counterAdd (idWord c.asid 7) 1).1

/-- A command failed (R247): no add, an event record, its unit free. -/
def State.failCmd (s : State) (c : Cmd) (f : Fail) (bytes : Nat) : State :=
  let s := s.commandEvent c false f bytes
  (if f.code = 0x0E then s.consumedPoison c.field else s).dropCmd c

/-- A command completed (R247): 1 is added to its counter, an overflow reported (R144), its unit freed. -/
def State.completeCmd (s : State) (c : Cmd) (bytes : Nat) : State :=
  if c.counter = noCounter then s.dropCmd c
  else match s.translate c.field c.asid c.counter true with
    | none => s.failCmd c (faultAt c.counter) bytes
    | some a => match s.counterAdd a 1 with
      | (s, _, false) => s.dropCmd c
      | (s, _, true) => (s.commandEvent c true ⟨0x0B, 0, 0⟩ bytes).dropCmd c

/-- A run's end: completion or failure. -/
def State.endRun (c : Cmd) (r : Ran) : State :=
  match r with
  | (s, n, none) => s.completeCmd c n
  | (s, n, some f) => s.failCmd c f n

end Sys2Proof.Machine
end

