-- ==== Sys2Proof/Machine/Sync.lean ====
section
/-!
DEFINITION. Counters, atomics, fences, teams, the step and sequences: class 0xD (R262 to R267). Operations with a result or an
acquire are performed at their issue step; the others travel to their homes (notes/assumptions/12.md).
-/

namespace Sys2Proof.Machine

/-! ### The frame of an SY slot -/

/-- The address checks of R262: the physical key, and the state with the field's cache filled. -/
def State.homeAddr (s : State) (st : Strand) (va : Nat) (write : Bool) : Except Trap (Nat × State) :=
  let f := fieldOf s.cur.tile
  if va % 8 ≠ 0 then .error (notLocal 0xFFFF)
  else match s.translate f st.asid va write with
    | none => .error { cause := 0x06, arg := va % 2 ^ 32, faddr := va }
    | some a => .ok (a, s.fillXlat f st.asid va)

/-- The operation that a slot sends; rel: it releases (R146). -/
def makeOp (s : State) (st : Strand) (op : Nat) (rel : Bool) (va key a b : Nat) : HomeOp :=
  ⟨s.nextId, s.cur, st.asid, st.launch, st.recAddr / 64, op, rel, va, key, a, b, s.stepOf st.asid⟩

/-- The seat's earlier operations that must be performed before one of it (R143, R146): all for a release, else those on its bytes. -/
def State.settleFor (s : State) (st : Strand) (o : HomeOp) : State :=
  if o.rel then s.settleAll st else s.settleWords st [(o.key, o.bytes)]

/-- An operation that does not freeze its seat sets out (R262). -/
def State.sendOp (s : State) (o : HomeOp) : State := { s with flight := s.flight ++ [o], nextId := s.nextId + 1 }

/-- An overflow of an operation that froze its seat (R144, R335): the trap is taken after the bundle. -/
def State.overflowTrap (s : State) (full : Bool) : State :=
  if full then { s with raised := some { cause := 0x0B, arg := 0, after := true } } else s

/-- An operation that freezes its seat, performed: its result and flags land one step later. -/
def freezeOp (s : State) (st : Strand) (o : HomeOp) (land : Strand → Nat → Strand) : State :=
  let (s, v, f, full) := runHome (s.settleFor st o) o
  (s.setStrand ((land st v).landFlags 1 f)).overflowTrap full

/-- An SY slot on a word, or on the n bytes of a team record (R262): a mark, the address checks, the op's own check, then its action on the physical
key. -/
def wordSlot (g : BitVec 4) (n : Nat) (addr : Strand → Nat) (write : Bool) (check : State → Strand → Nat → Nat → Option Trap)
    (act : State → Strand → Nat → Nat → State) (s : State) : Out :=
  markSlot g (fun st s =>
    let va := addr st
    match s.homeAddr st va write with
    | .error t => .error t
    | .ok (a, s) => match check s st va a with
      | some t => .error t
      | none => match s.poisonTrap a n va with
        | some t => .error t
        | none => .ok (act s st va a)) s

/-- No check of its own. -/
def noCheck : State → Strand → Nat → Nat → Option Trap := fun _ _ _ _ => none

/-- Xa as a global address. -/
def atReg (a : BitVec 6) (st : Strand) : Nat := (st.xr a).toNat

/-- Xa as a team identifier: the address of its record (R30, R31). What an operation on 0xFFFF_FFFF, which is no team's identifier, does
is the model's choice: it acts on the record that stands there (notes/assumptions/64.md). -/
def atTeam (a : BitVec 6) (st : Strand) : Nat := (st.xr a).toNat % 2 ^ 32 * 64

/-- Whether ord asks for an acquire (R179). -/
def acquires (o : BitVec 2) : Bool := o.getLsbD 0
/-- Whether ord asks for a release (R179). -/
def releases (o : BitVec 2) : Bool := o.getLsbD 1

/-- An operation that freezes its seat when it must, and travels otherwise (R262). -/
def homeOpSlot (g : BitVec 4) (op : Nat) (rel freezes : Bool) (addr : Strand → Nat) (check : State → Strand → Nat → Nat → Option Trap)
    (a b : Strand → Nat) (land : Strand → Nat → Strand) (s : State) : Out :=
  wordSlot g (if 14 ≤ op ∧ op ≤ 17 then 32 else 8) addr true check (fun s st va key =>
    let o := makeOp s st op rel va key (a st) (b st)
    if freezes then freezeOp s st o land else s.sendOp o) s

/-! ### Counters (R144, R263) -/

/-- CADD (R144). -/
def execCadd (g : BitVec 4) (o : BitVec 2) (_sc : BitVec 3) (a b : BitVec 6) (s : State) : Out :=
  homeOpSlot g 0 (releases o) (acquires o) (atReg a) noCheck (atReg b) (fun _ => 0) (fun st _ => st) s
/-- CRAISE (R144). -/
def execCraise (g : BitVec 4) (o : BitVec 2) (_sc : BitVec 3) (a b : BitVec 6) (s : State) : Out :=
  homeOpSlot g 3 (releases o) (acquires o) (atReg a) noCheck (atReg b) (fun _ => 0) (fun st _ => st) s
/-- CREAD (R144): the counter's value lands in Xb's register. -/
def execCread (g : BitVec 4) (o : BitVec 2) (_sc : BitVec 3) (a b : BitVec 6) (s : State) : Out :=
  wordSlot g 8 (atReg a) false noCheck (fun s st va key =>
    freezeOp s st (makeOp s st 2 (releases o) va key 0 0) (fun st v => st.landX 1 b (BitVec.ofNat 64 v))) s
/-- CWAIT (R144): freezes until the counter reaches the target; one that is met returns at once. -/
def execCwait (g : BitVec 4) (o : BitVec 2) (_sc : BitVec 3) (a b : BitVec 6) (s : State) : Out :=
  wordSlot g 8 (atReg a) false noCheck (fun s st va key =>
    let s := s.settleFor st (makeOp s st 1 (releases o) va key 0 0)
    if (st.xr b).toNat ≤ s.natAt key 8 then s.setStrand st
    else s.setStrand { st with wait := .counter key (st.xr b).toNat (acquires o) }) s

/-! ### Data atomics (R154, R264) -/

/-- The lowest handle of the launch's table whose region holds a word and that satisfies p. -/
def State.wordHandle (s : State) (launch va : Nat) (p : Nat → Entry → Bool) : Option Nat :=
  match s.imageOf launch with
  | none => none
  | some i => (i.table.find? fun (h, e) => p h e && (Entry.map e == 3 || decide (va < sliceEnd)) &&
      (s.entryRegions h e (va / 0x800000)).any fun (a, n) => meets a n va 8).map (·.1)

/-- The table checks of R264: a counter array, then a region with RONLY; H0 is written by no slot (R57). -/
def atomicCheck (s : State) (st : Strand) (va _key : Nat) : Option Trap :=
  match s.wordHandle st.launch va fun _ e => e.kind == 4 with
  | some _ => some { cause := 0x0C, arg := 0 }
  | none => (s.wordHandle st.launch va fun h e => e.ronly || h == 0).map fun h => privilegeTrap (0x300 + h)

/-- A data atomic (R264): the old word lands in Xd; with X0 the seat goes on. -/
def atomicSlot (op : Nat) (g : BitVec 4) (d a b : BitVec 6) (s : State) : Out :=
  homeOpSlot g op false (d != 0) (atReg a) atomicCheck (atReg b) (atReg d) (fun st v => st.landX 1 d (BitVec.ofNat 64 v)) s

/-- AADD (R264). -/
def execAadd (g : BitVec 4) (d a b : BitVec 6) (s : State) : Out := atomicSlot 4 g d a b s
/-- AMIN (R264). -/
def execAmin (g : BitVec 4) (d a b : BitVec 6) (s : State) : Out := atomicSlot 5 g d a b s
/-- AMAX (R264). -/
def execAmax (g : BitVec 4) (d a b : BitVec 6) (s : State) : Out := atomicSlot 6 g d a b s
/-- AXCHG (R264). -/
def execAxchg (g : BitVec 4) (d a b : BitVec 6) (s : State) : Out := atomicSlot 7 g d a b s
/-- ACAS (R264): compares with Xd as read at issue. -/
def execAcas (g : BitVec 4) (d a b : BitVec 6) (s : State) : Out := atomicSlot 8 g d a b s
/-- AAND (R264). -/
def execAand (g : BitVec 4) (d a b : BitVec 6) (s : State) : Out := atomicSlot 9 g d a b s
/-- AOR (R264). -/
def execAor (g : BitVec 4) (d a b : BitVec 6) (s : State) : Out := atomicSlot 10 g d a b s

/-! ### Stamped words (R118, R120) -/

/-- Whether a word is bytes 8 to 15 of a metadata record of a slot (R120), of the sequences that the part knows of
(notes/assumptions/33.md). -/
def State.metadataWord (s : State) (key : Nat) : Bool :=
  s.knownSequences.any fun (asid, hdr) => match s.translate (fieldOf s.cur.tile) asid hdr false with
    | none => false
    | some ha => let h := s.seqHeader ha
      h.valid && (s.metadataKeys asid h).contains key

/-- SADD's word lies in a stamped tensor of the issuing launch's table, the only one that is looked in, which is the model's choice
(notes/assumptions/92.md), or in a metadata record (R120). -/
def stampedCheck (s : State) (st : Strand) (va key : Nat) : Option Trap :=
  match s.wordHandle st.launch va fun _ e => e.kind == 2 with
  | some _ => none
  | none => if s.metadataWord key then none else some (notLocal 0xFFFF)

/-- SADD (R120): the old word and the flags land; with X0 the seat goes on and no flag is reported. -/
def execSadd (g : BitVec 4) (d a b : BitVec 6) (s : State) : Out :=
  homeOpSlot g 11 false (d != 0) (atReg a) stampedCheck (atReg b) (fun _ => 0) (fun st v => st.landX 1 d (BitVec.ofNat 64 v)) s

/-- Whether an advance of the step has to wait (R118): one that moves it to (k + 1)·2^14 or beyond needs the sweep for boundary
(k - 1)·2^14. swept holds the number of the last boundary swept. -/
def State.sweepOwed (s : State) (asid : Nat) : Bool :=
  decide ((assocFind asid s.swept).getD 0 + 2 < (s.stepOf asid + 1) / 2 ^ 14)

/-- The step advanced by the current seat (R116): the new step lands in Xb. An overflow is the seat's own trap where it has the result, else an
event record with the counter's address in W2 (R144, R336, R344). -/
def advanceStep (st : Strand) (b : BitVec 6) (s : State) : State :=
  match s.counterAdd (idWord st.asid 0) 1 with
  | (s, v, full) =>
    let s := s.setStrand (st.landX 1 b (BitVec.ofNat 64 v))
    if b ≠ 0 then s.overflowTrap full
    else if full then s.event st.asid 0x0B 0xFF s.cur.tile (st.recAddr / 64) (128 * st.asid) 0 0 else s

/-- STEPADV (R116, R118). An advance that owes a sweep is frozen: the slot does nothing, and its bundle issues after the sweep (State.unitHeld). -/
def execStepadv (g : BitVec 4) (b : BitVec 6) (s : State) : Out :=
  markSlot g (fun st s =>
    if s.sweepOwed st.asid then .ok s
    else match s.poisonTrap (idWord st.asid 0) 8 (128 * st.asid) with
      | some t => .error t
      | none => .ok (advanceStep st b (s.settleAll st))) s

/-! ### Sequences (R106 to R110, R115) -/

/-- A sequence operation (R102, R262): performed at the issue step on a valid header; write: whether it writes there (R337); reads: what it reads
beside the header, none of it poisoned (R343). -/
def sequenceSlot (g : BitVec 4) (a : BitVec 6) (write : Bool) (reads : State → Strand → SeqHeader → List (Nat × Nat × Nat)) (act : State → Strand → SeqHeader → Except Trap State) (s : State) : Out :=
  markSlot g (fun st s =>
    match s.homeAddr st (atReg a st) write with
    | .error t => .error t
    | .ok (key, s) =>
      let s := s.settleAll st
      let h := s.seqHeader key
      if key % 64 ≠ 0 then .error (sequenceTrap 1)
      else match s.poisonTrap key 64 (atReg a st) with
      | some t => .error t
      | none =>
        if !h.valid then .error (sequenceTrap 1)
        else match s.poisonAmong (reads s st h) with
        | some t => .error t
        | none => act s st h) s

/-- What a reservation of n slots reads: the table entries of their pages (R108), below CAP. -/
def reserveReads (n : Nat) (s : State) (asid : Nat) (h : SeqHeader) : List (Nat × Nat × Nat) :=
  if h.cap < h.rsv + n then []
  else ((List.range (ceilDiv (h.rsv % 256 + n) 256)).map fun k => s.entryReads asid h (h.rsv / 256 + k)).flatten

/-- What a commit at start reads: the metadata of the reservation's slots (R109). -/
def commitReads (start : Nat) (s : State) (asid : Nat) (h : SeqHeader) : List (Nat × Nat × Nat) :=
  match s.windows.find? fun r => r.hdr == h.addr && r.start == start && !r.committed with
  | some r => ((List.range r.count).map fun k => s.slotReads asid h false (r.start + k)).flatten
  | none => []

/-- SRSV (R108): the start of the reservation, or all ones when it is refused. -/
def execSrsv (g : BitVec 4) (d a b : BitVec 6) (s : State) : Out :=
  sequenceSlot g a true (fun s st h => reserveReads (st.xr b).toNat s st.asid h) (fun s st h =>
    match s.reserve st.asid h (st.xr b).toNat (s.stepOf st.asid) with
    | (some start, s) => .ok (s.setStrand (st.landX 1 d (BitVec.ofNat 64 start)))
    | (none, s) => .ok (s.setStrand (st.landX 1 d (-1)))) s
/-- SCMT (R109). -/
def execScmt (g : BitVec 4) (a b : BitVec 6) (s : State) : Out :=
  sequenceSlot g a true (fun s st h => commitReads (st.xr b).toNat s st.asid h) (fun s st h =>
    match s.commit st.asid h (st.xr b).toNat with
    | some s => .ok s
    | none => .error (sequenceTrap 2)) s
/-- SPIN and SUNPIN (R115). -/
def pinSlot (set : Bool) (g : BitVec 4) (d a b : BitVec 6) (s : State) : Out :=
  sequenceSlot g a true (fun s st h => if h.cap ≤ (st.xr b).toNat then [] else s.slotReads st.asid h true (st.xr b).toNat) (fun s st h =>
    match s.pin st.asid h (st.xr b).toNat set with
    | (v, s) => .ok (s.setStrand (st.landX 1 d (BitVec.ofNat 64 v)))) s
/-- SPIN (R115). -/
def execSpin (g : BitVec 4) (d a b : BitVec 6) (s : State) : Out := pinSlot true g d a b s
/-- SUNPIN (R115). -/
def execSunpin (g : BitVec 4) (d a b : BitVec 6) (s : State) : Out := pinSlot false g d a b s
/-- SQSNAP (R110): LEN to Xd and SQLENn. -/
def execSqsnap (g : BitVec 4) (d a : BitVec 6) (n : BitVec 2) (s : State) : Out :=
  sequenceSlot g a false (fun _ _ _ => []) (fun s st h =>
    .ok (s.setStrand ((st.landX 1 d (BitVec.ofNat 64 h.len)).land 1 (.sqlen n.toNat (BitVec.ofNat 64 h.len))))) s

/-! ### Fences (R152, R266) -/

/-- Coverages merged: the wider scope stays (R266). -/
def Fence.merge (a b : Fence) : Fence :=
  { cmds := a.cmds ++ b.cmds, ops := a.ops ++ b.ops,
    writes := match a.writes, b.writes with | some m, some n => some (max m n) | some m, none => some m | none, w => w,
    scope := max a.scope b.scope }

/-- Whether an engine command is one of a strand's, on whatever seat it was issued (R44). -/
def Cmd.of (c : Cmd) (st : Strand) : Bool := c.asid == st.asid && c.owner == st.recAddr && c.launch == st.launch

/-- The coverage of kinds of the seat's earlier accesses (R141, R152, R266), those of an earlier strand of it included: stores already performed are not listed, and a store still gated
has no place in the seat's order yet (R142). -/
def State.coverage (s : State) (st : Strand) (k : BitVec 4) (scope : Nat) : Fence :=
  { cmds := if k.getLsbD 1 then (s.cmds.filter fun c => c.seat == s.cur || c.of st).map (·.id) else [],
    ops := if k.getLsbD 0 then (s.flight.filter fun o => o.before s.cur st).map (·.id) else [],
    writes := if k.getLsbD 2 then some (st.clk + 10) else none, scope := scope }

/-- Whether every covered access has performed (R152). -/
def State.fenceDone (s : State) (st : Strand) (f : Fence) : Bool :=
  !(s.cmds.any fun c => f.cmds.contains c.id) && !(s.flight.any fun o => f.ops.contains o.id) &&
    (match f.writes with
      | none => true
      | some n => !(st.adds.any fun a => decide (a.due < n)))

/-- FBEGIN (R152): never freezes. -/
def execFbegin (g : BitVec 4) (f : BitVec 3) (k : BitVec 4) (sc : BitVec 3) (s : State) : Out :=
  runSlot g (fun st s =>
    let c := s.coverage st k sc.toNat
    let c := match st.fence[f.toNat]?.getD none with | some old => old.merge c | none => c
    .ok (s.setStrand { st with fence := st.fence.setIfInBounds f.toNat (some c) })) s

/-- FWAIT (R152): freezes until the token's accesses have performed; the coverage then ends. -/
def execFwait (g : BitVec 4) (f : BitVec 3) (s : State) : Out :=
  runSlot g (fun st s =>
    match st.fence[f.toNat]?.getD none with
    | none => .ok s
    | some c =>
      if s.fenceDone st c then .ok (s.setStrand { st with fence := st.fence.setIfInBounds f.toNat none })
      else .ok (s.setStrand { st with wait := .fence f.toNat })) s

/-! ### Teams (R31, R32) -/

/-- The arrival by which a joining strand leaves TEAMID's team (R31, R32). -/
def leaveOld (s : State) (st : Strand) (full rel : Bool) : Except Trap State :=
  if st.team = 0xFFFFFFFF then .ok s
  else match s.homeAddr st (st.team * 64) true with
    | .error t => .error t
    | .ok (key, s) =>
      match s.poisonTrap key 32 (st.team * 64) with
      | some t => .error t
      | none =>
      let o := makeOp s st 15 rel (st.team * 64) key 0 0
      let (s, _, _, over_) := runHome (s.settleFor st o) o
      if over_ && full then .ok (s.overflowTrap true)
      else if over_ then .ok (s.event st.asid 0x0B 0xFF s.cur.tile (st.recAddr / 64) (st.team * 64) 0 0)
      else .ok s

/-- JOIN (R31): leaves the old team; a team without members takes the strand at once, another one at the close of its generation. A gang
team's flag is set at the strand's next placement. -/
def execJoin (g : BitVec 4) (o : BitVec 2) (_sc : BitVec 3) (a : BitVec 6) (s : State) : Out :=
  markSlot g (fun st s =>
    let va := atTeam a st
    match s.homeAddr st va true with
    | .error t => .error t
    | .ok (key, s) =>
      match s.poisonTrap key 32 va with
      | some t => .error t
      | none => match leaveOld (s.settleFor st (makeOp s st 14 (releases o) va key 0 0)) st (acquires o) (releases o) with
      | .error t => .error t
      | .ok s =>
        let t := s.teamAt key
        if t.members = 0 then
          .ok ((s.putTeam key { t with members := 1, base := t.arrivals }).setStrand { st with team := va / 64, gang := false })
        else
          .ok ((s.putTeam key { t with joins := t.joins + 1 }).setStrand
            { st with team := 0xFFFFFFFF, gang := false, wait := .join (va / 64) key (t.base + t.members) t.joins false })) s

/-- LEAVE (R31): TEAMID is cleared if it named the team. -/
def execLeave (g : BitVec 4) (o : BitVec 2) (_sc : BitVec 3) (a : BitVec 6) (s : State) : Out :=
  wordSlot g 32 (atTeam a) true noCheck (fun s st va key =>
    let st' := if st.team * 64 = va then { st with team := 0xFFFFFFFF, gang := false } else st
    let op := makeOp s st 15 (releases o) va key 0 0
    if acquires o then freezeOp s st' op (fun st _ => st) else (s.setStrand st').sendOp op) s

/-- TBAR (R31): arrives and freezes until the closing value of its generation is reached. -/
def execTbar (g : BitVec 4) (o : BitVec 2) (_sc : BitVec 3) (a b : BitVec 6) (s : State) : Out :=
  wordSlot g 32 (atTeam a) true noCheck (fun s st va key =>
    let op := makeOp s st 16 (releases o) va key 0 0
    let (s, closing, _, full) := runHome (s.settleFor st op) op
    let st := st.landX 1 b (BitVec.ofNat 64 closing)
    let s := s.setStrand (if closing ≤ s.natAt key 8 then st else { st with wait := .team key closing })
    if b = 0 ∧ !acquires o then
      (if full then s.event st.asid 0x0B 0xFF s.cur.tile (st.recAddr / 64) va 0 0 else s)
    else s.overflowTrap full) s

/-- TARRIVE (R31): the closing value lands in Xb; no wait. -/
def execTarrive (g : BitVec 4) (o : BitVec 2) (_sc : BitVec 3) (a b : BitVec 6) (s : State) : Out :=
  homeOpSlot g 17 (releases o) (b != 0 || acquires o) (atTeam a) noCheck (fun _ => 0) (fun _ => 0)
    (fun st v => st.landX 1 b (BitVec.ofNat 64 v)) s

end Sys2Proof.Machine
end

