-- ==== Sys2Proof/Machine/Scheduling.lean ====
section
/-!
DEFINITION. The field schedulers' work on strands: continuation records (R24 to R27), waking (R28), loading a tile for a launch (R37,
R51, R57), creating and placing strands (R36, R41, R328 to R330) and pre-emption (R44, R346, R57).
-/

namespace Sys2Proof.Machine

/-! ### Records -/

/-- A continuation record (R24). -/
structure Record where
  pc : Nat
  waddr : Nat
  wtgt : Nat
  x2 : Nat
  x3 : Nat
  x4 : Nat
  team : Nat
  asid : Nat
  flags : Nat
  pred : Nat
  pri : Nat
  draw : Nat
  reserved : Nat
  deriving DecidableEq, Repr

/-- The record at a physical key (R24). -/
def State.recordAt (s : State) (a : Nat) : Record :=
  { pc := s.natAt a 8, waddr := s.natAt (a + 8) 8, wtgt := s.natAt (a + 16) 8, x2 := s.natAt (a + 24) 8, x3 := s.natAt (a + 32) 8,
    x4 := s.natAt (a + 40) 8, team := s.natAt (a + 48) 4, asid := s.natAt (a + 52) 2, flags := s.natAt (a + 54) 2,
    pred := s.natAt (a + 56) 2, pri := s.natAt (a + 58) 1, draw := s.natAt (a + 59) 1, reserved := s.natAt (a + 60) 4 }

/-- A record that may be placed (R24). -/
def Record.valid (r : Record) : Bool :=
  r.reserved == 0 && r.flags / 32 == 0 && r.pc % 16 == 0 && r.pred % 4 == 0 && decide (r.draw ≤ 3) &&
    (decide (r.pri < 248) || r.flags.testBit 3) && (!r.flags.testBit 2 || r.wtgt == 0)

/-- The strand that starts from a record without CTX (R26). -/
def Record.start (r : Record) (recAddr launch : Nat) : Strand :=
  let x := ((zeroRegs.x.setIfInBounds 2 (BitVec.ofNat 64 r.x2)).setIfInBounds 3 (BitVec.ofNat 64 r.x3)).setIfInBounds 4
    (BitVec.ofNat 64 r.x4)
  let g := { zeroRegs with pc := r.pc, x := x, p := BitVec.ofNat 16 (r.pred / 4 * 4 + 1) }
  { zeroStrand with regs := g, shadow := g, recAddr := recAddr, team := r.team, asid := r.asid, pri := r.pri,
                    service := r.flags.testBit 3, draw := r.draw, gang := r.flags.testBit 1, launch := launch }

/-! ### Ready queues -/

/-- The strand that a seat's strand runs for (R339): itself, in handler mode the trapped one. -/
def State.memberOf (s : State) (st : Strand) : Strand :=
  match st.handler with
  | some h => (s.savedAt st.asid h.frame).getD st
  | none => st

/-- The seats that a gang team holds, a member's in handler mode among them. -/
def State.gangSeats (s : State) (asid team : Nat) : List SeatId :=
  (s.seats.filter fun (_, st) => let m := s.memberOf st
    m.gang && m.team == team && m.asid == asid).map fun (k, _) => ⟨k / 2, k % 2⟩

/-- The members of a gang team that a field holds, on its seats and in its ready queue. -/
def State.gangHere (s : State) (asid team f : Nat) : Nat :=
  ((s.gangSeats asid team).filter fun q => fieldOf q.tile == f).length +
    ((s.fields[f]?.getD fieldOff).ready.filter fun r => r.gang == some team && r.asid == asid).length

/-- The field in which the members of a gang team are brought together (R33): of those that are not fenced, the one that holds most of them, the
lowest of several; the strand's own where none holds any. The model's choice (notes/assumptions/46.md). -/
def State.gangField (s : State) (asid team home : Nat) : Nat :=
  ((List.range 6).foldl (fun (b : Nat × Nat) f =>
    let n := s.gangHere asid team f
    if b.2 < n ∧ !s.fenced f then (f, n) else b) (if s.fenced home then s.lowestField else home, 0)).1

/-- The field whose queue a strand enters: its bound tile's (R56), its gang team's (R33), or its own unless that is fenced (R353). -/
def State.queueField (s : State) (r : Ready) (home : Nat) : Nat :=
  match r.bound, r.gang with
  | some t, _ => fieldOf t
  | none, some t => s.gangField r.asid t home
  | none, none => if s.fenced home then s.lowestField else home

/-- A strand made runnable (R28, R41). -/
def State.makeReady (s : State) (home : Nat) (r : Ready) : State := s.enqueue (s.queueField r home) r

/-- The level at which a ready strand is placed (R41, R329): its record's PRI as it stands (R24), raised by aging up to its queue's ceiling; 0 where
the record cannot be read. -/
def State.readyLevel (s : State) (f : Nat) (r : Ready) : Nat :=
  match s.translate f r.asid r.record false with
  | none => 0
  | some a =>
    let p := s.natAt (a + 58) 1
    let c := match s.launchOf r.launch with | some l => l.ceiling | none => 0
    max p (min c (p + r.aged))

/-- The draw class of a ready strand: its record's as it stands (R24, R41). -/
def State.readyDraw (s : State) (f : Nat) (r : Ready) : Nat :=
  match s.translate f r.asid r.record false with | none => 0 | some a => s.natAt (a + 59) 1

/-! ### PARK and EXIT -/

/-- PARK's end (R27, R28): the record is written and the seat given up; none while no watch entry is free. -/
def parkLeave (q : SeatId) (st : Strand) (addr : Nat) (target : Option Nat) (s : State) : Option State :=
  let home := fieldOf q.tile
  let item := s.readyItem st q.tile
  match target with
  | none => some (((s.writeRecord st st.regs.pc 0 0 st.recFlags).freeSeat q).makeReady home item)
  | some tgt =>
    match s.translate home st.asid addr false with
    | none => none
    | some a =>
      let s' := s.writeRecord st st.regs.pc addr tgt (st.recFlags + 1)
      if tgt ≤ s.natAt a 8 then some ((s'.freeSeat q).makeReady home item)
      else if s.watchRoom a then some ((s'.freeSeat q).addWatch a tgt (.strand item home) true)
      else none

/-- EXIT's end (R29); in handler mode it terminates the trapped strand with its cause (R341). -/
def exitLeave (q : SeatId) (st : Strand) (s : State) : State :=
  match st.handler with
  | some h => { s with cur := q }.terminateHandled st h.frame 0x24 h.cause
  | none => s.endStrand q st

/-! ### Loading a tile (R37, R51, R57) -/

/-- A launch that can no longer complete (R35, R353): it creates no further strand. -/
def State.loseLaunch (s : State) (id : Nat) : State := s.mapLaunch id fun l => { l with lost := true, phase := .open_ }

/-- The slice address where H0 resolves on a tile (R37, R58): of a pageable one the frame of its first tile, by the tile's table, which is the model's
choice (notes/assumptions/95.md). -/
def State.argumentPlace (s : State) (e : Entry) (t : Nat) : Nat :=
  sliceAddr t (if e.pageable then (s.pageState e t 0).2 else e.base)

/-- A tile made ready for a launch's strands: argument block read once, local data with its zeros, argument copy at H0's place, table
check. none when the block cannot be read or a tile table is invalid. -/
def loadTile (s : State) (id t : Nat) : Option State :=
  match s.launchOf id with
  | none => some s
  | some l =>
    if l.tiles.contains t then some s
    else
      let args : Option (List Byte) := match l.args with
        | some bs => some bs
        | none => s.readGlobal (fieldOf t) l.asid (l.word 3) 256
      match args with
      | none => none
      | some bs =>
        let s := s.mapLaunch id fun l => { l with tiles := l.tiles ++ [t], args := some bs }
        match s.imageOf id with
        | none => some s
        | some i =>
          let s := s.writeCells (i.data.map fun (o, b) => (sliceAddr t o, b))
          let s := match assocFind 0 i.table with
            | some e => if Entry.kind e = 15 then s else s.writePhys (s.argumentPlace e t) bs
            | none => s
          if s.tileTableValid l t then some s else none

/-! ### Seats and headroom (R327, R328) -/

/-- A field that runs strands. -/
def State.fieldUp (s : State) (f : Nat) : Bool := match s.fields[f]? with | some d => d.phase == .up | none => false

/-- Whether a seat is idle and not taken already. -/
def State.seatFree (s : State) (taken : List SeatId) (q : SeatId) : Bool := (s.strandAt q).isNone && !taken.contains q

/-- The seats of a field, by tile id, seat 0 before seat 1. -/
def fieldSeats (f : Nat) : List SeatId := ((List.range 64).map fun k => [(⟨64 * f + k, 0⟩ : SeatId), ⟨64 * f + k, 1⟩]).flatten

/-- An idle seat of a tile of the field. -/
def State.seatOn (s : State) (f : Nat) (taken : List SeatId) (t : Nat) : Option SeatId :=
  if fieldOf t = f then [⟨t, 0⟩, ⟨t, 1⟩].find? (s.seatFree taken) else none

/-- The first seat of a field for a strand (R328): on the tile that it is bound to and nowhere else; else on the tile that its launch's map names,
then on a tile whose seats are both idle, then on the lowest tile. -/
def State.pickSeat (s : State) (f : Nat) (taken : List SeatId) (bound named : Option Nat) : Option SeatId :=
  if !s.fieldUp f then none
  else match bound with
    | some t => s.seatOn f taken t
    | none => (named.bind (s.seatOn f taken)) <|>
        ((fieldSeats f).find? fun q => s.seatFree taken ⟨q.tile, 0⟩ && s.seatFree taken ⟨q.tile, 1⟩) <|>
        (fieldSeats f).find? (s.seatFree taken)

/-- Seats for a list of strands, by the tiles that bind them and that their maps name, all or none (R33). -/
def State.pickSeats (s : State) (f : Nat) : List SeatId → List (Option Nat × Option Nat) → Option (List SeatId)
  | _, [] => some []
  | taken, (b, n) :: bs =>
    match s.pickSeat f taken b n with
    | none => none
    | some q => match s.pickSeats f (q :: taken) bs with
      | none => none
      | some qs => some (q :: qs)

/-- The idle seats of a field. -/
def State.idleSeats (s : State) (f : Nat) : Nat := ((fieldSeats f).filter (s.seatFree [])).length

/-- DRAW of a class (R327). -/
def State.drawOf (s : State) (c : Nat) : Nat := fieldAt s.drawA (16 * c) 16

/-- Whether a field's headroom admits draws of a total (R327). -/
def State.headroom (s : State) (f total : Nat) : Bool :=
  match s.fields[f]? with
  | some d => decide (total + d.iest + d.placed ≤ d.icap)
  | none => false

/-! ### Placing a record -/

/-- The gang-shared containers that hold the data of a member's tile (R57). -/
def State.gangsOf (s : State) (rec_ asid : Nat) : List GangData := s.gangs.filter fun g => g.asid == asid && g.members.contains rec_

/-- The checks of a gang-shared container as memory holds it (R345, R347): one GSH section that the upgrade table accepts. -/
def State.gangAccepted (s : State) (g : GangData) : Bool :=
  let bs := (s.copyGlobal g.asid 2 g.frame 80).toArray
  let nat : Nat → Nat → Nat := fun p k => leNat ((List.range k).map fun i => bs.getD (p + i) 0)
  nat 0 4 == 0x6378 && nat 4 2 == 1 && nat 10 2 == 1 && nat 64 2 == 10 && nat 66 2 == 1 && s.security.takes 10

/-- The data of one gang-shared container, as its payload in memory holds it, written into the slice of a member's tile (R57); the last member's
restoration frees the frame (R366). Where members that ran on different tiles resume on one, what the one placed later brings stands over the
other's: the model's choice (notes/assumptions/46.md). -/
def State.restoreShared (s : State) (rec_ tile : Nat) (g : GangData) : State :=
  let bs := s.copyGlobal g.asid 6 (g.frame + 80) g.data.length
  let s := s.writeCells ((g.data.zip bs).map fun (c, b) => (sliceAddr tile c.1, b))
  let left := g.members.filter (· != rec_)
  if left.isEmpty then
    { s with gangs := s.gangs.filter fun h => !(h.frame == g.frame && h.asid == g.asid) }.release g.asid (s.idRecord g.asid 4) 262144 g.frame
  else { s with gangs := s.gangs.map fun h => if h.frame == g.frame && h.asid == g.asid then { h with members := left } else h }

/-- GSHARED data restored for a member on its tile (R57); none where a container is refused (R347). -/
def State.restoreGang (s : State) (rec_ asid tile : Nat) : Option State :=
  let gs := s.gangsOf rec_ asid
  if gs.all s.gangAccepted then some (gs.foldl (fun s g => s.restoreShared rec_ tile g) s) else none

/-- A strand's draw counted until the next estimate (R327). -/
def State.countDraw (s : State) (f c : Nat) : State := s.mapField f fun d => { d with placed := d.placed + s.drawOf c }

/-- A strand as its record places it (R24): what the record holds of it stands, a strand that has joined a gang team gets the flag in its record
(R31, notes/assumptions/21.md). a: the record's physical key. -/
def placeStrand (s : State) (r : Ready) (rc : Record) (a : Nat) (q : SeatId) (st : Strand) : State :=
  let gang := s.gangTeam (fieldOf q.tile) r.asid rc.team
  let s := if gang && !rc.flags.testBit 1 then s.putNat (a + 54) 2 (rc.flags + 2) else s
  (s.putStrand q { st with recAddr := r.record, asid := r.asid, launch := r.launch, team := rc.team, pri := rc.pri, draw := rc.draw,
                           service := rc.flags.testBit 3, gang := gang || (rc.team != 0xFFFFFFFF && rc.flags.testBit 1),
                           named := r.named }).countDraw
    (fieldOf q.tile) rc.draw

/-- Writes on their way to the tile that a strand was saved on go to the one that it resumes on: drains to its local tensors (R44, R57, R219). -/
def Strand.moveTo (st : Strand) (tile : Nat) : Strand :=
  let here : Nat → Nat := fun a => if targetOf a = 3 then sliceAddr tile (a % 0x800000) else a
  { st with pend := st.pend.map fun p => match p.res with | .mem a bs => { p with res := .mem (here a) bs } | _ => p,
            drains := st.drains.map fun d => if cfgKind d.fcfg = 2 then { d with destFrame := here d.destFrame } else d }

/-- What the record of a strand that this part did not save says of it (R24, R363): where it goes on, SPOOL's address inside a nest, and its
predicates; the rest of its sections whose layouts are not given is free (notes/assumptions/11.md). -/
def Record.carry (r : Record) (st : Strand) : Strand :=
  let p := BitVec.ofNat 16 (r.pred / 4 * 4 + st.regs.p.toNat / 2 % 2 * 2 + 1)
  let regs := match st.regs.spool with
    | some sp => { st.regs with p := p, pc := r.pc + 16, spool := some { sp with site := r.pc } }
    | none => { st.regs with p := p, pc := r.pc }
  { st with regs := regs, shadow := regs }

/-- The strand of a container that a record names, for a tile (R44, R347). -/
def State.resumed (s : State) (asid : Nat) (rc : Record) (tile : Nat) : Option Strand :=
  (s.restoreStrand asid rc.waddr).map fun st => (if (s.savedAt asid rc.waddr).isSome then st else rc.carry st).moveTo tile

/-- A runnable record placed on a seat (R24, R26, R44): an invalid one is reported with event 0x23 and never placed, a container that
is refused with 0x25 (R347), a launch whose tile cannot be loaded with 0x22 (R51). -/
def placeRecord (s : State) (r : Ready) (q : SeatId) : State :=
  let f := fieldOf q.tile
  match s.translate f r.asid r.record false with
  | none => s.event r.asid 0x06 0xFF q.tile (r.record / 64) 0 r.record (r.record % 2 ^ 32)
  | some a =>
    let rc := s.recordAt a
    if !rc.valid then s.event r.asid 0x23 0xFF q.tile (r.record / 64) 0 0 0
    else match loadTile s r.launch q.tile with
      | none => match s.launchOf r.launch with
        | some l => (s.launchEvent l 0x22).loseLaunch l.id
        | none => s
      | some s =>
        if rc.flags.testBit 2 then
          match s.resumed r.asid rc q.tile, s.restoreGang r.record r.asid q.tile with
          | some st, some s => placeStrand (s.freeFrame r.asid rc.waddr) r rc a q st
          | _, _ => s.event r.asid 0x25 0xFF q.tile (r.record / 64) 0 0 0
        else placeStrand s r rc a q (rc.start r.record r.launch)

/-! ### Creating strands (R25, R36) -/

/-- The team identifier of strand i (R36). -/
def Launch.teamOf (l : Launch) (i : Nat) : Nat := l.tbase + i / l.tsize

/-- Members of the team of strand i (R36). -/
def Launch.members (l : Launch) (i : Nat) : Nat := min l.tsize (l.count - l.tsize * (i / l.tsize))

/-- A team's record written when its first strand is created (R36): TEAM_RECORD_INIT. A record that does not translate is not written, and the
strand is created all the same: the model's choice (notes/assumptions/63.md). -/
def State.initTeam (s : State) (f : Nat) (l : Launch) (i : Nat) : State :=
  if i % l.tsize ≠ 0 then s
  else match s.translate f l.asid (l.teamOf i * 64) true with
    | none => s
    | some a =>
      s.writePhys (a + 8) (leBytes 8 (s.natAt a 8) ++ leBytes 4 (l.members i) ++ leBytes 4 0 ++ leBytes 4 0 ++
        leBytes 4 ((if l.gang then 1 else 0) + 2) ++ List.replicate 32 0)

/-- The outcome of creating a strand's record (R25). -/
inductive Created where
  | failed (s : State)
  | deferred (s : State)
  | made (record : Nat) (s : State)

/-- Strand created + k of a launch gets its record (R25, R36). -/
def createStrand (s : State) (f : Nat) (id : Nat) : Created :=
  match s.launchOf id with
  | none => .failed s
  | some l =>
    match s.claim l.asid (s.idRecord l.asid 8) with
    | .invalid => .failed ((s.launchEvent l 0x22).loseLaunch id)
    | .short s => .deferred (s.mapLaunch id fun l => { l with short := true })
    | .got k base s =>
      let i := l.created
      let rec_ := base + 64 * k
      let flags := 16 + (if l.gang then 2 else 0) + (if 248 ≤ l.pri then 8 else 0)
      let bs := recordBytes (l.word 0) 0 0 i (l.teamOf i) l.count (l.teamOf i) l.asid flags 0 l.pri l.draw
      let s := (s.writeGlobal f l.asid rec_ bs).getD s
      let s := s.initTeam f l i
      .made rec_ (s.mapLaunch id fun l =>
        { l with created := l.created + 1, phase := if l.created + 1 = l.count then .open_ else l.phase })

/-- The queue item of a new strand, bound to its tile where the launch binds (R56). -/
def State.newItem (s : State) (l : Launch) (rec_ i tile : Nat) : Ready :=
  { record := rec_, asid := l.asid, launch := l.id, since := l.since, aged := 0,
    bound := if s.binds l then some tile else s.mapTile l i, named := s.mapTile l i, gang := if l.gang then some (l.teamOf i) else none }

/-- Strands of a launch created and placed on seats, in ascending index (R36, R328), whose tiles can be loaded. -/
def createOn (f id : Nat) : List SeatId → State → State
  | [], s => s
  | q :: qs, s =>
    match s.launchOf id with
    | none => s
    | some l =>
      if l.lost then s
      else
        let i := l.created
        match createStrand s f id with
        | .failed s => s
        | .deferred s => s
        | .made rec_ s => createOn f id qs (placeRecord s (s.newItem l rec_ i q.tile) q)

/-! ### Choosing (R41, R328, R330) -/

/-- What a scheduler may place next: ready strands of a queue (several for a gang team), or the next strands of a pending launch. -/
inductive Item where
  | ready (rs : List Ready)
  | fresh (id n : Nat)
  deriving DecidableEq, Repr

/-- An item with its level, age, total draw and, for each of its strands, the tile it is bound to and the tile its map names. -/
structure Choice where
  item : Item
  level : Nat
  since : Nat
  draw : Nat
  tiles : List (Option Nat × Option Nat)
  gang : Bool
  deriving DecidableEq, Repr

/-- The ready strands of a field as choices: a gang team's runnable members together (R33), with the level and the age of the one queued first
where theirs differ, which is the model's choice (notes/assumptions/46.md). -/
def State.readyChoices (s : State) (f : Nat) : List Choice :=
  let rs := ((s.fields[f]?.getD fieldOff).ready).filter fun r => !s.quiesced.contains r.asid
  let draw : Ready → Nat := fun r => s.drawOf (s.readyDraw f r)
  rs.filterMap fun r => match r.gang with
    | none => some ⟨.ready [r], s.readyLevel f r, r.since, draw r, [(r.bound, r.named)], false⟩
    | some t =>
      let team := rs.filter fun x => x.gang == some t && x.asid == r.asid
      if team.head? == some r then
        some ⟨.ready team, s.readyLevel f r, r.since, (team.map draw).sum, team.map fun x => (x.bound, x.named), true⟩
      else none

/-- The next strands of the pending launches that a field places (R36): those its map sends to a tile of the field, or that no map
places and the field accepted. -/
def State.freshChoices (s : State) (f : Nat) : List Choice :=
  s.launches.filterMap fun l =>
    if l.phase == .pending && !l.lost && !l.short && decide (l.created < l.count) && !s.quiesced.contains l.asid then
      let n := if l.gang then l.members l.created else 1
      let tiles := (List.range n).map fun k => s.mapTile l (l.created + k)
      let here := match tiles.head?.getD none with | some t => fieldOf t == f | none => l.field == f
      if here then some ⟨.fresh l.id n, l.pri, l.since, n * s.drawOf l.draw, tiles.map fun t => (t, t), l.gang⟩ else none
    else none

/-- Whether a choice holds strands of a ready queue. -/
def Choice.isReady (c : Choice) : Bool := match c.item with | .ready _ => true | .fresh _ _ => false

/-- Whether choice a comes before b (R41, R328, R330): the higher level, then the older; a pending launch only when it outranks the ready strand,
but gang teams of one level in the order in which they became runnable. -/
def Choice.before (a b : Choice) : Bool :=
  decide (b.level < a.level) || (a.level == b.level &&
    (if a.isReady == b.isReady || (a.gang && b.gang) then decide (a.since ≤ b.since) else a.isReady))

/-- A choice put among choices in order. -/
def insertChoice (c : Choice) : List Choice → List Choice
  | [] => [c]
  | d :: t => if d.before c then d :: insertChoice c t else c :: d :: t

/-- The first of choices in order that finds its seats, with them. A gang team that fewer seats are idle for than it has members reserves them all,
and nothing after it is placed (R330); another choice without its seats is passed over. -/
def State.firstFit (s : State) (f idle : Nat) : List Choice → Option (Choice × List SeatId)
  | [] => none
  | c :: t => match s.pickSeats f [] c.tiles with
    | some qs => some (c, qs)
    | none => if c.gang && decide (idle < c.tiles.length) then none else s.firstFit f idle t

/-- What a field's scheduler places now, with its seats (R328): of the choices whose draws the headroom admits (R327), the first that fits. -/
def State.placement (s : State) (f : Nat) : Option (Choice × List SeatId) :=
  let ok := (s.readyChoices f ++ s.freshChoices f).filter fun c => s.headroom f c.draw
  s.firstFit f (s.idleSeats f) (ok.foldl (fun cs c => insertChoice c cs) [])

/-- Items leave a field's queue. -/
def State.dequeue (s : State) (f : Nat) (rs : List Ready) : State :=
  s.mapField f fun d => { d with ready := d.ready.filter fun r => !(rs.any fun x => x.record == r.record && x.asid == r.asid) }

/-- Whether a gang launch's pool has a record for every member (R25): without one none of them is created. -/
def State.poolHas (s : State) (asid n : Nat) : Bool :=
  (s.pool asid (s.idRecord asid 8)).isNone || decide (n ≤ (s.poolEntries asid (s.idRecord asid 8) 64 false).length)

/-- A placement carried out (R328): of a launch with a tile that cannot be loaded no strand is created, and its event is written (R35, R51). -/
def place (s : State) (f : Nat) (c : Choice) (qs : List SeatId) : State :=
  match c.item with
  | .ready rs => (rs.zip qs).foldl (fun s (r, q) => placeRecord s r q) (s.dequeue f rs)
  | .fresh id n =>
    match s.launchOf id with
    | none => s
    | some l =>
      if qs.any fun q => (loadTile s id q.tile).isNone then (s.launchEvent l 0x22).loseLaunch id
      else if n = 1 ∨ s.poolHas l.asid n then createOn f id qs s
      else match s.pool l.asid (s.idRecord l.asid 8) with
        | some (_, _, _, short) => (s.countShort l.asid (s.idRecord l.asid 8) short).mapLaunch id fun l => { l with short := true }
        | none => s

/-! ### Pre-emption (R44, R57, R346) -/

/-- A strand that may be pre-empted: not in handler mode (R341), not about to leave its seat. -/
def Strand.preemptable (st : Strand) : Bool :=
  st.handler.isNone && (match st.wait with | .park _ _ => false | .exit => false | _ => true)

/-- The mark that pre-emption makes (R346): it stands between the last bundle issued and the next one. -/
def Strand.markHere (st : Strand) : Strand := { st.takeMark with markOrder := st.order - 1 }

/-- A seat's strand saved into a claimed frame (R346): a mark first, or a rollback when a gated store faults; the mass adds that its beats have sent
are performed (R135); its record gains CTX, and the remaining cycles of an IDLE are dropped (R211). A bound strand's container holds its tile, for a resumption that no ready queue knows of (R363). -/
def saveSeat (s : State) (q : SeatId) (frame : Nat) : State :=
  let s := { s with cur := q }
  let s := massAll q (match s.flushGate with
    | .ok s => match s.strandAt q with | some st => s.putStrand q st.markHere | none => s
    | .error _ => match s.strandAt q with | some st => s.putStrand q st.rollback | none => s)
  match s.strandAt q with
  | none => s
  | some st =>
    let item := s.readyItem st q.tile
    let st := { st with idle := none, named := item.bound <|> st.named }
    let s := (s.writeRecord st st.here frame 0 (st.recFlags + 4)).saveStrand frame st 0
    let s := (s.freeSeat q).enqueue (s.queueField item (fieldOf q.tile)) item
    if s.quiescing = some st.asid then { s with savedCount := s.savedCount + 1 } else s

/-- Frames claimed one after the other; all freed again when one is missing (R366). -/
def claimFrames (asid : Nat) : Nat → List Nat → State → List Nat × State × Bool
  | 0, fs, s => (fs, s, true)
  | n + 1, fs, s =>
    match s.claimFrame asid with
    | .got k base s => claimFrames asid n (fs ++ [base + 262144 * k]) s
    | .short s => ([], fs.foldl (fun s f => s.release asid (s.idRecord asid 4) 262144 f) s, false)
    | .invalid => ([], fs.foldl (fun s f => s.release asid (s.idRecord asid 4) 262144 f) s, false)

/-- The bytes of a launch's local entries with GSHARED on a tile, by slice offset (R57): a pageable entry's with its tile table (R58). -/
def State.gangBytes (s : State) (launch tile : Nat) : Memory :=
  match s.imageOf launch with
  | none => []
  | some i =>
    let rs := ((i.table.filter fun (h, e) => Entry.gshared e && Entry.kind e != 15 && Entry.map (Entry.seen h e) == 0).map fun (h, e) =>
      (if Entry.pageable e then [(sliceAddr tile (Entry.base e), 8 * Entry.tiles e)] else []) ++ s.entryRegions h e tile).flatten
    (rs.map fun (a, n) => (List.range n).map fun k => (a - sliceAddr tile 0 + k, memRead s.mem (a + k))).flatten

/-- The bytes of a GSH payload that one frame holds, after the container's and the section's headers (R345). -/
def gangRoom : Nat := 262144 - 80

/-- Gang-shared data cut into the payloads of as many containers as it needs: the model's choice (notes/assumptions/46.md). -/
def gangParts (data : Memory) : List Memory :=
  (List.range (ceilDiv data.length gangRoom)).map fun k => (data.drop (k * gangRoom)).take gangRoom

/-- The bytes of a gang-shared container (R345, R346): one GSH section. -/
def gangContainer (asid team : Nat) (data : Memory) : List Byte :=
  let body := sectionBytes 10 (data.map (·.2))
  leBytes 4 0x6378 ++ leBytes 2 1 ++ leBytes 2 0x00A0 ++ leBytes 2 asid ++ leBytes 2 1 ++ leBytes 4 (64 + body.length) ++
    leBytes 1 0 ++ List.replicate 7 0 ++ leBytes 8 0 ++ leBytes 4 team ++ List.replicate 28 0 ++ body

/-- Shared data of one tile saved into a frame, for the members that ran there. -/
def saveGang (asid team frame : Nat) (members : List Nat) (data : Memory) (s : State) : State :=
  let s := s.fillGlobal asid 6 frame (gangContainer asid team data)
  { s with gangs := s.gangs ++ [⟨frame, asid, team, members, data⟩] }

/-- The operations of a seat on their way performed, before what they act on is saved (R143). -/
def State.settleSeat (s : State) (q : SeatId) : State :=
  match s.strandAt q with
  | none => s
  | some st => { { s with cur := q }.settleAll st with cur := s.cur }

/-- A tile's shared data as its containers hold it, each part with the records of the members that ran on the tile (R57). -/
def State.gangShares (s : State) (launch : Nat) (recs : List (Nat × List Nat)) : List (List Nat × Memory) :=
  (recs.map fun (t, ms) => (gangParts (s.gangBytes launch t)).map fun p => (ms, p)).flatten

/-- A gang team pre-empted as a whole, its frames claimed first, one for each member and those of its shared data (R33, R57, R366). -/
def preemptGang (s : State) (asid team launch : Nat) : State :=
  let qs := s.gangSeats asid team
  let recs := (qs.map (·.tile)).eraseDups.map fun t => (t, (qs.filter fun q => q.tile == t).filterMap fun q => (s.strandAt q).map (·.recAddr))
  match claimFrames asid (qs.length + (s.gangShares launch recs).length) [] s with
  | (_, s, false) => s
  | (fs, s, true) =>
    let s := qs.foldl State.settleSeat s
    let s := (qs.zip fs).foldl (fun s (q, f) => saveSeat s q f) s
    ((s.gangShares launch recs).zip (fs.drop qs.length)).foldl (fun s ((ms, p), f) => saveGang asid team f ms p s) s

/-- Whether a seat's strand, with every member of its gang team, can be pre-empted now. -/
def State.canPreempt (s : State) (st : Strand) : Bool :=
  let m := s.memberOf st
  if m.gang then ((s.gangSeats m.asid m.team).filterMap s.strandAt).all (·.preemptable) else st.preemptable

/-- The pre-emption of a seat is asked for, and waits. -/
def State.want (s : State) (q : SeatId) : State :=
  if s.wanted.contains (SeatId.key q) then s else { s with wanted := s.wanted ++ [SeatId.key q] }

/-- A seat pre-empted, with its whole gang team where it belongs to one; in handler mode the request waits (R341), without a frame the seat keeps
running (R366). -/
def preemptSeat (s : State) (q : SeatId) : State :=
  match s.strandAt q with
  | none => s
  | some st =>
    if !s.canPreempt st then s.want q
    else if st.gang then preemptGang s st.asid st.team st.launch
    else match claimFrames st.asid 1 [] s with
      | (f :: _, s, true) => saveSeat s q f
      | (_, s, _) => s

/-- Whether a pre-emption that waits can be made: the strands can be saved, and the pool has frames for them. -/
def State.wantedNow (s : State) (k : Nat) (st : Strand) : Bool :=
  s.wanted.contains k && s.canPreempt st &&
    decide ((if st.gang then (s.gangSeats st.asid st.team).length + (s.gangShares st.launch
      ((((s.gangSeats st.asid st.team).map (·.tile)).eraseDups).map fun t => (t, []))).length else 1) ≤
        (s.poolEntries st.asid (s.idRecord st.asid 4) 262144 false).length)

end Sys2Proof.Machine
end

