-- ==== Sys2Proof/Machine/EventsSeat.lean ====
section
/-!
DEFINITION. Steps of the agents about a seat and its strand (spec/95): landings, drain beats, answers, the ends of waits, watches,
placement, pre-emption and the schedulers' clocks. A step whose condition does not hold changes nothing.
-/

namespace Sys2Proof.Machine

/-- A step of another agent at a seat; a trap that it raises is taken there. -/
def atSeat (q : SeatId) (f : State → State) (s : State) : Out := .next (settleTrap (f { s with cur := q }))

/-- A step under its condition. -/
def whenOk (ok : Bool) (f : State → State) (s : State) : Out := .next (if ok then f s else s)

/-! ### Landings -/

/-- RESULT_LANDING (R165, R289): every result of the seat due at its step lands. -/
def execResultLanding (q : SeatId) (s : State) : Out := atSeat q (landDue q) s

/-- DRAIN_BEAT (R218): the beats due at the seat's step. -/
def execDrainBeat (q : SeatId) (s : State) : Out := .next (drainStep q s)

/-- The earliest step at which a mass add of a seat that can be performed now must have been answered. -/
def State.firstAdd (s : State) (st : Strand) : Option Nat := ((st.adds.filter fun m => !s.massHeld m).map (·.due)).min?

/-- MASS_ADD_ANSWER (R135): the adds of the seat's oldest beat with adds under way are performed and answered. -/
def execMassAddAnswer (q : SeatId) (s : State) : Out :=
  .next (match s.strandAt q with
    | none => s
    | some st => match s.firstAdd st with
      | some d => massDue q d s
      | none => s)

/-- Whether an operation under way waits for no earlier one of its agent (R141, R143, R146). -/
def State.homeTurn (s : State) (o : HomeOp) : Bool :=
  !(s.flight.any fun p => o.sameAgent p && decide (p.id < o.id) && o.after p)

/-- HOME_OPERATION_PERFORMED (R262): operation n is performed at its home. -/
def execHomeOperationPerformed (n : Nat) (s : State) : Out :=
  .next (match s.flight.find? fun o => o.id == n with
    | some o => if s.homeTurn o then performHome s o else s
    | none => s)

/-! ### The ends of waits -/

/-- Whether a seat's wait is over: the counter has reached its target (R144), the team's generation has closed (R31), the covered
accesses have performed (R152). -/
def State.waitOver (s : State) (st : Strand) : Bool :=
  match st.wait with
  | .counter a t _ => decide (t ≤ s.natAt a 8)
  | .team a t => decide (t ≤ s.natAt a 8)
  | .join _ a c _ _ => decide (c ≤ s.natAt a 8)
  | .fence f => match st.fence[f]?.getD none with | some c => s.fenceDone st c | none => true
  | _ => false

/-- Whether the command that holds a seat, if one does, has its unit or its entry (R248, R249). -/
def State.heldOver (s : State) (st : Strand) : Bool :=
  match st.held with
  | some id => !(s.cmds.any fun c => c.id == id && c.phase == 1)
  | none => true

/-- COUNTER_WAIT_SATISFIED (R144): the seat acquires and goes on. -/
def execCounterWaitSatisfied (q : SeatId) (s : State) : Out :=
  .next (match s.strandAt q with
    | some st => match st.wait with
      | .counter _ _ _ => if s.waitOver st then s.putStrand q { st with wait := .none } else s
      | _ => s
    | none => s)

/-- TEAM_BARRIER_RELEASE (R31, R33): a TBAR goes on at its closing value; a JOIN takes effect at the close, a refused one leaves
TEAMID without a team. A gang team's flag comes with the next placement. -/
def execTeamBarrierRelease (q : SeatId) (s : State) : Out :=
  .next (match s.strandAt q with
    | some st => match st.wait with
      | .team _ _ => if s.waitOver st then s.putStrand q { st with wait := .none } else s
      | .join t _ _ _ refused =>
        if s.waitOver st then s.putStrand q { st with wait := .none, team := if refused then 0xFFFFFFFF else t } else s
      | _ => s
    | none => s)

/-- FENCE_PERFORMED (R152): FWAIT returns and its token's coverage ends. -/
def execFencePerformed (q : SeatId) (s : State) : Out :=
  .next (match s.strandAt q with
    | some st => match st.wait with
      | .fence f => if s.waitOver st then s.putStrand q { st with wait := .none, fence := st.fence.setIfInBounds f none } else s
      | _ => s
    | none => s)

/-- IDLE_EXPIRY (R211): the cycles of an IDLE have passed. -/
def execIdleExpiry (q : SeatId) (s : State) : Out :=
  .next (match s.strandAt q with
    | some st => s.putStrand q { st with idle := none }
    | none => s)

/-! ### Watches -/

/-- Whether an armed watch's counter has reached its target (R28, R325). -/
def State.watchMet (s : State) (w : Watch) : Bool := w.armed && decide (w.target ≤ s.natAt w.addr 8)

/-- WATCH_CONDITION_MET (R28): parked strand of watch n becomes runnable. -/
def execWatchConditionMet (n : Nat) (s : State) : Out :=
  .next (match s.watches.find? fun w => w.id == n with
    | some w => match w.waiter with
      | .strand item f =>
        if s.watchMet w then { s with watches := s.watches.filter fun v => v.id != n }.makeReady f item else s
      | .host _ _ => s
    | none => s)

/-! ### Scheduling -/

/-- STRAND_PLACEMENT (R328): field f places its next strand, or gang team. -/
def execStrandPlacement (f : Nat) (s : State) : Out :=
  .next (match s.placement f with
    | some (c, qs) => place s f c qs
    | none => s)

/-- Whether a deferred creation of a field can be tried again: its pool has a free record (R25). -/
def State.retryOk (s : State) (l : Launch) : Bool := l.short && !l.lost && s.poolHas l.asid (if l.gang then l.members l.created else 1)

/-- RECORD_CREATION_RETRY (R25): the deferred creations of a field whose pools have a record again are tried at the next placement. -/
def execRecordCreationRetry (f : Nat) (s : State) : Out :=
  .next { s with launches := s.launches.map fun l => if l.field == f && s.retryOk l then { l with short := false } else l }

/-- PREEMPTION (R44, R346). -/
def execPreemption (q : SeatId) (s : State) : Out := .next (preemptSeat s q)

/-- The members of gang teams resident on a field, with the keys of their seats; the trapped one of a seat in handler mode. -/
def State.residentGangs (s : State) (f : Nat) : List (Nat × Strand) :=
  ((s.seats.filter fun x => fieldOf (x.1 / 2) == f).map fun (k, st) => (k, s.memberOf st)).filter fun x => x.2.gang

/-- The team of a choice that is a gang team's, by identifier of address space and team. -/
def State.choiceTeam (s : State) (c : Choice) : Option (Nat × Nat) :=
  match c.item with
  | .ready rs => rs.head?.bind fun r => r.gang.map fun t => (r.asid, t)
  | .fresh id _ => (s.launchOf id).map fun l => (l.asid, l.teamOf l.created)

/-- Whether another gang team of a resident one's level is runnable on a field (R33, R330). -/
def State.gangRunnable (s : State) (f : Nat) (st : Strand) : Bool :=
  (s.readyChoices f ++ s.freshChoices f).any fun c => c.gang && c.level == st.pri && s.choiceTeam c != some (st.asid, st.team)

/-- GANG_QUANTUM_EXPIRY (R330): a resident gang team is swapped out when another of its level is runnable; a team of which a member is in handler
mode, once it can be (R341). Of several such teams the one of the lowest seat goes, one at a quantum's end: the model's choice
(notes/assumptions/46.md). -/
def execGangQuantumExpiry (f : Nat) (s : State) : Out :=
  .next (match (s.residentGangs f).find? fun x => s.gangRunnable f x.2 with
    | some (k, _) => preemptSeat s ⟨k / 2, k % 2⟩
    | none => s)

/-- AGING_PERIOD_EXPIRY (R329): entry n of field f's ready queue rises one level, up to its queue's ceiling. -/
def execAgingPeriodExpiry (f n : Nat) (s : State) : Out :=
  .next (s.mapField f fun d =>
    { d with ready := (d.ready.zip (List.range d.ready.length)).map fun (r, k) =>
        if k ≠ n then r
        else match s.launchOf r.launch with
          | some l => if l.agePeriod ≠ 0 ∧ s.readyLevel f r < l.ceiling then { r with aged := r.aged + 1 } else r
          | none => r })

/-- Fields across a stitch boundary (R350). -/
def neighbours (f : Nat) : List Nat :=
  [Nat.xor f 1] ++ (if 2 ≤ f then [f - 2] else []) ++ (if f + 2 < 6 then [f + 2] else [])

/-- The record that a field offers, and the field that takes it (R331): of the records that the field's own headroom would admit (R327). -/
def State.balance (s : State) (f : Nat) : Option (Ready × Nat) :=
  let draw : Ready → Nat := fun r => s.drawOf (s.readyDraw f r)
  let rs := ((s.fields[f]?.getD fieldOff).ready).filter fun r =>
    r.bound.isNone && r.gang.isNone && !s.quiesced.contains r.asid && s.headroom f (draw r)
  if (s.pickSeat f [] none none).isSome then none
  else
    let best := rs.foldl (fun (b : Option Ready) r => match b with
      | none => some r
      | some x => if s.readyLevel f x < s.readyLevel f r ∨ (s.readyLevel f x = s.readyLevel f r ∧ r.since < x.since) then some r else some x) none
    match best with
    | none => none
    | some r => ((neighbours f).find? fun g => (s.pickSeat g [] none none).isSome && s.headroom g (draw r)).map fun g => (r, g)

/-- BALANCING_TICK (R331): the record moves and keeps its age. -/
def execBalancingTick (f : Nat) (s : State) : Out :=
  .next (match s.balance f with
    | some (r, g) => (s.dequeue f [r]).mapField g fun d => { d with ready := d.ready ++ [r] }
    | none => s)

/-! ### Triggers and launches (R38 to R40, R249) -/

/-- Whether a counter at a global address is at least a target; an address that is not mapped is not. -/
def State.counterAtLeast (s : State) (f asid va target : Nat) : Bool :=
  match s.translate f asid va false with
  | some a => decide (target ≤ s.natAt a 8)
  | none => false

/-- Whether an armed launch's counter has reached its target (R40). -/
def State.armMet (s : State) (l : Launch) : Bool := l.phase == .armed && s.counterAtLeast l.field l.asid (l.word 6) (l.word 7)

/-- A fired trigger moves to the pending-launch store (R40). -/
def fireLaunch (s : State) (l : Launch) : State :=
  ({ s with tick := s.tick + 1 }.mapLaunch l.id fun l => { l with phase := .pending, since := s.tick }).promote

/-- Whether an armed launch can move now. -/
def State.canFire (s : State) (l : Launch) : Bool := s.armMet l && decide (s.pendingUsed l.field < 4096)

/-- TRIGGER_FIRE (R40): launch n of field f. -/
def execTriggerFire (f n : Nat) (s : State) : Out :=
  .next (match s.launchOf n with
    | some l => if l.field = f ∧ s.canFire l then fireLaunch s l else s
    | none => s)

/-- PENDING_ENTRY_FREED (R40): the oldest fired trigger of the field moves into the free entry. -/
def execPendingEntryFreed (f : Nat) (s : State) : Out :=
  .next (match s.launches.find? fun l => l.field == f && s.canFire l with
    | some l => fireLaunch s l
    | none => s)

/-- Whether an engine node fires (R249). -/
def State.nodeReady (s : State) (c : Cmd) : Bool :=
  c.phase == 0 && (match c.arm with | some (va, t) => s.counterAtLeast c.field c.asid va t | none => true) && s.unitFree c

/-- ENGINE_NODE_FIRE (R249): command n of field f. -/
def execEngineNodeFire (f n : Nat) (s : State) : Out :=
  .next (match s.cmds.find? fun c => c.id == n with
    | some c => if c.field = f ∧ s.nodeReady c then (s.runCmd c).promote else s
    | none => s)

/-- Whether a launch is complete (R38): its strands have exited, its commands have ended, and its operations on their way, which the release of
the completion covers, have been performed. -/
def State.launchDone (s : State) (l : Launch) : Bool :=
  l.phase != .armed && !l.lost && l.created == l.count && l.exited == l.count && !(s.cmds.any fun c => c.launch == l.id) &&
    !(s.flight.any fun o => o.launch == l.id)

/-- LAUNCH_COMPLETION (R38): DONE receives its add; a DONE that is not mapped and an overflow write an event record (R144, R344). -/
def execLaunchCompletion (n : Nat) (s : State) : Out :=
  .next (match s.launchOf n with
    | some l =>
      if s.launchDone l then
        let s' := { s with launches := s.launches.filter fun m => m.id != n }
        match s.translate l.field l.asid (l.word 4) true with
        | none => s'.launchReport l 0x06 (l.word 4) (l.word 4 % 2 ^ 32)
        | some a => match s'.counterAdd a 1 with
          | (s', _, false) => s'
          | (s', _, true) => s'.launchEvent l 0x0B
      else s
    | none => s)

/-- Words of a descriptor in slot sl of a submission sequence (R321). -/
def State.descriptorAt (s : State) (asid : Nat) (h : SeqHeader) (sl : Nat) : Option (Vector Word 8) :=
  match s.pageFrame asid h (sl / 256) with
  | none => none
  | some fr => (s.readGlobal (fieldOf (homeTile h.addr)) asid (fr + 4160 + 64 * (sl % 256)) 64).map fun bs =>
      Vector.ofFn fun k : Fin 8 => BitVec.ofNat 64 (leNat ((bs.drop (8 * k.val)).take 8))

/-- The header of a queue, and whether it holds a descriptor not consumed yet (R321). -/
def State.queueReady (s : State) (f : Nat) (u : Queue) : Option SeqHeader :=
  match s.translate f u.asid u.hdr false with
  | none => none
  | some a => let h := s.seqHeader a
    if u.cons < h.len ∧ s.launchRoom f true then some h else none

/-- The queues of a field in the order of its turn (R321). -/
def turnOrder (d : Field) : List Nat := (List.range d.queues.length).map fun k => (d.turn + k) % d.queues.length

/-- The queue that a field serves next. -/
def State.nextQueue (s : State) (f : Nat) : Option (Nat × Queue × SeqHeader) :=
  let d := s.fields[f]?.getD fieldOff
  (turnOrder d).findSome? fun k => match d.queues[k]? with
    | none => none
    | some u => (s.queueReady f u).map fun h => (k, u, h)

/-- A queue's descriptor taken: CONS grows, the turn goes to the next queue (R321). -/
def State.consume (s : State) (f k : Nat) : State :=
  s.mapField f fun d => { d with turn := (k + 1) % d.queues.length,
                                 queues := (d.queues.zip (List.range d.queues.length)).map fun (u, n) =>
                                   if n = k then { u with cons := u.cons + 1 } else u }

/-- SUBMISSION_CONSUME (R321): the next descriptor is accepted as a launch by the host; one that cannot be read is reported. -/
def execSubmissionConsume (f : Nat) (s : State) : Out :=
  .next (match s.nextQueue f with
    | none => s
    | some (k, u, h) =>
      let s' := s.consume f k
      match s.descriptorAt u.asid h u.cons with
      | none => (match s'.eventTo u.asid u.evt [0x06 + 0xFF * 2 ^ 8 + u.asid * 2 ^ 16, 0, 0, 0, 0, u.hdr, u.cons, s.stepOf u.asid] with
        | (true, s) => s
        | (false, s) => (s.counterAdd (idWord u.asid 7) 1).1)
      | some ws => s'.acceptLaunch
          { id := 0, field := f, words := ws, asid := u.asid, pri := fieldAt (ws[2]?.getD 0) 48 8, issuer := .queue u.evt,
            phase := .pending, created := 0, exited := 0, lost := false, args := none, tiles := [], agePeriod := u.agePeriod,
            ceiling := u.ceiling, short := false, since := 0 })

end Sys2Proof.Machine
end

