-- ==== Sys2Proof/Machine/EventsEngine.lean ====
section
/-!
DEFINITION. Steps of the engines (R247 to R261), the reduction rounds (R259, R334), the stamp units (R118), the noise sources (R79), the
islands (R326), the translation caches (R338), SECDED (R359) and the Bridle links (R333, R334).
-/

namespace Sys2Proof.Machine

/-! ### Completions -/

/-- The command of an id when it is under way and of an op. -/
def State.underWay (s : State) (id op : Nat) : Option Cmd :=
  s.cmds.find? fun c => c.id == id && c.op == op && (c.phase == 2 || c.phase == 3)

/-- A command performed by its engine: it completes or fails (R247). -/
def completion (op : Nat) (run : Cmd → State → Ran) (id : Nat) (s : State) : Out :=
  .next (match s.underWay id op with
    | some c => State.endRun c (run c s)
    | none => s)

/-- The elements or frames of a COPY, COPYM or CEXP. -/
def moveCount (c : Cmd) : Nat := if c.op = 2 then c.zf 2 0 32 else copyCount c

/-- k elements or frames of a COPY, COPYM or CEXP from number n on (R251 to R253). -/
def moveRun (c : Cmd) (k n : Nat) (s : State) (done : Nat) : Ran := if c.op = 2 then cexpLoop c k n s done else copyLoop c k n s done

/-- Elements or frames moved in the order of a list. -/
def moveEach (c : Cmd) : List Nat → State → Nat → Ran
  | [], s, done => (s, done, none)
  | n :: t, s, done => match moveRun c 1 n s done with
    | (s, done, none) => moveEach c t s done
    | r => r

/-- The bytes that a COPY, COPYM or CEXP has written. -/
def movedBytes (c : Cmd) : Nat := c.moved.length * (if c.op = 2 then tileBytes (c.zf 4 4 4) else 2 ^ c.zf 4 0 2)

/-- The next n elements or frames of a COPY, COPYM or CEXP moved, of those that it has not moved yet (R251 to R253). -/
def moveOn (n : Nat) (c : Cmd) (s : State) : Ran :=
  if c.moved.isEmpty then moveRun c (min n (moveCount c)) 0 s 0
  else moveEach c (((List.range (moveCount c)).filter fun k => !c.moved.contains k).take n) s (movedBytes c)

/-- What is left of a COPY, COPYM or CEXP. -/
def moveRest (c : Cmd) (s : State) : Ran := moveOn (moveCount c) c s

/-- The bytes that element n of a COPY or COPYM reads, or writes, by their physical pieces. -/
def State.elementPieces (s : State) (c : Cmd) (n : Nat) (write : Bool) : List (Nat × Nat) :=
  let (x, y, size) := copyElement c n
  ((if write then copyDests c y else [x]).map fun a => (s.pieces c.field c.asid a size write).getD []).flatten

/-- The memory, by its pieces, that a command under way has still to read or write as data (R353): of a copy the elements or frames not moved, of a
fabric command its range here, of an OFFLOAD or RECALL the frame outside the tile. -/
def State.cmdPieces (s : State) (c : Cmd) : List (Nat × Nat) :=
  let at_ : Nat × Nat → List (Nat × Nat) := fun (a, n) => (s.pieces c.field c.asid a n false).getD []
  let left := (List.range (moveCount c)).filter fun k => !c.moved.contains k
  (match c.op with
  | 0 => left.map fun k => s.elementPieces c k false ++ s.elementPieces c k true
  | 1 => left.map fun k => s.elementPieces c k false ++ s.elementPieces c k true
  | 2 => left.map fun k => ((cexpRanges s c k).map at_).flatten ++ at_ (cexpDest c k)
  | 10 => [at_ (c.zn 24, c.zf 26 32 32)]
  | 11 => [at_ (c.zn 24, c.zf 26 32 32)]
  | 12 => [at_ (c.zn 24, c.zf 26 32 32)]
  | 14 => (match s.entryOf c.launch c.handle with
    | some e => [at_ (c.zn 1, e.tileSize)]
    | none => [])
  | 15 => (match s.entryOf c.launch c.handle with
    | some e => [at_ ((s.pageState e c.seat.tile (c.zf 0 0 32)).2, e.tileSize)]
    | none => [])
  | _ => []).flatten

/-- Whether two lists of byte ranges meet. -/
def piecesMeet (xs ys : List (Nat × Nat)) : Bool := xs.any fun (a, n) => ys.any fun (b, m) => meets a n b m

/-- Whether element k of a COPY or COPYM can move before those in front of it that have not moved: the result is that of the loop in order, so
neither writes what the other reads or writes (R251). -/
def State.mayMove (s : State) (c : Cmd) (k : Nat) : Bool :=
  c.op == 2 || ((List.range k).filter fun j => !c.moved.contains j).all fun j =>
    let w := s.elementPieces c k true
    let v := s.elementPieces c j true
    !piecesMeet v w && !piecesMeet v (s.elementPieces c k false) && !piecesMeet (s.elementPieces c j false) w

/-- The elements of a copy move in any order that gives the result of the loop, and other agents move between them (R251, R282,
notes/assumptions/13.md): element k of command id. -/
def engineTurn (id k : Nat) (s : State) : Out :=
  .next (match s.cmds.find? fun c => c.id == id && decide (c.op ≤ 2) && c.phase == 2 with
    | none => s
    | some c =>
      if moveCount c ≤ k ∨ c.moved.contains k ∨ !s.mayMove c k then s
      else match moveRun c 1 k s (movedBytes c) with
      | (s, _, none) => s.mapCmd id fun c => { c with moved := c.moved ++ [k] }
      | (s, done, some f) => s.failCmd c f done)

/-- COPY_COMPLETION (R251). -/
def execCopyCompletion (c : Nat) (s : State) : Out := completion 0 moveRest c s
/-- COPYM_COMPLETION (R252). -/
def execCopymCompletion (c : Nat) (s : State) : Out := completion 1 moveRest c s
/-- CEXP_COMPLETION (R253). -/
def execCexpCompletion (c : Nat) (s : State) : Out := completion 2 moveRest c s
/-- POOL_COMPLETION (R255). -/
def execPoolCompletion (c : Nat) (s : State) : Out := completion 4 runPool c s
/-- SFORK_COMPLETION (R112). -/
def execSforkCompletion (c : Nat) (s : State) : Out := completion 5 runSfork c s
/-- A step of a pass (R136 to R138): in its turn it makes its lease queries, which drop the unlocked entries of the pages, waits for the reads and
adds that they find in flight, and then examines its pages. -/
def passStep (op : Nat) (run : Cmd → State → Ran) (id : Nat) (s : State) : Out :=
  .next (match s.underWay id op with
    | none => s
    | some c =>
      let found := s.passFinds c
      if !s.passTurn c then s
      else if !found.isEmpty then
        { s.mapCmd id (s.passAsks c found) with
          stm := s.stm.filter fun e => !(e.asid == c.asid && e.hdr == c.zn 16 && (found.map (·.page)).contains e.page) || e.lock }
      else if s.passWaits c then s
      else State.endRun c (run c s))

/-- SRETIRE_PASS (R257). -/
def execSretirePass (c : Nat) (s : State) : Out := passStep 6 runSretire c s
/-- Whether a STLD names a page that a pass has asked about and not finished: it waits (R138). -/
def State.stldWaits (s : State) (c : Cmd) : Bool :=
  s.cmds.any fun d => (d.op == 6 || d.op == 9) && decide (2 ≤ d.phase) && d.asid == c.asid && d.zn 16 == c.zn 16 &&
    d.leased.any fun p => decide (c.zf 17 0 32 ≤ p) && decide (p < c.zf 17 0 32 + c.zf 17 32 10)

/-- STLD_COMPLETION (R126). -/
def execStldCompletion (c : Nat) (s : State) : Out :=
  .next (match s.underWay c 7 with
    | some c => if s.stldWaits c then s else State.endRun c (runStld c s)
    | none => s)
/-- STINV_COMPLETION (R127). -/
def execStinvCompletion (c : Nat) (s : State) : Out := completion 8 runStinv c s
/-- BALLAST_PASS (R137). -/
def execBallastPass (c : Nat) (s : State) : Out := passStep 9 runBallast c s
/-- Whether a lane of a link is stopped by XOFF (R333). -/
def State.linkStopped (s : State) (link lane : Nat) : Bool := (s.fabric.links[link]?.getD ⟨0, 0, false⟩).xoff.getLsbD lane

/-- Whether a lane is stopped on one of the links of n bytes at an address on the remote side (R333, R334): 0 requests, 1 responses, 2 reductions,
3 management. -/
def State.lanesStopped (s : State) (addr n lane : Nat) : Bool :=
  (List.range (ceilDiv n 64)).any fun i => s.linkStopped (linkOf (addr + 64 * i)) lane

/-- Whether a lane that a fabric command sends on is stopped on one of its links (R333). -/
def State.laneStopped (s : State) (c : Cmd) (lane : Nat) : Bool := s.lanesStopped (c.zn 25) (c.zf 26 32 32) lane

/-- A fabric command performed once its lane runs (R333). -/
def fabricCompletion (op : Nat) (run : Cmd → State → Ran) (id : Nat) (s : State) : Out :=
  .next (match s.underWay id op with
    | some c => if s.laneStopped c 0 then s else State.endRun c (run c s)
    | none => s)

/-- FPUT_COMPLETION (R258). -/
def execFputCompletion (c : Nat) (s : State) : Out := fabricCompletion 10 runFput c s
/-- FGET_COMPLETION (R258). -/
def execFgetCompletion (c : Nat) (s : State) : Out := fabricCompletion 11 runFget c s

/-- Whether drain writes to a tile's frame at an address are still to land (R59, R219): those of its owner's seats, and of strands that are
saved, whose writes name the tile that they ran on. -/
def State.drainsInto (s : State) (a n : Nat) : Bool :=
  (s.seats ++ s.saved).any fun (_, st) =>
    st.drains.any (fun d => cfgKind d.fcfg == 2 && meets d.destFrame 1 a n) ||
      st.pend.any fun p => match p.res with | .mem x bs => meets x bs.length a n | _ => false

/-- OFFLOAD_COMPLETION (R261): after the drain writes that set out before the tile began to leave. -/
def execOffloadCompletion (c : Nat) (s : State) : Out :=
  .next (match s.underWay c 14 with
    | some c => match s.entryOf c.launch c.handle with
      | some e =>
        if s.drainsInto (sliceAddr c.seat.tile (s.pageState e c.seat.tile (c.zf 0 0 32)).2) e.tileSize then s
        else State.endRun c (runPaging c s)
      | none => State.endRun c (runPaging c s)
    | none => s)
/-- RECALL_COMPLETION (R261). -/
def execRecallCompletion (c : Nat) (s : State) : Out := completion 15 runPaging c s

/-- The first k parts of a command's work: elements of a copy, bags of a POOL, pages of a fork or a pass, 64-byte transfers of a fabric command
or of a tile's frame. STLD installs all its entries or none (R126), STINV does not fail (R127), and a contribution is not written here (R259). -/
def firstParts (k : Nat) (c : Cmd) (s : State) : State × Nat :=
  let ran : Ran → State × Nat := fun r => (r.1, r.2.1)
  let moved : Nat → State × Option Fail → State × Nat := fun n r => (r.1, match r.2 with | none => n | some _ => 0)
  match c.op with
  | 0 => ran (moveOn k c s)
  | 1 => ran (moveOn k c s)
  | 2 => ran (moveOn k c s)
  | 4 => ran (runPool { c with z := c.z.setIfInBounds 9 (BitVec.ofNat 64 (c.zf 9 0 32 + min k (c.zf 9 32 32) * 2 ^ 32)) } s)
  | 5 => (match headerAt s c false (c.zn 16), headerAt s c true (c.zn 17) with
    | .ok p, .ok q => ran (forkPages c p q (min k (c.zf 18 0 32 / 256)) 0 s 0)
    | _, _ => (s, 0))
  | 6 => (match passHeader s c with
    | .ok h => ((passPages (sretirePage c h) ((passPageList c h).take k) s ⟨0, 0, 0, 0, []⟩).1, 0)
    | .error _ => (s, 0))
  | 9 => (match passHeader s c with
    | .ok h => ((passPages (ballastPage c h) ((passPageList c h).take k) s ⟨0, 0, 0, 0, []⟩).1, 0)
    | .error _ => (s, 0))
  | 10 =>
    let n := min (64 * k) (c.zf 26 32 32)
    if c.zf 26 0 9 ≠ s.fabric.self then (s, 0)
    else (match s.engRead c.field c.asid (c.zn 24) n with
      | .ok bs => moved n (s.engWrite c.field c.asid (c.zn 25) bs)
      | .error _ => (s, 0))
  | 11 => ran (fgetWrite c (min (64 * k) (c.zf 26 32 32)) s)
  | 14 => (match s.entryOf c.launch c.handle with
    | some e => moved (min (64 * k) e.tileSize) (s.copyRange c.field c.asid true
        (sliceAddr c.seat.tile (s.pageState e c.seat.tile (c.zf 0 0 32)).2) (c.zn 1) (min (64 * k) e.tileSize))
    | none => (s, 0))
  | 15 => (match s.entryOf c.launch c.handle with
    | some e => moved (min (64 * k) e.tileSize) (s.copyRange c.field c.asid true (s.pageState e c.seat.tile (c.zf 0 0 32)).2 (c.zn 1)
        (min (64 * k) e.tileSize))
    | none => (s, 0))
  | _ => (s, 0)

/-- What a failing command had written before (R247): the first parts of its work, free in number (notes/assumptions/7.md). A command that is not
under way, or never began its work, its tile being in another state (R261), has written nothing. -/
def partialRun (c : Cmd) (s : State) : State × Nat :=
  if c.phase ≠ 2 then (s, 0) else firstParts (Config.writtenBefore s.fresh) c { s with fresh := s.fresh + 1 }

/-- A command stopped by a failure (R247): what it had written stands, and the tile of an OFFLOAD or RECALL keeps its frame and returns to its old
state (R261). -/
def State.stopCmd (s : State) (c : Cmd) (f : Fail) : State :=
  let (s, n) := partialRun c s
  let s := match s.entryOf c.launch c.handle with
    | some e => if c.phase = 2 ∧ c.op = 14 then s.setPageState e c.seat.tile (c.zf 0 0 32) 0
        else if c.phase = 2 ∧ c.op = 15 then s.setPageState e c.seat.tile (c.zf 0 0 32) 2 else s
    | none => s
  s.failCmd c f n

/-- The codes with which an engine command fails after its issue (R247, R335): a translation fault, poisoned data, a sequence write, a failed link, a
failed precondition, an abandoned round, a run-time fence. -/
def failureCodes : List Nat := [0x05, 0x06, 0x08, 0x0E, 0x20, 0x21, 0x26, 0x27]

/-- The failure that stopped a command, as its event record gives it (R344): with a translation fault, poisoned data or a sequence slot that is not
open goes the address at fault, a free value (notes/assumptions/7.md), and its TRAPARG form. -/
def stoppedBy (s : State) (code : Nat) : Fail :=
  let a := (Config.failAddress s.fresh).toNat
  if code = 0x06 then faultAt a
  else if code = 0x0E then ⟨0x0E, a / 8 * 8, a % 0x800000 / 64 * 64⟩
  else if code = 0x08 then ⟨0x08, a, 0⟩
  else ⟨code, 0, 0⟩

/-- ENGINE_FAILURE (R247): a command under way is stopped by a failure that another agent caused, of a code of the list; a paged tile keeps its
frame, and a STINV never fails (R127). -/
def execEngineFailure (c : Nat) (code : BitVec 8) (s : State) : Out :=
  .next (match s.cmds.find? fun d => d.id == c && (d.phase == 2 || d.phase == 3) && d.op != 8 && failureCodes.contains code.toNat with
    | none => s
    | some c => s.stopCmd c (stoppedBy s code.toNat))

/-! ### Reduction rounds (R259, R334) -/

/-- A window's round. -/
def State.round (s : State) (q : Nat) : Round := s.fabric.rounds[q]?.getD ⟨Vector.replicate 4 0, false, [], []⟩
/-- A word of window q as its plane has it (R334). -/
def State.redWord (s : State) (q k : Nat) : Word := (s.round q).conf[k]?.getD 0
/-- The fields of window q. -/
def State.redField (s : State) (q k lo len : Nat) : Nat := fieldAt (s.redWord q k) lo len
/-- A word of register entry q (R334). -/
def State.redReg (s : State) (q k : Nat) : Word := (s.fabric.red[q]?.getD (Vector.replicate 4 0))[k]?.getD 0
/-- A window's round replaced. -/
def State.putRound (s : State) (q : Nat) (r : Round) : State :=
  { s with fabric := { s.fabric with rounds := s.fabric.rounds.setIfInBounds q r } }

/-- One element added in port order (R259). -/
def reduceElem (etag x y : Nat) : Nat :=
  if etag = 3 then
    let v := signedOf 32 x + signedOf 32 y
    lowBits 32 (if v < -(2 ^ 31 : Nat) then -(2 ^ 31 : Nat) else if (2 ^ 31 : Nat) ≤ v then (2 ^ 31 - 1 : Nat) else v)
  else (add32f x y).1

/-- The contributions in ascending port order. -/
def byPort (cs : List Contribution) : List Contribution :=
  ((List.range 512).map fun p => cs.filter fun c => c.port == p).flatten

/-- The window's contents from its contributions (R259). -/
def reduceBytes (etag n : Nat) (cs : List Contribution) : List Byte :=
  match byPort cs with
  | [] => []
  | c :: t => ((List.range (n / 4)).map fun k =>
      let word : Contribution → Nat := fun c => leNat ((c.data.drop (4 * k)).take 4)
      leBytes 4 (t.foldl (fun a d => reduceElem etag a (word d)) (word c))).flatten

/-- Contributions that wait enter the open round, each unless its port has contributed to it. -/
def openNext (r : Round) : Round :=
  r.waiting.foldl (fun r c => if r.contribs.any fun d => d.port == c.port then { r with waiting := r.waiting ++ [c] }
    else { r with contribs := r.contribs ++ [c] }) { r with waiting := [] }

/-- The commands of contributions fail (R247, R334). -/
def failContribs (f : Fail) : List Contribution → State → State
  | [], s => s
  | x :: t, s =>
    let s' := match x.cmd with
      | none => s
      | some id => match s.cmds.find? fun c => c.id == id with
        | some c => s.failCmd c f 0
        | none => s
    failContribs f t s'

/-- What a full round does at its home (R259): the result at START, then the add to RCTR. -/
def roundEffect (q : Nat) (cs : List Contribution) (s : State) : State × Option Fail :=
  let asid := s.redField q 2 48 16
  stepsOf [fun s => s.engWrite 0 asid (s.redWord q 0).toNat (reduceBytes (s.redField q 2 32 4) (s.redField q 1 0 32) cs),
    fun s => match (cs.map (·.rctr)).find? (· != 0) with
      | none => (s, none)
      | some a => addCounter 0 asid 12 0 0 a s] s

/-- A full round closed (R259): its effect, and the contributors' commands to be acknowledged, or failed where it cannot be made (R258). -/
def closeRound (q : Nat) (s : State) : State :=
  let r := s.round q
  let s := match roundEffect q (byPort r.contribs) s with
    | (s, none) =>
      { s with cmds := s.cmds.map fun (c : Cmd) => if r.contribs.any (fun d => d.cmd == some c.id) then { c with phase := 4 } else c }
    | (s, some f) => failContribs f r.contribs s
  s.putRound q (openNext { s.round q with contribs := [] })

/-- Rounds closed while they are full, with fuel. -/
def closeFull (q : Nat) : Nat → State → State
  | 0, s => s
  | n + 1, s => if (s.round q).contribs.length < s.redField q 2 16 10 ∨ s.redField q 2 16 10 = 0 then s else closeFull q n (closeRound q s)

/-- An FRED that its window does not accept (R259): RADDR, ETAG, BYTES or the identifier differ. -/
def State.redMatches (s : State) (q : Nat) (c : Cmd) : Bool :=
  (s.round q).live && (s.redWord q 0).toNat == c.zn 25 && s.redField q 2 32 4 == c.zn 28 && s.redField q 1 0 32 == c.zf 26 32 32 &&
    s.redField q 2 48 16 == c.asid

/-- A contribution put into a window's rounds (R259). -/
def contribute (q : Nat) (x : Contribution) (s : State) : State :=
  let r := s.round q
  let r := if r.contribs.any fun d => d.port == x.port then { r with waiting := r.waiting ++ [x] } else { r with contribs := r.contribs ++ [x] }
  closeFull q (r.waiting.length + 2) (s.putRound q r)

/-- Whether a command's parameters are those of a window (R259). -/
def State.redFound (s : State) (c : Cmd) : Bool := (List.range 32).any fun q => s.redMatches q c

/-- FRED_CONTRIBUTION (R259): at window q, from port p: of this device's command c, whose data is read now, or of another device, whose RCTR is
free (notes/assumptions/7.md). A command of this device contributes to the window that its parameters name, and fails where no window has them. -/
def execFredContribution (q port : Nat) (c : Option Nat) (data : List (BitVec 8)) (s : State) : Out :=
  .next (match c with
    | none =>
      if (s.round q).live ∧ port ≠ s.fabric.self ∧ data.length = s.redField q 1 0 32 then
        contribute q ⟨port, none, Config.contributorCounter s.fresh, data⟩ { s with fresh := s.fresh + 1 }
      else s
    | some id => match s.underWay id 12 with
      | none => s
      | some cmd =>
        if s.laneStopped cmd 2 || (s.round q).contribs.any (fun d => d.cmd == some id) || (s.round q).waiting.any (fun d => d.cmd == some id) then s
        else match fabricFail s cmd with
          | some e => s.failCmd cmd e 0
          | none =>
            if cmd.zf 26 0 9 ≠ s.fabric.self then s
            else if !s.redFound cmd then s.failCmd cmd precondition 0
            else if !s.redMatches q cmd then s
            else match s.engRead cmd.field cmd.asid (cmd.zn 24) (cmd.zf 26 32 32) with
              | .error e => s.failCmd cmd e 0
              | .ok bs => contribute q ⟨s.fabric.self, some id, cmd.zn 27, bs⟩ s)

/-- FRED_ACKNOWLEDGE (R259): the command's round has closed; for a window of another device the acknowledgement comes from outside, once the
reduction lane has carried the contribution (R333). -/
def execFredAcknowledge (c : Nat) (s : State) : Out :=
  .next (match s.cmds.find? fun d => d.id == c && d.op == 12 with
    | some c =>
      if c.phase = 4 then s.completeCmd c (c.zf 26 32 32)
      else if c.phase = 2 ∧ c.zf 26 0 9 ≠ s.fabric.self ∧ !s.laneStopped c 2 then
        (match fabricFail s c with
          | some e => s.failCmd c e 0
          | none => match s.engRead c.field c.asid (c.zn 24) (c.zf 26 32 32) with
            | .error e => s.failCmd c e 0
            | .ok _ => s.completeCmd c (c.zf 26 32 32))
      else s
    | none => s)

/-- An open round abandoned (R334): nothing is written or added, its own contributions fail; those that wait open the next round. -/
def abandonRound (q : Nat) (s : State) : State :=
  let r := s.round q
  closeFull q (r.waiting.length + 2) ((failContribs ⟨0x26, 0, 0⟩ r.contribs s).putRound q (openNext { r with contribs := [] }))

/-- REDUCTION_ROUND_TIMEOUT (R334). -/
def execReductionRoundTimeout (q : Nat) (s : State) : Out :=
  whenOk (decide ((s.round q).contribs ≠ []) && s.redField q 1 32 32 != 0) (abandonRound q) s

/-- REDUCTION_WINDOW_ACK (R334): the switch plane has the configuration, which the management lane of START's link carries (R333). -/
def execReductionWindowAck (q : Nat) (s : State) : Out :=
  whenOk ((s.redReg q 3).getLsbD 63 && !s.linkStopped (linkOf (s.redReg q 0).toNat) 3) (fun s => s.putRound q { s.round q with live := true }) s

/-! ### Stamp units (R118) -/

/-- A stamped word rebased at the boundaries up to b, at step now (R118). -/
def sweepWord (f b now w : Nat) : Nat :=
  let v := w % 2 ^ 32
  let st := w / 2 ^ 32 % 2 ^ 16
  let (v', st', _) := rebase f (b + 2 ^ 16) 8 v (trueStep st (now + 2 ^ 16)) 0
  v' + st' % 2 ^ 16 * 2 ^ 32 + w / 2 ^ 48 * 2 ^ 48

/-- Stamped words at physical keys rebased. -/
def sweepAt (f b now : Nat) : List Nat → State → State
  | [], s => s
  | a :: t, s => sweepAt f b now t (s.putNat a 8 (sweepWord f b now (s.natAt a 8)))

/-- The words of a stamped entry with its handle in the slice of tile t, or wherever a map 3 places them, within the extents. -/
def State.stampedWords (s : State) (asid h : Nat) (e : Entry) (t : Nat) : List Nat :=
  let e := Entry.seen h e
  let es : List (Nat × Nat × Nat) := ((List.range e.planes).map fun p => ((List.range e.extRow).map fun r =>
    (List.range e.extCol).map fun c => (p, r, c)).flatten).flatten
  (es.filter fun (_, r, c) => e.inside r c).filterMap fun (p, r, c) =>
    let k := e.tileNumber p r c
    let off := 8 * (64 * (r % 64) + c % 64)
    if e.map = 3 then s.translate 0 asid (e.frame k + off) true
    else if e.owner t k ≠ some t then none
    else if e.pageable then
      let (code, fr) := s.pageState e t k
      if code ≤ 1 then some (sliceAddr t fr + off) else s.translate (fieldOf t) asid (fr + off) true
    else some (sliceAddr t (e.frame k) + off)

/-- The metadata words of a sequence (R104, R118), with its decay factor. -/
def State.metadataWords (s : State) (asid hdr : Nat) : List Nat × Nat :=
  match s.translate 0 asid hdr false with
  | none => ([], 0)
  | some a => let h := s.seqHeader a; (if h.valid then s.metadataKeys asid h else [], h.decay)

/-- The entries of the tables of an identifier's launches that have not completed, each with its launch and its handle. -/
def State.liveEntries (s : State) (asid : Nat) : List (Launch × Nat × Entry) :=
  ((s.launches.filter fun l => l.asid == asid).map fun l => match s.imageAt (l.word 0) with
    | some i => i.table.map fun (h, e) => (l, h, e)
    | none => []).flatten

/-- The tiles whose slices hold words of an entry (R18, R55): of a local entry and of H0 those that hold the launch's copy, of an entry with a slice
home its owners; one tile stands for an entry in global memory. -/
def stampTiles (l : Launch) (h : Nat) (e : Entry) : List Nat :=
  if h = 0 ∨ e.map = 0 then l.tiles else if e.map = 3 then [0] else List.range 384

/-- Every stamped word of an identifier rebased at a boundary (R118). -/
def sweep (asid b : Nat) (s : State) : State :=
  let now := s.stepOf asid
  let es := s.liveEntries asid
  let s := (es.filter fun x => x.2.2.kind == 2).foldl (fun s (l, h, e) =>
    (stampTiles l h e).foldl (fun s t => sweepAt e.decay b now (s.stampedWords asid h e t) s) s) s
  ((es.filter fun x => x.2.2.kind == 3).map fun x => x.2.2.base).eraseDups.foldl (fun s h =>
    let (ws, f) := s.metadataWords asid h
    sweepAt f b now ws s) s

/-- Whether the next boundary of an identifier's sweep has been reached. -/
def State.sweepReady (s : State) (asid : Nat) : Bool := decide (((assocFind asid s.swept).getD 0 + 1) * 2 ^ 14 ≤ s.stepOf asid)

/-- STAMP_SWEEP (R118): the next boundary at or below the identifier's step; a STEPADV that waited for it can issue. -/
def execStampSweep (asid : BitVec 16) (s : State) : Out :=
  let n := asid.toNat
  let k := (assocFind n s.swept).getD 0 + 1
  let s := if s.sweepReady n then { sweep n (k * 2 ^ 14) s with swept := assocPut n k s.swept } else s
  .next s

/-! ### Noise, islands, caches, SECDED -/

/-- One word dealt to each seat of a field (R79): the size of a block is not stated. -/
def dealWords : List Nat → State → State
  | [], s => s
  | k :: ks, s =>
    let (w, s) := s.freeNoise
    dealWords ks { s with streams := assocPut k ((assocFind k s.streams).getD [] ++ [w]) s.streams }

/-- SAFFRON_BLOCK (R79): a block that passes is dealt to the seats; the 16th failure in a row disables the source. -/
def execSaffronBlock (f : Nat) (pass : Bool) (s : State) : Out :=
  whenOk (s.fieldUp f && !s.noiseOff f) (fun s =>
    if pass then dealWords ((List.range 128).map fun k => 128 * f + k) (s.mapField f fun d => { d with noiseFails := 0 })
    else s.mapField f fun d => { d with noiseFails := d.noiseFails + 1, noiseOff := decide (16 ≤ d.noiseFails + 1) }) s

/-- IEST_UPDATE (R326, R327, R360): the estimate in A, the microsecond's energy truncated to whole millijoules, and the clock stretch
(notes/assumptions/47.md). -/
def execIestUpdate (f : Nat) (amps : BitVec 16) (s : State) : Out :=
  whenOk (s.fieldUp f) (fun s => s.mapField f fun d =>
    { d with iest := amps.toNat, placed := 0, energy := d.energy + 7 * amps.toNat / 10000, stretch := decide (d.icap < amps.toNat) }) s

/-- PLL_RELOCK_DONE (R326). -/
def execPllRelockDone (f : Nat) (s : State) : Out := .next (s.mapField f fun d => { d with relock := false })

/-- GENERATION_PURGE_DONE (R338): no cache holds an entry of the identifier filled before, and GENDONE rises to GEN. -/
def execGenerationPurgeDone (asid : BitVec 16) (s : State) : Out :=
  let n := asid.toNat
  whenOk (decide (s.idRecord n 6 < s.idRecord n 5)) (fun s =>
    { s with xlat := s.xlat.filter fun e => e.asid != n }.putNat (idWord n 6) 8 (s.idRecord n 5)) s

/-- ECC_WRITEBACK (R359): memory already holds the corrected word; CORR counts it. -/
def execEccWriteback (addr : Nat) (s : State) : Out :=
  .next (match errorField addr with
    | some f => s.mapField f fun d => { d with corr := min (d.corr + 1) (2 ^ 32 - 1) }
    | none => s)

/-- A field's count of poisoned words one higher (R359). -/
def State.countError (s : State) (f : Nat) : State := s.mapField f fun d => { d with uncorr := min (d.uncorr + 1) 65535 }

/-- A double-bit error (R343, R359): it poisons its word, which its field counts where it is one of a slice, a code store or a memory link. Host
memory is not the device's, and a word that is poisoned already stays so (notes/assumptions/53.md). -/
def errorTurn (e : SoftError) (s : State) : Out :=
  .next (match e with
    | .memory a => if targetOf a = 2 ∨ a / 8 ∈ s.poison then s
        else (match errorField a with
          | some f => (s.setPoison (a / 8)).countError f
          | none => s.setPoison (a / 8))
    | .code t a => if 384 ≤ t ∨ (t, a / 8 * 8) ∈ s.codePoison then s
        else { s with codePoison := (t, a / 8 * 8) :: s.codePoison }.countError (fieldOf t))

/-! ### Bridle links (R333, R334) -/

/-- A link changed. -/
def State.mapLink (s : State) (l : Nat) (g : Link → Link) : State :=
  { s with fabric := { s.fabric with links := s.fabric.links.setIfInBounds l (g (s.fabric.links[l]?.getD ⟨0, 0, false⟩)) } }

/-- BRIDLE_XOFF (R333): the sender stops the lane. The part itself takes every flit at once and sends none (notes/assumptions/97.md). -/
def execBridleXoff (link lane : Nat) (s : State) : Out :=
  whenOk (decide (lane < 4)) (fun s => s.mapLink link fun l => { l with xoff := l.xoff ||| (1#4 <<< lane) }) s
/-- BRIDLE_XON (R333). -/
def execBridleXon (link lane : Nat) (s : State) : Out :=
  whenOk (decide (lane < 4)) (fun s => s.mapLink link fun l => { l with xoff := l.xoff &&& ~~~(1#4 <<< lane) }) s

/-- Whether a fabric command under way has a transfer on a link (R334). -/
def Cmd.onLink (c : Cmd) (l : Nat) : Bool :=
  (c.op == 10 || c.op == 11 || c.op == 12) && decide (2 ≤ c.phase) && (List.range (c.zf 26 32 32 / 64)).any fun i => linkOf (c.zn 25 + 64 * i) == l

/-- Commands under way on a link fail, with what they had written (R247, R258, R333). -/
def failOnLink (l : Nat) : List Cmd → State → State
  | [], s => s
  | c :: t, s => failOnLink l t (if c.onLink l then s.stopCmd c ⟨0x20, c.zn 25, 0⟩ else s)

/-- A link failed (R333): down, its FLFAIL bit set, its commands failed. -/
def State.linkFails (s : State) (l : Nat) : State :=
  let s := { s with fabric := { s.fabric with up := s.fabric.up &&& ~~~(1#36 <<< l), failed := s.fabric.failed ||| (1#36 <<< l) } }
  failOnLink l s.cmds s

/-- BRIDLE_REPLAY_REQUEST (R333): a replay that works clears the count; the eighth that fails fails the link. -/
def execBridleReplayRequest (link : Nat) (ok : Bool) (s : State) : Out :=
  whenOk (s.fabric.up.getLsbD link) (fun s =>
    if ok then s.mapLink link fun l => { l with replays := 0 }
    else if 8 ≤ (s.fabric.links[link]?.getD ⟨0, 0, false⟩).replays + 1 then
      (s.mapLink link fun l => { l with replays := 0 }).linkFails link
    else s.mapLink link fun l => { l with replays := l.replays + 1 }) s

/-- Whether a link is training. -/
def State.training (s : State) (link : Nat) : Bool := (s.fabric.links[link]?.getD ⟨0, 0, false⟩).training

/-- LINK_TRAINING_DONE (R334): the link is up; the links of a field that is not are down (R350, R352). -/
def execLinkTrainingDone (link : Nat) (s : State) : Out :=
  whenOk (s.training link && s.fieldUp (link / 6)) (fun s =>
    { s.mapLink link fun _ => ⟨0, 0, false⟩ with fabric := { (s.mapLink link fun _ => ⟨0, 0, false⟩).fabric with up := s.fabric.up ||| (1#36 <<< link) } }) s
/-- LINK_TRAINING_TIMEOUT (R334): FLFAIL is set. -/
def execLinkTrainingTimeout (link : Nat) (s : State) : Out :=
  whenOk (s.training link) (fun s =>
    { s.mapLink link fun l => { l with training := false } with
      fabric := { (s.mapLink link fun l => { l with training := false }).fabric with failed := s.fabric.failed ||| (1#36 <<< link) } }) s

end Sys2Proof.Machine
end

