-- ==== Sys2Proof/Machine/EventsHost.lean ====
section
/-!
DEFINITION. Steps of the host at its two ports (R317 to R325), the islands' registers (R326, R327), the fabric window (R334), the MIGR
window (R348) and requests of other devices (R258).
-/

namespace Sys2Proof.Machine

/-! ### Ports and the semaphore (R318, R319) -/

/-- A port's registers. -/
def State.port (s : State) (p : Nat) : Port := s.ports[p]?.getD portReset
/-- A port's registers changed. -/
def State.mapPort (s : State) (p : Nat) (g : Port → Port) : State := { s with ports := s.ports.setIfInBounds p (g (s.port p)) }

/-- A guarded write (R319): from a port that does not own the semaphore it is ignored and sets that port's ERR bit. -/
def guarded (port : Nat) (f : State → State) (s : State) : Out :=
  .next (if s.semOwner = port + 1 then f s else { s with semErr := s.semErr ||| (1#2 <<< port) })

/-- What the host asks of the part: where Keel could not be brought up, the part presents the FW window, with the semaphore that guards it, and
nothing else, so the request does nothing (R349, notes/assumptions/73.md). -/
def presented (f : State → Out) (s : State) : Out := if s.fenced 0 then .next s else f s

/-- PORTSEM_WRITE (R319). -/
def execPortsemWrite (port : Nat) (v : BitVec 64) (s : State) : Out :=
  let owner := fieldAt v 0 2
  let next := if s.semOwner = 0 ∧ owner = port + 1 then owner else if s.semOwner = port + 1 ∧ owner = 0 then 0 else s.semOwner
  .next { s with semOwner := next, semErr := s.semErr &&& ~~~(bitsAt v 2 2) }

/-- PORT_LINK_DOWN (R319): a semaphore that the port owns is released. -/
def execPortLinkDown (port : Nat) (s : State) : Out :=
  .next (let s := s.mapPort port fun p => { p with up := false }
    if s.semOwner = port + 1 then { s with semOwner := 0 } else s)

/-! ### Registers of the islands (R326, R327) -/

/-- Values that ISLANDf admits (R326). -/
def icapOk (v : Nat) : Bool := decide (100 ≤ v) && decide (v ≤ 1600)
/-- FREQ: 800 to 3,300 MHz in steps of 25. -/
def freqOk (v : Nat) : Bool := decide (800 ≤ v) && decide (v ≤ 3300) && v % 25 == 0

/-- ISLAND_WRITE (R326): ICAP and FREQ are judged separately; a new FREQ relocks the PLL. A write that ERR records and that also clears it leaves it
set: the model's choice (notes/assumptions/96.md). -/
def execIslandWrite (port f : Nat) (v : BitVec 64) (s : State) : Out :=
  presented (guarded port fun s => s.mapField f fun d =>
    let c := fieldAt v 48 16
    let q := fieldAt v 16 16
    { d with icap := if icapOk c then c else d.icap, freq := if freqOk q then q else d.freq,
             relock := if freqOk q then true else d.relock,
             stretch := decide ((if icapOk c then c else d.icap) < d.iest),
             err := if !icapOk c || !freqOk q then true else if v.getLsbD 0 then false else d.err }) s

/-- DRAW_WRITE (R327). -/
def execDrawWrite (port : Nat) (v : BitVec 64) (s : State) : Out := presented (guarded port fun s => { s with drawA := v }) s

/-! ### BAR2, HDM and CXL.cache (R317, R320) -/

/-- W2BASE_WRITE (R320): a value above 47 or with a reserved bit is ignored. -/
def execW2baseWrite (port : Nat) (v : BitVec 64) (s : State) : Out :=
  presented (whenOk (decide (v.toNat < 48)) fun s => s.mapPort port fun p => { p with w2base := v.toNat }) s

/-- A host access of main memory: n bytes read, or bytes written; an offset of a field that is fenced, or not yet released (R350), reads all ones,
drops the write and reports a completer abort. -/
def mainAccess (port off : Nat) (w : Option (List (BitVec 8))) (s : State) : State :=
  let a := physOf 0 off
  if s.reachable a then
    match w with
    | none => { s with result := some (s.readPhys a 8) }
    | some bs => { s.writePhys a bs with result := none }
  else { s with aer := s.aer ++ [port], result := match w with | none => some (List.replicate 8 (-1)) | some _ => none }

/-- BAR2_ACCESS (R320): an access within the 64 GiB window at offset off; a read gives eight bytes. -/
def execBar2Access (port off : Nat) (w : Option (List (BitVec 8))) (s : State) : Out :=
  presented (whenOk (decide (off < 2 ^ 36)) fun s => mainAccess port ((s.port port).w2base * 2 ^ 36 + off) w s) s

/-- HDM_ACCESS (R317): an access through the HDM-H mapping of device main memory, where system software has enabled it on the port. -/
def execHdmAccess (port off : Nat) (w : Option (List (BitVec 8))) (s : State) : Out :=
  presented (whenOk ((s.port port).hdm && decide (off < 6 * 2 ^ 39)) (mainAccess port off w)) s

/-- CXL_CACHE_SNOOP (R317): the device answers; memory has one copy of each line, so the answer gives the line's 64 bytes and nothing
changes. -/
def execCxlCacheSnoop (addr : Nat) (s : State) : Out :=
  presented (fun s => .next { s with result := some (s.readPhys (physOf 2 (addr / 64 * 64)) 64) }) s

/-! ### Submission queues (R322, R323) -/

/-- The queue of an identifier and number, with its field. -/
def State.findQueue (s : State) (asid n : Nat) : Option (Nat × Queue) :=
  (List.range 6).findSome? fun f => ((s.fields[f]?.getD fieldOff).queues.find? fun u => u.asid == asid && u.number == n).map fun u => (f, u)

/-- QSTAT written: CONS of the queue named, the reason, REFUSED (R322). -/
def State.queueStatus (s : State) (port cons why : Nat) : State :=
  s.mapPort port fun p => { p with qstat := BitVec.ofNat 64 (cons * 2 ^ 32 + why * 2 ^ 8 + (if why = 0 then 0 else 1)) }

/-- Staging register k of a port. -/
def Port.q (p : Port) (k : Nat) : Word := p.qreg[k]?.getD 0
/-- A field of QREG2 (R322). -/
def Port.q2 (p : Port) (lo len : Nat) : Nat := fieldAt (p.q 2) lo len

/-- A header at a global address as the host's registration checks it. -/
def State.headerOk (s : State) (asid va : Nat) (scope6 : Bool) : Option SeqHeader :=
  match s.translate 0 asid va true with
  | none => none
  | some a => let h := s.seqHeader a
    if h.valid && va % 64 == 0 && h.psize == 3 && (!scope6 || h.scope == 6) then some h else none

/-- Why a registration is refused (R322), 0 when it is not. -/
def State.registerWhy (s : State) (p : Port) : Nat :=
  let asid := p.q2 0 16
  match s.headerOk asid (p.q 0).toNat true with
  | none => 1
  | some _ =>
    if (s.headerOk asid (p.q 1).toNat true).isNone then 2
    else if p.q2 23 1 ≠ 0 ∨ 5 < p.q2 20 3 ∨ 247 < p.q2 24 8 ∨ p.q 3 ≠ 0 then 3
    else if s.fenced (p.q2 20 3) then 4
    else match s.findQueue asid (p.q2 16 4) with
      | some (_, u) => match s.translate 0 asid u.hdr false with
        | some a => if u.cons < (s.seqHeader a).cap then 5 else 0
        | none => 0
      | none => 0

/-- The queue of an identifier and number removed. -/
def State.dropQueue (s : State) (asid n : Nat) : State :=
  { s with fields := s.fields.map fun d => { d with queues := d.queues.filter fun u => !(u.asid == asid && u.number == n) } }

/-- CONS of the queue that a port's QREG2 names. -/
def State.consOf (s : State) (p : Port) : Nat := match s.findQueue (p.q2 0 16) (p.q2 16 4) with | some (_, u) => u.cons | none => 0

/-- QGO_REGISTER (R322): CONS starts at the header's LEN. -/
def execQgoRegister (port : Nat) (s : State) : Out :=
  let p := s.port port
  let asid := p.q2 0 16
  let why := s.registerWhy p
  presented (fun s => .next (if why ≠ 0 then s.queueStatus port (s.consOf p) why
    else match s.headerOk asid (p.q 0).toNat true with
      | none => s
      | some h =>
        let u : Queue := { asid := asid, number := p.q2 16 4, hdr := (p.q 0).toNat, evt := (p.q 1).toNat, cons := h.len,
                           agePeriod := p.q2 32 32, ceiling := p.q2 24 8 }
        ((s.dropQueue asid (p.q2 16 4)).mapField (p.q2 20 3) fun d => { d with queues := d.queues ++ [u] }).queueStatus port h.len 0)) s

/-- QGO_RETIRE (R322): consumption stops; a queue that is not registered is reported with WHY 7. -/
def execQgoRetire (port : Nat) (s : State) : Out :=
  let p := s.port port
  presented (fun s => .next (match s.findQueue (p.q2 0 16) (p.q2 16 4) with
    | some (_, u) => (s.dropQueue u.asid u.number).queueStatus port u.cons 0
    | none => s.queueStatus port 0 7)) s

/-- QGO_INVALID (R322). -/
def execQgoInvalid (port : Nat) (s : State) : Out := presented (fun s => .next (s.queueStatus port (s.consOf (s.port port)) 6)) s

/-- The queue's header that a QAPP write names: none with a reserved bit set or for a queue not registered (R323). -/
def State.appendHeader (s : State) (v : BitVec 64) : Option (Nat × SeqHeader) :=
  if fieldAt v 20 11 ≠ 0 then none
  else match s.findQueue (fieldAt v 0 16) (fieldAt v 16 4) with
    | none => none
    | some (_, u) => (s.translate 0 u.asid u.hdr true).map fun a => (u.asid, s.seqHeader a)

/-- QAPPR written. -/
def State.appendResult (s : State) (port : Nat) (r : Word) : State := s.mapPort port fun p => { p with qappr := r }

/-- SRSV with the host as the agent (R323, R108): the start, all ones when it is refused. An invalid header does nothing (R102), and the answer
is then that of a refusal (notes/assumptions/69.md). -/
def State.hostReserve (s : State) (asid : Nat) (h : SeqHeader) (n : Nat) : Word × State :=
  if !h.valid then (-1, s)
  else match s.reserve asid h n (s.stepOf asid) with
    | (some start, s) => (BitVec.ofNat 64 start, s)
    | (none, s) => (-1, s)

/-- SCMT with the host as the agent (R323, R109): 0 after a commit. -/
def State.hostCommit (s : State) (asid : Nat) (h : SeqHeader) (start : Nat) : Word × State :=
  if !h.valid then (0xFFFFFFFFFFFFFFFE, s)
  else match s.commit asid h start with
    | some s => (0, s)
    | none => (0xFFFFFFFFFFFFFFFE, s)

/-- QAPP_RESERVE (R323): the start, all ones when refused. -/
def execQappReserve (port : Nat) (v : BitVec 64) (s : State) : Out :=
  presented (fun s => .next (match s.appendHeader v with
    | none => s.appendResult port 0xFFFFFFFFFFFFFFFD
    | some (asid, h) => match s.hostReserve asid h (fieldAt v 32 32) with
      | (r, s) => s.appendResult port r)) s

/-- QAPP_COMMIT (R323): 0 after a commit. -/
def execQappCommit (port : Nat) (v : BitVec 64) (s : State) : Out :=
  presented (fun s => .next (match s.appendHeader v with
    | none => s.appendResult port 0xFFFFFFFFFFFFFFFD
    | some (asid, h) => match s.hostCommit asid h (fieldAt v 32 32) with
      | (r, s) => s.appendResult port r)) s

/-- A header of an identifier that lies in host memory, which tile 0 of Keel serves (R323). -/
def State.hostHeader (s : State) (asid hdr : Nat) : Option SeqHeader :=
  match s.translate 0 asid hdr true with
  | none => none
  | some a => if targetOf a = 2 ∧ !s.fenced 0 then some (s.seqHeader a) else none

/-- What the host does of itself (R317, R323): an operation on a sequence gives its answer as eight bytes. That
they come as inputs, and what an invalid header answers, are the model's choices (notes/assumptions/69.md). -/
def hostTurn (op : HostOp) (s : State) : Out :=
  .next (match op with
    | .write a bs => { s.writePhys (physOf 2 a) bs with result := none }
    | .hdm port on => s.mapPort port fun p => { p with hdm := on }
    | .reserve asid hdr n => (match s.hostHeader asid hdr with
      | none => s
      | some h => match s.hostReserve asid h n with
        | (r, s) => { s with result := some (leBytes 8 r.toNat) })
    | .commit asid hdr start => (match s.hostHeader asid hdr with
      | none => s
      | some h => match s.hostCommit asid h start with
        | (r, s) => { s with result := some (leBytes 8 r.toNat) }))

/-! ### Watches (R325) -/

/-- Watches of a port, armed or waiting. -/
def State.portWatches (s : State) (port : Nat) : List Watch :=
  s.watches.filter fun w => match w.waiter with | .host p _ => p == port | _ => false

/-- WGO_ARM (R325): a watch whose counter's home has no free entry waits in the port's watch store. The registers name no identifier, so
the address is translated for identifier 0 (notes/assumptions/15.md). -/
def execWgoArm (port : Nat) (s : State) : Out :=
  let p := s.port port
  let st : Nat → Word := fun k => p.wstage[k]?.getD 0
  presented (fun s => .next (if 64 ≤ (s.portWatches port).length ∨ (st 2).toNat / 2 ^ 6 ≠ 0 then s.mapPort port fun p => { p with wign := true }
    else match s.translate 0 0 (st 0).toNat false with
      | none => s.mapPort port fun p => { p with wign := true }
      | some a => s.addWatch a (st 1).toNat (.host port (fieldAt (st 2) 0 6)) (s.watchRoom a))) s

/-- The first watch of a port that waits and finds an entry. -/
def State.storeReady (s : State) (port : Nat) : Option Watch := (s.portWatches port).find? fun w => !w.armed && s.watchRoom w.addr

/-- WATCH_STORE_ARM (R325): it is armed. -/
def execWatchStoreArm (port : Nat) (s : State) : Out :=
  .next (match s.storeReady port with
    | some w => { s with watches := s.watches.map fun v => if v.id == w.id then { v with armed := true } else v }
    | none => s)

/-- WATCH_FIRE (R325): the message of host watch n is sent once. -/
def execWatchFire (n : Nat) (s : State) : Out :=
  .next (match s.watches.find? fun w => w.id == n with
    | some w => match w.waiter with
      | .host p v => if s.watchMet w then { s with watches := s.watches.filter (fun x => x.id != n), irqs := s.irqs ++ [(p, v)] } else s
      | .strand _ _ => s
    | none => s)

/-! ### The fabric window (R334) -/

/-- Whether a fabric command is in flight. -/
def State.fabricBusy (s : State) : Bool := s.cmds.any fun c => c.op == 10 || c.op == 11 || c.op == 12

/-- FSELF_WRITE (R334): ignored with a reserved bit or while a fabric command is in flight. -/
def execFselfWrite (port : Nat) (v : BitVec 64) (s : State) : Out :=
  presented (guarded port fun s => if v.toNat < 512 ∧ !s.fabricBusy then { s with fabric := { s.fabric with self := v.toNat } } else s) s

/-- FRETRAIN_WRITE (R334): the link goes down and trains; its commands fail. -/
def execFretrainWrite (port : Nat) (v : BitVec 64) (s : State) : Out :=
  presented (guarded port fun s =>
    if v.toNat < 36 then
      let l := v.toNat
      let s := failOnLink l s.cmds { s with fabric := { s.fabric with up := s.fabric.up &&& ~~~(1#36 <<< l) } }
      s.mapLink l fun k => { k with training := true, replays := 0 }
    else s) s

/-- Register entry q with a word replaced. -/
def State.redSet (s : State) (q k : Nat) (v : Word) : State :=
  { s with fabric := { s.fabric with red := s.fabric.red.setIfInBounds q ((s.fabric.red[q]?.getD (Vector.replicate 4 0)).setIfInBounds k v) } }

/-- A reduction window that may be made valid (R334): its fields in range, its home this device, no other valid entry's window met. -/
def State.redOk (s : State) (q : Nat) : Bool :=
  let f : Nat → Nat → Nat → Nat := fun k lo len => fieldAt (s.redReg q k) lo len
  f 2 36 12 == 0 && f 2 26 6 == 0 && f 2 9 7 == 0 && (f 2 32 4 == 7 || f 2 32 4 == 3) && decide (1 ≤ f 2 16 10) && decide (f 2 16 10 ≤ 512) &&
    f 2 0 9 == s.fabric.self && f 1 0 32 % 64 == 0 && decide (64 ≤ f 1 0 32) && decide (f 1 0 32 ≤ 2 ^ 20) && f 0 0 64 % 64 == 0 &&
    (List.range 32).all fun k => k == q || !(s.redReg k 3).getLsbD 63 ||
      !meets (s.redReg k 0).toNat (fieldAt (s.redReg k 1) 0 32) (s.redReg q 0).toNat (f 1 0 32)

/-- FRED_WINDOW_SET (R334): a write of W3 that sets VALID sends the configuration to the switch plane. -/
def execFredWindowSet (port w : Nat) (v : BitVec 64) (s : State) : Out :=
  presented (guarded port fun s =>
    if v.getLsbD 63 ∧ fieldAt v 0 63 = 0 ∧ s.redOk w then
      (s.redSet w 3 v).putRound w { s.round w with conf := #v[s.redReg w 0, s.redReg w 1, s.redReg w 2, v], live := false }
    else s) s

/-- FRED_WINDOW_CLEAR (R334): the window is removed from its plane; an open round is abandoned, and what waited for it fails with it. -/
def execFredWindowClear (port w : Nat) (v : BitVec 64) (s : State) : Out :=
  presented (guarded port fun s =>
    if v.getLsbD 63 ∨ fieldAt v 0 63 ≠ 0 then s
    else
      let r := s.round w
      ((failContribs ⟨0x26, 0, 0⟩ (r.contribs ++ r.waiting) s).putRound w ⟨Vector.replicate 4 0, false, [], []⟩).redSet w 3 v) s

/-! ### MIGR (R348) -/

/-- Seats that hold a strand of an identifier. -/
def State.seatsWith (s : State) (asid : Nat) : List SeatId :=
  (s.seats.filter fun (_, st) => st.asid == asid).map fun (k, _) => ⟨k / 2, k % 2⟩

/-- MIGR_QUIESCE (R348): placement stops and every strand of the identifier is pre-empted; one in handler mode, or without a frame, as soon as it can
be. -/
def execMigrQuiesce (port : Nat) (asid : BitVec 16) (s : State) : Out :=
  presented (guarded port fun s =>
    let n := asid.toNat
    let s := { s with quiesced := if s.quiesced.contains n then s.quiesced else s.quiesced ++ [n], quiescing := some n, savedCount := 0,
                      migr := BitVec.ofNat 64 (n + 2 ^ 16), migrDone := false }
    (s.seatsWith n).foldl (fun s q => if (s.strandAt q).any fun st => st.asid == n then preemptSeat (s.want q) q else s) s) s

/-- Whether the part knows a strand by its record: on a seat, in a ready queue, or parked on a watch. -/
def State.knowsRecord (s : State) (asid rec_ : Nat) : Bool :=
  s.seats.any (fun (_, st) => st.asid == asid && st.recAddr == rec_) || s.waiting.any fun r => r.asid == asid && r.record == rec_

/-- The launch of a strand whose record alone says of it (R363, R364): its image is the one its record's PC lies in, and its tiles hold what system
software copied there. Its DONE is not known, so it never completes (notes/assumptions/83.md). -/
def carriedLaunch (id asid : Nat) (rc : Record) : Launch :=
  { id := id, field := 0, words := (Vector.replicate 8 0).set 0 (BitVec.ofNat 64 rc.pc), asid := asid, pri := rc.pri, issuer := .queue 0,
    phase := .open_, created := 1, exited := 0, lost := true, args := none, tiles := List.range 384, agePeriod := 0, ceiling := 0, short := false,
    since := 0 }

/-- The tile of a strand that its record alone names (R56, R363): that of the container that this part saved, else the one it ran on, which the record
does not give (notes/assumptions/83.md). -/
def State.carriedTile (s : State) (asid : Nat) (rc : Record) (a : Nat) : Nat :=
  ((if rc.flags.testBit 2 then (s.savedAt asid rc.waddr).bind (·.named) else none).getD (Config.carriedTile (s.readPhys a 64)))

/-- A strand that only its record in the identifier's pool names becomes runnable, or waits on its counter (R24, R28, R363): a bound one on its own
tile id, and where this part has no such tile the move fails and the strand is left to its source. A record with ENTRY set is one of a strand that
never left its seat, or never had one. -/
def State.adopt (asid : Nat) (s : State) (rec_ : Nat) : State :=
  match s.translate 0 asid rec_ false with
  | none => s
  | some a =>
    let rc := s.recordAt a
    if !rc.valid || rc.flags.testBit 4 || s.knowsRecord asid rec_ then s
    else
      let l := carriedLaunch s.nextId asid rc
      let s' := { s with launches := s.launches ++ [l], nextId := s.nextId + 1 }
      let tile := s.carriedTile asid rc a
      let bound := s'.staysOn l
      if bound && !(decide (tile < 384) && s.fieldUp (fieldOf tile)) then s
      else
      let s := s'
      let r : Ready := { record := rec_, asid := asid, launch := l.id, since := s.tick, aged := 0, bound := if bound then some tile else none,
                         named := if bound then some tile else none, gang := if rc.flags.testBit 1 then some rc.team else none }
      if !rc.flags.testBit 0 then s.makeReady s.lowestField r
      else match s.translate 0 asid rc.waddr false with
        | some c => if rc.wtgt ≤ s.natAt c 8 then s.makeReady s.lowestField r else s.addWatch c rc.wtgt (.strand r s.lowestField) true
        | none => s

/-- A gang-shared container that another part saved becomes one that this part restores (R57, R363): its bytes go to the tiles of the members that
shared them (notes/assumptions/83.md). A frame that holds anything else, or that the part knows, is passed over. -/
def State.adoptShare (asid : Nat) (s : State) (frame : Nat) : State :=
  let bs := s.copyGlobal asid 6 frame 262144
  let nat : Nat → Nat → Nat := fun p k => leNat ((bs.drop p).take k)
  if nat 0 4 ≠ 0x6378 ∨ nat 10 2 ≠ 1 ∨ nat 64 2 ≠ 10 ∨ s.gangs.any (fun g => g.frame == frame && g.asid == asid) then s
  else
    let team := nat 32 4
    let of : Ready → Bool := fun r => r.asid == asid && r.gang == some team && (Config.carriedShare bs).1.contains (r.record / 64)
    let members := (s.waiting.filter of).map (·.record)
    if members.isEmpty then s
    else { s with gangs := s.gangs ++
      [⟨frame, asid, team, members, ((Config.carriedShare bs).2.zip ((bs.drop 80).take (nat 68 4)))⟩] }

/-- MIGR_RELEASE (R348, R363): placement goes on, requests to pre-empt the identifier's seats end, and the strands whose records its pool holds and
that the part does not know, moved here or saved before a hot reset (R364), can be placed, the shared data of their gangs with them. -/
def execMigrRelease (port : Nat) (asid : BitVec 16) (s : State) : Out :=
  presented (guarded port fun s =>
    let n := asid.toNat
    let held := (s.seatsWith n).map SeatId.key
    let s := { s with quiesced := s.quiesced.filter (· != n), quiescing := if s.quiescing = some n then none else s.quiescing,
                      wanted := s.wanted.filter fun k => !held.contains k, migr := BitVec.ofNat 64 (n + 2 ^ 17) }
    let s := (s.poolEntries n (s.idRecord n 8) 64 true).foldl (State.adopt n) s
    (s.poolEntries n (s.idRecord n 4) 262144 true).foldl (State.adoptShare n) s) s

/-- QUIESCE_DONE (R348): no seat holds a strand of the identifier. -/
def execQuiesceDone (asid : BitVec 16) (s : State) : Out :=
  whenOk (decide (s.quiescing = some asid.toNat) && (s.seatsWith asid.toNat).isEmpty) (fun s => { s with quiescing := none, migrDone := true }) s

/-! ### Registers without behaviour of their own (R318) -/

/-- A sealed register of a port written (R358): CTX is ignored while the port's command is busy. -/
def sealWrite (r : Seal) (off : Nat) (v : Word) : Seal :=
  if 0x300 ≤ off ∧ off ≤ 0x338 then (if r.sstat % 4 = 1 then r else { r with ctx := r.ctx.setIfInBounds ((off - 0x300) / 8) v })
  else if off = 0x340 then { r with saddr := v.toNat }
  else if off = 0x348 then { r with slen := v.toNat }
  else if 0x360 ≤ off ∧ off ≤ 0x378 then { r with tag := r.tag.setIfInBounds ((off - 0x360) / 8) v }
  else if off = 0x380 then { r with stateAddr := v.toNat }
  else r

/-- An identifier window word that is in range (R334): its reserved bits zero. -/
def winOk (v : Word) : Bool := fieldAt v 41 22 == 0 && fieldAt v 25 7 == 0

/-- A word of the fabric window written (R334): reserved bits and values out of range are ignored. -/
def fabricWrite (s : State) (off : Nat) (v : Word) : State :=
  if off = 0x2010 then (if v.toNat / 2 ^ 36 = 0 then { s with fabric := { s.fabric with failed := s.fabric.failed &&& ~~~(v.setWidth 36) } } else s)
  else if 0x2100 ≤ off ∧ off < 0x2500 then
    (if off % 16 = 0 ∧ winOk v then { s with fabric := { s.fabric with win := s.fabric.win.setIfInBounds ((off - 0x2100) / 16) v } } else s)
  else if 0x2800 ≤ off ∧ off < 0x2C00 ∧ off % 32 ≠ 24 then
    let q := (off - 0x2800) / 32
    let k := off % 32 / 8
    let ok : Bool := match k with
      | 0 => v.toNat % 64 == 0
      | 1 => fieldAt v 0 32 % 64 == 0 && decide (64 ≤ fieldAt v 0 32) && decide (fieldAt v 0 32 ≤ 2 ^ 20)
      | _ => fieldAt v 36 12 == 0 && fieldAt v 26 6 == 0 && fieldAt v 9 7 == 0 && (fieldAt v 32 4 == 7 || fieldAt v 32 4 == 3) &&
          decide (1 ≤ fieldAt v 16 10) && decide (fieldAt v 16 10 ≤ 512)
    if ok then s.redSet q k v else s
  else s

/-- REGISTER_WRITE (R318): registers that only hold a value or clear bits; anything else is ignored, an offset that is no register's among them.
The FW and FAB windows are guarded by the semaphore. -/
def execRegisterWrite (port off : Nat) (v : BitVec 64) (s : State) : Out :=
  if off % 8 ≠ 0 ∨ s.fenced 0 ∧ ¬ (0x1000 ≤ off ∧ off < 0x2000) then .next s
  else if off = 0x1000 then guarded port (fun s => { s with security := { s.security with fwAddr := v.toNat } }) s
  else if off = 0x1008 then guarded port (fun s => { s with security := { s.security with fwLen := v.toNat } }) s
  else if 0x1000 ≤ off ∧ off < 0x2000 then guarded port id s
  else if 0x2000 ≤ off ∧ off < 0x3000 then guarded port (fun s => fabricWrite s off v) s
  else if 0x3000 ≤ off ∧ off < 0x3100 then guarded port (fun s =>
    if off = 0x3000 ∧ v.toNat / 2 ^ 18 = 0 ∧ (fieldAt v 16 2 = 0 ∨ fieldAt v 16 2 = 3) then { s with migr := v } else s) s
  else .next
    (if off = 0x0088 then
      (if 100 ≤ fieldAt v 0 32 ∧ fieldAt v 0 32 ≤ 1000000 then { s with gquant := fieldAt v 0 32 } else s)
    else if 0x0100 ≤ off ∧ off ≤ 0x0118 then s.mapPort port fun p => { p with qreg := p.qreg.setIfInBounds ((off - 0x100) / 8) v }
    else if 0x0200 ≤ off ∧ off ≤ 0x0210 then s.mapPort port fun p => { p with wstage := p.wstage.setIfInBounds ((off - 0x200) / 8) v }
    else if off = 0x0220 then s.mapPort port fun p => { p with wign := p.wign && !v.getLsbD 16, wlost := p.wlost && !v.getLsbD 17 }
    else if 0x0300 ≤ off ∧ off < 0x0400 then s.mapPort port fun p => { p with sealReg := sealWrite p.sealReg off v }
    else s)

/-- The present-field mask of DEVID (R318, R352). -/
def State.presentMask (s : State) : Nat := ((List.range 6).map fun f => if s.fieldUp f then 2 ^ f else 0).sum

/-- A staging register as it is read: QREG2[23], QREG3 and WSTAGE2[63:6] are reserved and read as zero (R4), though a command sees them as they were
written (R322, R325, notes/assumptions/84.md). -/
def stagingRead (off : Nat) (v : Word) : Word :=
  if off = 0x0110 then v &&& ~~~(1#64 <<< 23) else if off = 0x0118 then 0 else if off = 0x0210 then v &&& 0x3F else v

/-- What a port reads at an offset (R318 to R326, R334, R348, R355, R358 to R360); an unlisted offset reads zero. -/
def State.readRegister (s : State) (port off : Nat) : Word :=
  let p := s.port port
  let d : Nat → Field := fun f => s.fields[f]?.getD fieldOff
  let n : Nat → Word := BitVec.ofNat 64
  if off % 8 ≠ 0 ∨ s.fenced 0 ∧ off ≠ 0 ∧ off ≠ 8 ∧ ¬ (0x1000 ≤ off ∧ off < 0x2000) then 0
  else if off = 0x0000 then n (0x6384 * 2 ^ 48 + 0x00A0 * 2 ^ 32 + s.presentMask)
  else if off = 0x0008 then n (s.semOwner + 4 * s.semErr.toNat)
  else if off = 0x0010 then n port
  else if 0x0040 ≤ off ∧ off ≤ 0x0068 then
    let x := d ((off - 0x40) / 8)
    n (x.icap * 2 ^ 48 + x.iest * 2 ^ 32 + x.freq * 2 ^ 16 + (if x.stretch then 4 else 0) + (if x.phase = .fenced then 2 else 0) +
      (if x.err then 1 else 0))
  else if off = 0x0080 then s.drawA
  else if off = 0x0088 then n s.gquant
  else if off = 0x0090 then n p.w2base
  else if 0x0100 ≤ off ∧ off ≤ 0x0118 then stagingRead off (p.q ((off - 0x100) / 8))
  else if off = 0x0128 then p.qstat
  else if off = 0x0148 then p.qappr
  else if 0x0200 ≤ off ∧ off ≤ 0x0210 then stagingRead off (p.wstage[(off - 0x200) / 8]?.getD 0)
  else if off = 0x0220 then
    n ((if p.wlost then 2 ^ 17 else 0) + (if p.wign then 2 ^ 16 else 0) +
      ((s.portWatches port).filter fun w => !w.armed).length * 2 ^ 8 + (s.portWatches port).length)
  else if 0x0300 ≤ off ∧ off ≤ 0x0338 then p.sealReg.ctx[(off - 0x300) / 8]?.getD 0
  else if off = 0x0340 then n p.sealReg.saddr
  else if off = 0x0348 then n p.sealReg.slen
  else if off = 0x0358 then n p.sealReg.sstat
  else if 0x0360 ≤ off ∧ off ≤ 0x0378 then p.sealReg.tag[(off - 0x360) / 8]?.getD 0
  else if off = 0x0380 then n p.sealReg.stateAddr
  else if off = 0x1000 then n s.security.fwAddr
  else if off = 0x1008 then n s.security.fwLen
  else if off = 0x1018 then n (s.security.fwStat + s.security.fwReason * 2 ^ 8)
  else if off = 0x2000 then n s.fabric.self
  else if off = 0x2008 then s.fabric.up.setWidth 64
  else if off = 0x2010 then s.fabric.failed.setWidth 64
  else if 0x2100 ≤ off ∧ off < 0x2500 then (if off % 16 = 0 then s.fabric.win[(off - 0x2100) / 16]?.getD 0 else 0)
  else if 0x2800 ≤ off ∧ off < 0x2C00 then s.redReg ((off - 0x2800) / 32) (off % 32 / 8)
  else if off = 0x3000 then s.migr
  else if off = 0x3008 then n (s.savedCount * 2 ^ 32 + (if s.migrDone && (s.seatsWith (fieldAt s.migr 0 16)).isEmpty then 2 else 0) + (if s.quiescing.isSome then 1 else 0))
  else if 0x4000 ≤ off ∧ off ≤ 0x4028 then
    let x := d ((off - 0x4000) / 8)
    n (x.consumed * 2 ^ 48 + x.uncorr * 2 ^ 32 + x.corr)
  else if 0x4040 ≤ off ∧ off ≤ 0x4068 then
    let x := d ((off - 0x4040) / 8)
    if x.phase = .fenced then 0 else n x.energy
  else 0

/-! ### Requests from other devices (R258) -/

/-- The bytes of a request of another device: an add is one of a counter's word. -/
def portBytes : FabricOp → Nat
  | .read k => k
  | .write bs => bs.length
  | .add => 8

/-- FABRIC_PORT_REQUEST (R258): a read gives its bytes, none where a byte is not mapped; a write and an add of 1 to a counter act here. Every answer
travels on the response lane, and the request waits while that is stopped (R333); a part whose Keel is fenced is not there (R349). -/
def execFabricPortRequest (asid : BitVec 16) (addr : BitVec 64) (op : FabricOp) (s : State) : Out :=
  let n := asid.toNat
  let a := addr.toNat
  presented (fun s => .next (if s.lanesStopped a (portBytes op) 1 then s else match op with
    | .read k => match s.engRead 0 n a k with
      | .ok bs => { s with result := some bs }
      | .error _ => { s with result := none }
    | .write bs => match s.engWrite 0 n a bs with
      | (s', none) => { s' with result := some [] }
      | (s', some _) => { s' with result := none }
    | .add => match s.translate 0 n a true with
      | none => { s with result := none }
      | some x => match s.counterAdd x 1 with
        | (s, _, false) => { s with result := some [] }
        | (s, _, true) => { s.event n 0x0B 0xFF 0 0 a 0 0 with result := some [] })) s

end Sys2Proof.Machine
end

