-- ==== Sys2Proof/Machine/Keccak.lean ====
section
/-!
DEFINITION. The digests that the spec names: SHAKE256 (R315, R357) and KMAC256 (R315, R358), the functions of the published standards that
the names stand for (notes/assumptions/70.md).
-/

namespace Sys2Proof.Machine

/-- The places of the 24 lanes that turn, lane (x, y) at x + 5·y: each place follows from the one before it. -/
def turnPlaces : Nat → Nat × Nat → List Nat
  | 0, _ => []
  | n + 1, (x, y) => (x + 5 * y) :: turnPlaces n (y, (2 * x + 3 * y) % 5)

/-- How far each of the 25 lanes turns: the place reached after t moves by the triangular number of t + 1; lane 0 stays. -/
def keccakTurns : List Nat :=
  let ps := turnPlaces 24 (1, 0)
  (List.range 25).map fun k => if ps.contains k then (ps.idxOf k + 1) * (ps.idxOf k + 2) / 2 % 64 else 0

/-- The bits of the shift register of eight places that the constants are made of. -/
def registerBits : Nat → Nat → List Bool
  | 0, _ => []
  | n + 1, r => r.testBit 0 :: registerBits n (if r < 128 then 2 * r else Nat.xor (2 * r) 0x171)

/-- The constants of the 24 rounds: seven bits of the register each, at the places 2^j - 1. -/
def keccakRounds : List Word :=
  let bits := registerBits 168 1
  (List.range 24).map fun k => BitVec.ofNat 64 ((List.range 7).map fun j => if bits.getD (7 * k + j) false then 2 ^ (2 ^ j - 1) else 0).sum

/-- One round on the 25 lanes. -/
def keccakRound (a : List Word) (rc : Word) : List Word :=
  let at_ : List Word → Nat → Nat → Word := fun a x y => a.getD (x % 5 + 5 * (y % 5)) 0
  let c := (List.range 5).map fun x => (List.range 5).foldl (fun w y => w ^^^ at_ a x y) 0
  let d : Nat → Word := fun x => c.getD ((x + 4) % 5) 0 ^^^ (c.getD ((x + 1) % 5) 0).rotateLeft 1
  let a := (List.range 25).map fun k => a.getD k 0 ^^^ d (k % 5)
  let b := (List.range 25).map fun k => (at_ a (k % 5 + 3 * (k / 5)) (k % 5)).rotateLeft (keccakTurns.getD ((k % 5 + 3 * (k / 5)) % 5 + 5 * (k % 5)) 0)
  let a := (List.range 25).map fun k => at_ b k (k / 5) ^^^ (~~~(at_ b (k + 1) (k / 5)) &&& at_ b (k + 2) (k / 5))
  match a with
  | w :: t => (w ^^^ rc) :: t
  | [] => []

/-- The permutation. -/
def keccak (a : List Word) : List Word := keccakRounds.foldl keccakRound a

/-- A block of 136 bytes taken into the lanes. -/
def absorb (a : List Word) (block : List Byte) : List Word :=
  keccak ((List.range 25).map fun k => a.getD k 0 ^^^ BitVec.ofNat 64 (leNat ((block.drop (8 * k)).take 8)))

/-- The message with its suffix, padded to whole blocks. -/
def spongePad (suffix : Nat) (m : List Byte) : List Byte :=
  let n := 136 - (m.length + 1) % 136
  let m := m ++ [BitVec.ofNat 8 suffix] ++ List.replicate (n % 136) 0
  m.take (m.length - 1) ++ [(m.getD (m.length - 1) 0) ^^^ 0x80]

/-- The first 32 bytes that the sponge of rate 136 gives. -/
def sponge (suffix : Nat) (m : List Byte) : List Byte :=
  let bs := spongePad suffix m
  let a := (runsOf 136 (bs.length / 136) bs).foldl absorb (List.replicate 25 0)
  ((a.take 4).map fun w => leBytes 8 w.toNat).flatten

/-- SHAKE256 with 256 bits of output, byte 0 lowest. -/
def shake256 (m : List Byte) : BitVec 256 := BitVec.ofNat 256 (leNat (sponge 0x1F m))

/-- The bytes of a number, most significant first, at least one; fuel bounds their count. -/
def beBytes : Nat → Nat → List Byte
  | 0, _ => []
  | fuel + 1, n => (if n < 256 then [] else beBytes fuel (n / 256)) ++ [BitVec.ofNat 8 n]

/-- A number encoded with its length before it. -/
def leftEncode (n : Nat) : List Byte := BitVec.ofNat 8 (beBytes 16 n).length :: beBytes 16 n

/-- A byte string encoded with its length in bits. -/
def encodeString (x : List Byte) : List Byte := leftEncode (8 * x.length) ++ x

/-- A string padded with zeros to whole blocks behind the encoded rate. -/
def bytePad (x : List Byte) : List Byte :=
  let y := leftEncode 136 ++ x
  y ++ List.replicate (ceilDiv y.length 136 * 136 - y.length) 0

/-- The bytes of an ASCII string. -/
def asciiBytes (x : String) : List Byte := x.toList.map fun c => BitVec.ofNat 8 c.toNat

/-- KMAC256 with 256 bits of output, byte 0 lowest. -/
def kmac256 (key data : List Byte) (custom : String) : BitVec 256 :=
  let prefix_ := bytePad (encodeString (asciiBytes "KMAC") ++ encodeString (asciiBytes custom))
  BitVec.ofNat 256 (leNat (sponge 0x04 (prefix_ ++ bytePad (encodeString key) ++ data ++ beBytes 16 256 ++ [BitVec.ofNat 8 2])))

/-- The tag that the security unit makes over data under a context string of 64 bytes, given as a number (R315, R358). -/
def sealTag (ctx : Nat) (data : List Byte) : BitVec 256 :=
  kmac256 (leBytes 32 (kmac256 Config.deviceSecret (leBytes 64 ctx) "skanyx seal").toNat) data "yarc cache"

end Sys2Proof.Machine
end

