-- ==== Sys2Proof/Machine/EventsBringup.lean ====
section
/-!
DEFINITION. Bring-up and fencing (R349 to R353), hot reset (R364), and the security unit and firmware window (R354 to R358).
-/

namespace Sys2Proof.Machine

/-! ### Bring-up (R349, R350) -/

/-- A field's phase. -/
def State.phaseOf (s : State) (f : Nat) : FieldPhase := match s.fields[f]? with | some d => d.phase | none => .fenced
/-- A field's phase set. -/
def State.setPhase (s : State) (f : Nat) (p : FieldPhase) : State := s.mapField f fun d => { d with phase := p }
/-- Neighbours of a field that are up (R350). -/
def State.upNeighbours (s : State) (f : Nat) : List Nat := (neighbours f).filter s.fieldUp

/-- A field released (R350): its scheduler starts, its Bridle links train. -/
def State.release_ (s : State) (f : Nat) : State :=
  let s := s.setPhase f .up
  (List.range 6).foldl (fun s j => s.mapLink (6 * f + j) fun l => { l with training := true }) s

/-- The field at the head of the order takes its turn (R350): a deferred one trains or is fenced, another one asks for its rail; with
fuel for the fields passed. -/
def nextField : Nat → State → State
  | 0, s => s
  | n + 1, s =>
    match s.bringup with
    | [] => s
    | f :: t =>
      if s.phaseOf f = .deferred then
        if (s.upNeighbours f).isEmpty then nextField n ({ s with bringup := t }.setPhase f .fenced)
        else (s.mapField f fun d => { d with phase := .training, trained := [] })
      else s.setPhase f .powering

/-- The field at the head is done: the next one takes its turn. -/
def State.fieldDone (s : State) (f : Nat) : State := nextField 12 { s with bringup := s.bringup.filter (· != f) }

/-- A field whose step missed its limit is fenced (R350). -/
def State.fenceAtStart (s : State) (f : Nat) : State := (s.setPhase f .fenced).fieldDone f

/-- The security unit at a start (R355, R356): the next index is 1,024·F, which counts for the whole run, until a state is loaded; the flash's image
runs, and what FW holds reads as at reset. -/
def Security.start (u : Security) : Security :=
  { u with index := 1024 * u.floor, loaded := 0, busy := [], fwAddr := 0, fwLen := 0, fwStat := 0, fwReason := 0, fwCmd := 0, image := none,
           running := u.flash, started := u.floor }

/-- The image in the boot flash: the part's own until FWCMD 2 has written another (notes/assumptions/7.md). -/
def Security.flashImage (u : Security) : List Byte := if u.flash.isEmpty then Config.bootImage else u.flash

/-- Whether the boot ROM accepts the image in the boot flash (R354): its signature verifies and its SVN is at least the floor. -/
def Security.bootAccepts (u : Security) : Bool :=
  Config.imageVerifies u.flashImage && decide (u.svnFloor ≤ Config.imageVersion u.flashImage)

/-- The boot flash as the board brings it: image where FWCMD 2 has written none (R354). -/
def Security.withFlash (u : Security) (image : List Byte) : Security := if u.flash.isEmpty then { u with flash := image } else u

/-- KEEL_POWER_ON (R349, R354): the boot ROM checks the boot flash. image: what the board's flash holds where FWCMD 2 has written none, empty for the
part's own; failed: how many of Keel's tiles did not pass. -/
def execKeelPowerOn (image : List Byte) (failed : Nat) (s : State) : Out :=
  whenOk (!s.keel && s.phaseOf 0 == .off) (fun s =>
    let s := { s with security := (s.security.withFlash image).start }
    if s.security.bootAccepts && decide (failed ≤ 4) then
      nextField 12 { (s.mapField 0 fun d => { d with spares := failed }).release_ 0 with keel := true, bringup := [1, 2, 3, 4, 5] }
    else s.setPhase 0 .fenced) s

/-- FIELD_POWER_GOOD (R350). -/
def execFieldPowerGood (f : Nat) (s : State) : Out := whenOk (s.phaseOf f == .powering) (fun s => s.setPhase f .locking) s
/-- FIELD_POWER_GOOD_TIMEOUT (R350). -/
def execFieldPowerGoodTimeout (f : Nat) (s : State) : Out := whenOk (s.phaseOf f == .powering) (fun s => s.fenceAtStart f) s
/-- FIELD_PLL_LOCK (R350). -/
def execFieldPllLock (f : Nat) (s : State) : Out := whenOk (s.phaseOf f == .locking) (fun s => s.setPhase f .testing) s
/-- FIELD_PLL_LOCK_TIMEOUT (R350). -/
def execFieldPllLockTimeout (f : Nat) (s : State) : Out := whenOk (s.phaseOf f == .locking) (fun s => s.fenceAtStart f) s

/-- A field that passed its test trains, or is deferred while no neighbour is up (R350). -/
def State.startTraining (s : State) (f : Nat) : State :=
  if !(s.upNeighbours f).isEmpty then s.mapField f fun d => { d with phase := .training, trained := [] }
  else
    let s := s.mapField f fun d => { d with phase := .deferred, retried := true }
    nextField 12 { s with bringup := s.bringup.filter (· != f) ++ [f] }

/-- FIELD_BIST_DONE (R7, R350): up to four failed tiles are mapped out. -/
def execFieldBistDone (f failed : Nat) (s : State) : Out :=
  whenOk (s.phaseOf f == .testing) (fun s =>
    if 4 < failed then s.fenceAtStart f else (s.mapField f fun d => { d with spares := failed }).startTraining f) s
/-- FIELD_BIST_TIMEOUT (R350). -/
def execFieldBistTimeout (f : Nat) (s : State) : Out := whenOk (s.phaseOf f == .testing) (fun s => s.fenceAtStart f) s

/-- CROSSING_TRAINED (R350): after the last crossing to a neighbour that is up the field is released. -/
def execCrossingTrained (f g : Nat) (s : State) : Out :=
  whenOk (s.phaseOf f == .training && (s.upNeighbours f).contains g) (fun s =>
    let s := s.mapField f fun d => { d with trained := if d.trained.contains g then d.trained else d.trained ++ [g] }
    let done := match s.fields[f]? with | some d => (s.upNeighbours f).all d.trained.contains | none => false
    if done then (s.release_ f).fieldDone f else s) s
/-- CROSSING_TRAIN_TIMEOUT (R350). -/
def execCrossingTrainTimeout (f g : Nat) (s : State) : Out :=
  whenOk (s.phaseOf f == .training && (s.upNeighbours f).contains g) (fun s => s.fenceAtStart f) s

/-! ### The run-time fence (R351 to R353) -/

/-- Event 0x27 of an identifier (R353). -/
def State.lossEvent (s : State) (asid tile sid counter : Nat) : State := s.event asid 0x27 0xFF tile sid counter 0 0

/-- A strand lost (R353): reported with its launch's DONE, its record freed, its launch never completes. -/
def State.loseStrand (s : State) (asid tile rec_ launch : Nat) : State :=
  let done := match s.launchOf launch with | some l => l.word 4 | none => 0
  ((s.lossEvent asid tile (rec_ / 64) done).freeRecord asid rec_).loseLaunch launch

/-- Whether a strand on a seat is lost with field f: its seat is the field's, or its record or its handler's container was in reach before
the fence (in s0) and is so no longer. -/
def State.seatLost (s s0 : State) (f k : Nat) (st : Strand) : Bool :=
  let gone : Nat → Bool := fun a => (s0.translate s.lowestField st.asid a false).isSome && (s.translate s.lowestField st.asid a false).isNone
  fieldOf (k / 2) == f || gone st.recAddr || (match st.handler with | some h => gone h.frame | none => false)

/-- Strands lost with the field (R353), by the seats that hold them and with their state; a handler's frame is freed. s0: the part before the
fence. -/
def loseSeats (s0 : State) (f : Nat) : List (Nat × Strand) → State → State
  | [], s => s
  | (k, st) :: t, s =>
    let s' := if !s.seatLost s0 f k st then s
      else
        let s := s.freeSeat ⟨k / 2, k % 2⟩
        let s := match st.handler with | some h => s.freeFrame st.asid h.frame | none => s
        s.loseStrand st.asid (k / 2) st.recAddr st.launch
    loseSeats s0 f t s'

/-- Whether a waiting strand can no longer run: bound to a tile of the field, or its record or container out of reach. -/
def State.readyLost (s : State) (f : Nat) (r : Ready) : Bool :=
  (match r.bound with | some t => fieldOf t == f | none => false) ||
    (match s.translate s.lowestField r.asid r.record false with
      | none => true
      | some a => (s.recordAt a).flags.testBit 2 && (s.translate s.lowestField r.asid (s.recordAt a).waddr false).isNone)

/-- Ready strands that are lost (R353). -/
def loseReady (f g : Nat) : List Ready → State → State
  | [], s => s
  | r :: t, s =>
    loseReady f g t (if s.readyLost f r then (s.dequeue g [r]).loseStrand r.asid (64 * f) r.record r.launch else s)

/-- Parked strands whose counter is out of reach, or that are themselves lost; host watches that are dropped (R353). -/
def loseWatches (f : Nat) : List Watch → State → State
  | [], s => s
  | w :: t, s =>
    let gone : State := { s with watches := s.watches.filter fun v => v.id != w.id }
    let s' := match w.waiter with
      | .strand r _ => if !s.reachable w.addr || s.readyLost f r then gone.loseStrand r.asid (64 * f) r.record r.launch else s
      | .host p _ => if s.reachable w.addr then s else gone.mapPort p fun p => { p with wlost := true }
    loseWatches f t s'

/-- Launches in the field's pending-launch store and trigger table, as the fence finds them, are lost with an event record each (R353). -/
def loseLaunches (f : Nat) : List Launch → State → State
  | [], s => s
  | l :: t, s =>
    loseLaunches f t (if l.field == f && l.phase != .open_ && !l.lost then (s.launchEvent l 0x27).loseLaunch l.id else s)

/-- Whether a command is in flight on a tile or a link of a field (R353, notes/assumptions/82.md): issued on a tile of it, or under way and with
data still to come or go over a Bridle link of the field, or in its slices, its links' memory or its port's tier. s0: the part before the fence. -/
def State.onField (s0 : State) (f : Nat) (c : Cmd) : Bool :=
  c.field == f || (List.range 6).any (fun j => c.onLink (6 * f + j)) ||
    (decide (2 ≤ c.phase) && (s0.cmdPieces c).any fun (a, _) => servingField a == some f)

/-- Commands of the field's tiles and nodes, and those on its links, are lost, with what they had written; their launches never complete (R353). -/
def loseCmds (s0 : State) (f : Nat) : List Cmd → State → State
  | [], s => s
  | c :: t, s => loseCmds s0 f t (if s0.onField f c then (s.stopCmd c ⟨0x27, 0, 0⟩).loseLaunch c.launch else s)

/-- A field that trains its crossing to one that is fenced misses the step's limit, and is fenced too (R350): the model's reading
(notes/assumptions/82.md). -/
def State.fenceTraining (s : State) (f : Nat) : State :=
  ((neighbours f).filter fun h => match s.fields[h]? with
    | some d => d.phase == .training && !d.trained.contains f
    | none => false).foldl State.fenceAtStart s

/-- RUNTIME_FENCE (R353). -/
def runtimeFence (f : Nat) (s : State) : State :=
  let s0 := s
  let s := s.setPhase f .fenced
  let s := loseSeats s0 f s.seats s
  let s := (List.range 6).foldl (fun s g => loseReady f g ((s.fields[g]?.getD fieldOff).ready) s) s
  let s := loseLaunches f s0.launches s
  let s := loseCmds s0 f s.cmds s
  let s := loseWatches f s.watches s
  -- what is left of the field's ready queue moves to the lowest present field, its queues retire, its links go down
  let left := (s.fields[f]?.getD fieldOff).ready
  let s := (s.mapField f fun d => { d with ready := [], queues := [], energy := 0 }).mapField s.lowestField fun d => { d with ready := d.ready ++ left }
  let s := { s with stm := s.stm.filter fun e => fieldOf e.tile != f, streams := s.streams.filter fun (k, _) => fieldOf (k / 2) != f,
                    codePoison := s.codePoison.filter fun p => fieldOf p.1 != f, xlat := s.xlat.filter fun e => e.field != f, flight := s.flight.filter fun o => fieldOf o.seat.tile != f }
  let s := (List.range 6).foldl (fun s j => s.mapLink (6 * f + j) fun l => { l with training := false }) s
  { s with fabric := { s.fabric with up := (List.range 6).foldl (fun u j => u &&& ~~~(1#36 <<< (6 * f + j))) s.fabric.up } }.fenceTraining f

/-- CROSSING_TRAINING_LOSS (R351): the higher-numbered of the two fields is fenced. -/
def execCrossingTrainingLoss (f g : Nat) (s : State) : Out :=
  whenOk (s.fieldUp f && s.fieldUp g && (neighbours f).contains g) (runtimeFence (max f g)) s

/-- HOT_RESET (R364, R355, R356): every launch is terminated and the device is as after power-on; memory, the containers, the images, the
fuses and the flash stay, and the flash's image runs. The signature index starts at 1,024·F, as at every start. -/
def execHotReset (s : State) : Out :=
  .next { State.reset with
    mem := s.mem, poison := s.poison, codePoison := s.codePoison, saved := s.saved, gangs := s.gangs, images := s.images, swept := s.swept,
    security := s.security.start,
    fresh := s.fresh, tick := s.tick, nextId := s.nextId, inputs := s.inputs, cur := s.cur }

/-! ### The security unit (R356 to R358) -/

/-- Bytes of host memory (R358). -/
def State.hostBytes (s : State) (a n : Nat) : List Byte := s.readPhys (physOf 2 a) n

/-- A port's seal registers changed. -/
def State.mapSeal (s : State) (p : Nat) (g : Seal → Seal) : State := s.mapPort p fun q => { q with sealReg := g q.sealReg }

/-- A write of SCMD (R358): ignored while the port is busy, else the command joins the queue of the unit, which runs once Keel has power
(R349, R354). -/
def sealCommand (cmd port : Nat) (s : State) : Out :=
  whenOk (s.keel && (s.port port).sealReg.sstat % 4 != 1) (fun s =>
    { s.mapSeal port fun r => { r with sstat := 1 } with security := { s.security with busy := s.security.busy ++ [(port, cmd)] } }) s

/-- SCMD_SEAL (R358). -/
def execScmdSeal (port : Nat) (s : State) : Out := sealCommand 1 port s
/-- SCMD_VERIFY (R358). -/
def execScmdVerify (port : Nat) (s : State) : Out := sealCommand 2 port s
/-- SCMD_ATTEST (R357). -/
def execScmdAttest (port : Nat) (s : State) : Out := sealCommand 3 port s
/-- SCMD_LOAD_STATE (R356). -/
def execScmdLoadState (port : Nat) (s : State) : Out := sealCommand 4 port s

/-- CTX as a number (R358). -/
def Seal.context (r : Seal) : Nat := leNat ((r.ctx.toList.map fun w => leBytes 8 w.toNat).flatten)

/-- The four words of a 256-bit tag. -/
def tagWords (t : BitVec 256) : Vector Word 4 := Vector.ofFn fun k : Fin 4 => BitVec.ofNat 64 (fieldAt t (64 * k.val) 64)

/-- The digest of the running firmware image (R357). -/
def Security.firmwareDigest (u : Security) : BitVec 256 := shake256 (if u.running.isEmpty then Config.bootImage else u.running)

/-- The 128 bytes of an attestation report (R357). -/
def reportBytes (s : State) (nonce : Vector Word 4) : List Byte :=
  let spares := (s.fields.toList.map (·.spares)).sum
  let fenced := ((List.range 6).map fun f => if s.phaseOf f = .fenced then 2 ^ f else 0).sum
  ((nonce.toList.map fun w => leBytes 8 w.toNat).flatten) ++ leBytes 32 s.security.firmwareDigest.toNat ++
    leBytes 8 (s.readRegister 0 0).toNat ++ leBytes 8 s.security.index ++ leBytes 8 (max s.security.floor (s.security.index / 1024 + 1)) ++
    leBytes 8 (s.presentMask + fenced * 2 ^ 8 + spares * 2 ^ 16) ++ List.replicate 32 0

/-- An attestation made (R356, R357): F is burnt before the block's first signature, the report and its signature are written, and the
new sealed state goes to STATEADDR. -/
def attest (r : Seal) (s : State) : State :=
  let k := s.security.index
  let report := reportBytes s r.tag
  let sig := (List.range 2820).map fun n => Config.signature k report n
  let s := { s with security := { s.security with floor := max s.security.floor (k / 1024 + 1), index := k + 1 } }
  let s := s.writePhys (physOf 2 r.saddr) (report ++ sig)
  s.writePhys (physOf 2 r.stateAddr) (leBytes 8 (k + 1) ++ List.replicate 24 0 ++ leBytes 32 (Config.stateTag (k + 1)).toNat)

/-- A security command finished: SSTAT 2 done, or 3 with its reason (R358). -/
def secureRun (port cmd : Nat) (s : State) : State :=
  let p := s.port port
  let r := p.sealReg
  let refuse : Nat → State := fun why => s.mapSeal port fun r => { r with sstat := 3 + why * 2 ^ 8 }
  if (cmd = 1 ∨ cmd = 2) ∧ 2 ^ 26 < r.slen then refuse 1
  else if !p.up then refuse 2
  else if cmd = 1 then
    s.mapSeal port fun r => { r with sstat := 2, tag := tagWords (sealTag r.context (s.hostBytes r.saddr r.slen)) }
  else if cmd = 2 then
    s.mapSeal port fun r => { r with sstat := 2 + (if tagWords (sealTag r.context (s.hostBytes r.saddr r.slen)) = r.tag then 4 else 0) }
  else if cmd = 3 then
    if 2 ^ 20 ≤ s.security.index then refuse 4 else (attest r s).mapSeal port fun r => { r with sstat := 2 }
  else
    let bs := s.hostBytes r.saddr 64
    let k := leNat (bs.take 8)
    let good := decide (bs.drop 32 = leBytes 32 (Config.stateTag k).toNat) && ((bs.drop 8).take 24).all (· == 0)
    let s := if good then
        { s with security := { s.security with loaded := k, index := max s.security.index (max k (1024 * s.security.started)) } }
      else s
    s.mapSeal port fun r => { r with sstat := 2 }

/-- SECURITY_COMMAND_DONE (R358): the oldest command. -/
def execSecurityCommandDone (s : State) : Out :=
  .next (match s.security.busy with
    | [] => s
    | (port, cmd) :: t => secureRun port cmd { s with security := { s.security with busy := t } })

/-! ### The firmware window (R354, R355) -/

/-- A write of FWCMD (R355): ignored while busy. -/
def firmwareCommand (cmd port : Nat) (s : State) : Out :=
  guarded port (fun s => if s.security.fwStat = 1 then s
    else { s with security := { s.security with fwStat := 1, fwReason := 0, fwCmd := cmd } }) s

/-- FWCMD_FETCH_VERIFY (R355). -/
def execFwcmdFetchVerify (port : Nat) (s : State) : Out := firmwareCommand 1 port s
/-- FWCMD_WRITE_FLASH (R355). -/
def execFwcmdWriteFlash (port : Nat) (s : State) : Out := firmwareCommand 2 port s

/-- The firmware unit's command carried out (R354, R355): 2 verified, 3 refused with its reason; a write to flash leaves it idle. -/
def Security.runFirmware (u : Security) (img : List Byte) : Security :=
  if u.fwCmd = 1 then
    if 2 ^ 24 < u.fwLen then { u with fwStat := 3, fwReason := 3, image := none }
    else if !Config.imageVerifies img then { u with fwStat := 3, fwReason := 1, image := none }
    else if Config.imageVersion img < u.svnFloor then { u with fwStat := 3, fwReason := 2, image := none }
    else { u with fwStat := 2, fwReason := 0, image := some img }
  else match u.image with
    | none => { u with fwStat := 3, fwReason := 1 }
    | some i => { u with fwStat := 0, fwReason := 0, flash := i, svnFloor := max u.svnFloor (Config.imageVersion i) }

/-- FW_COMMAND_DONE (R355). -/
def execFwCommandDone (s : State) : Out :=
  whenOk (s.security.fwStat == 1) (fun s =>
    { s with security := s.security.runFirmware (s.hostBytes s.security.fwAddr (min s.security.fwLen (2 ^ 24))) }) s

end Sys2Proof.Machine
end

