-- ==== Sys2Proof/WellFormed.lean ====
section
/-!
DEFINITION. Which field values an instruction's own rule admits (R173): the reason code of the first condition that a slot
breaks by itself, none for a well-formed one. Conditions between slots are in Machine/Legal.lean; conditions that need tags or
the tensor table are judged at issue (R173, last sentence).
-/

namespace Sys2Proof

/-- A format field of a slot: 11 to 15 are reserved (reason 10), a tag outside the admitted list is reason 5 (R63, R173). -/
def fmtReason (t : BitVec 4) (allowed : List Nat) : Option Nat :=
  if 11 ≤ t.toNat then some 10 else if t.toNat ∈ allowed then none else some 5

/-- A scope field: code 7 is reason 10 (R149, R150, R173). -/
def scopeReason (s : BitVec 3) : Option Nat := if s = 7 then some 10 else none

/-- A rounding field: code 7 is reason 10 (R74, R173). -/
def roundReason (r : BitVec 3) : Option Nat := if r = 7 then some 10 else none

/-- Reason 5 unless the condition holds (R173). -/
def want (c : Bool) : Option Nat := if c then none else some 5

/-- The special register numbers of R177; every other number is reserved. -/
def specialExists (n : BitVec 10) : Bool :=
  let k := n.toNat
  k ≤ 0x12 || (0x20 ≤ k && k ≤ 0x23) || (0x30 ≤ k && k ≤ 0x35) || (0x40 ≤ k && k ≤ 0x5F)

/-- The ARM form of an engine command's arg (R248). -/
def armReason (m : BitVec 6) (w : BitVec 1) : Option Nat :=
  if w = 0 then want (m == 0) else want (1 ≤ m.toNat && m.toNat ≤ 62)

/-- A scalar or tile LS slot under LEND: byte[2:0] must be 0 (R170). -/
def rowLend (x : Option (BitVec 8)) : Option Nat :=
  match x with
  | none => none
  | some b => want (b.toNat % 8 == 0)

/-- A shift amount under LEND: every bit of the immediate but [5:0] is 0 (R187). -/
def shiftLend (x : Option (BitVec 8)) : Option Nat :=
  match x with
  | none => none
  | some b => want (b == 0)

/-- The reason code of a slot taken alone, none when its fields are admitted (R173). A step of another agent has no reason. -/
def Instr.reason : Instr → Option Nat
  | .nop _ => none
  | .stall _ _ _ => none
  | .add _ _ _ _ => none
  | .sub _ _ _ _ => none
  | .mul _ _ _ _ => none
  | .mulh _ _ _ _ => none
  | .mulhn _ _ _ _ => none
  | .div _ _ _ _ => none
  | .divn _ _ _ _ => none
  | .rem _ _ _ _ => none
  | .remn _ _ _ _ => none
  | .and _ _ _ _ => none
  | .or _ _ _ _ => none
  | .xor _ _ _ _ => none
  | .andn _ _ _ _ => none
  | .shl _ _ _ _ => none
  | .shr _ _ _ _ => none
  | .sra _ _ _ _ => none
  | .min _ _ _ _ => none
  | .max _ _ _ _ => none
  | .minn _ _ _ _ => none
  | .maxn _ _ _ _ => none
  | .clz _ _ _ => none
  | .ctz _ _ _ => none
  | .popc _ _ _ => none
  | .add32 _ _ _ _ => none
  | .sub32 _ _ _ _ => none
  | .addi _ _ _ _ _ => none
  | .andi _ _ _ _ _ => none
  | .ori _ _ _ _ _ => none
  | .xori _ _ _ _ _ => none
  | .shli _ _ _ _ x => shiftLend x
  | .shri _ _ _ _ x => shiftLend x
  | .srai _ _ _ _ x => shiftLend x
  | .movi _ _ _ _ => none
  | .movk _ _ _ _ _ => none
  | .cmpeq _ p _ _ => want (p.toNat % 2 == 0)
  | .cmpne _ p _ _ => want (p.toNat % 2 == 0)
  | .cmplt _ p _ _ => want (p.toNat % 2 == 0)
  | .cmple _ p _ _ => want (p.toNat % 2 == 0)
  | .cmpltn _ p _ _ => want (p.toNat % 2 == 0)
  | .cmplen _ p _ _ => want (p.toNat % 2 == 0)
  | .cmpeqi _ p _ _ _ => want (p.toNat % 2 == 0)
  | .cmplti _ p _ _ _ => want (p.toNat % 2 == 0)
  | .cmplei _ p _ _ _ => want (p.toNat % 2 == 0)
  | .tbit _ p _ _ => want (p.toNat % 2 == 0)
  | .pand _ _ _ _ => none
  | .por _ _ _ _ => none
  | .pxor _ _ _ _ => none
  | .pandn _ _ _ _ => none
  | .pmov _ _ _ => none
  | .pset _ _ v => want (v.toNat ≤ 1)
  | .pload _ _ => none
  | .pstore _ _ => none
  | .br _ _ _ => none
  | .call _ _ _ => none
  | .jmp _ _ => none
  | .callx _ _ => none
  | .loop _ _ _ l x => want (l.toNat + 1024 * (x.getD 0).toNat != 0)
  | .mark _ => none
  | .park _ _ _ => none
  | .exit _ => none
  | .trap _ _ => none
  | .spool _ _ l => want (l.toNat ≤ 5)
  | .spbrk _ _ => none
  | .eret _ => none
  | .ld8 _ _ _ _ x => rowLend x
  | .ld16 _ _ _ _ x => rowLend x
  | .ld32 _ _ _ _ x => rowLend x
  | .ld64 _ _ _ _ x => rowLend x
  | .ld8s _ _ _ _ x => rowLend x
  | .ld16s _ _ _ _ x => rowLend x
  | .ld32s _ _ _ _ x => rowLend x
  | .st8 _ _ _ _ x => rowLend x
  | .st16 _ _ _ _ x => rowLend x
  | .st32 _ _ _ _ x => rowLend x
  | .st64 _ _ _ _ x => rowLend x
  | .ldv _ _ _ _ _ => none
  | .stv _ _ _ _ _ => none
  | .ldvx _ _ _ _ _ => none
  | .stvx _ _ _ _ _ => none
  | .ldt _ _ _ _ x => rowLend x
  | .stt _ _ _ _ x => rowLend x
  | .lds _ _ _ _ x => rowLend x
  | .ldsv _ _ _ _ _ => none
  | .spld _ _ _ => none
  | .spst _ _ _ => none
  | .spldv _ _ s => want (s.toNat ≤ 480)
  | .spstv _ _ s => want (s.toNat ≤ 480)
  | .spldp _ r _ => want (r.toNat ≤ 8)
  | .spstp _ r _ => want (r.toNat ≤ 8)
  | .vadd _ _ _ _ _ => none
  | .vsub _ _ _ _ _ => none
  | .vmul _ _ _ _ _ => none
  | .vand _ _ _ _ _ => none
  | .vor _ _ _ _ _ => none
  | .vxor _ _ _ _ _ => none
  | .vshl _ _ _ _ _ => none
  | .vshr _ _ _ _ _ => none
  | .vsra _ _ _ _ _ => none
  | .vmin _ _ _ _ _ => none
  | .vmax _ _ _ _ _ => none
  | .vminn _ _ _ _ _ => none
  | .vmaxn _ _ _ _ _ => none
  | .vsel _ _ _ _ _ => none
  | .vcmpeq _ d _ _ _ => want (d.toNat % 2 == 0)
  | .vcmplt _ d _ _ _ => want (d.toNat % 2 == 0)
  | .vcmple _ d _ _ _ => want (d.toNat % 2 == 0)
  | .vcmpltn _ d _ _ _ => want (d.toNat % 2 == 0)
  | .viota _ _ _ => none
  | .vbcast _ _ _ t _ => fmtReason t [1, 2, 3, 4]
  | .vext _ _ _ _ => none
  | .vins _ _ _ _ => none
  | .vpopc _ _ _ => none
  | .vfirst _ _ _ => none
  | .vpack _ _ _ _ => none
  | .kand _ _ _ _ => none
  | .kor _ _ _ _ => none
  | .kxor _ _ _ _ => none
  | .kmov _ _ _ => none
  | .vmov _ _ _ _ _ => none
  | .vtag _ _ t => fmtReason t [0, 1, 2, 3, 4, 5, 6, 7, 8, 9, 10]
  | .vfmt _ _ _ => none
  | .mload _ _ _ => none
  | .mloadg _ _ _ => none
  | .mpush _ _ _ _ h t => want (h == 1 || t == 0)
  | .mpushl _ _ _ h t => want (h == 1 || t == 0)
  | .mpushg _ _ _ _ h t => want (h == 1 || t == 0)
  | .mzero _ _ f => fmtReason f [3, 7]
  | .minit _ _ _ => none
  | .mshift _ _ _ => none
  | .mswap _ _ => none
  | .mdrain _ _ r m => want (r.toNat % 8 == 0 && m.toNat % 8 == 0 && 8 ≤ m.toNat && r.toNat + m.toNat ≤ 64)
  | .gset _ _ _ => none
  | .gidx _ _ _ _ _ => none
  | .gdiag _ _ _ _ => none
  | .gband _ _ _ k v => want (k == 1 || v == 0)
  | .tzero _ _ f => fmtReason f [1, 2, 5, 6, 8, 9, 10]
  | .tmove _ _ _ => none
  | .tfill _ _ _ f => fmtReason f [1, 2, 5, 6]
  | .tsetv _ _ _ _ => none
  | .tgetv _ _ _ _ => none
  | .ttag _ _ f => fmtReason f [2, 5, 6]
  | .tfmt _ _ _ => none
  | .xpand _ _ _ f _ => fmtReason f [1, 2, 5, 6]
  | .xpose _ _ _ => none
  | .xconv _ _ _ f r _ => (fmtReason f [1, 2, 5, 6, 8, 9, 10]).or (roundReason r)
  | .vconv _ _ _ f r _ => (fmtReason f [1, 2, 3, 4, 5, 6, 7]).or (roundReason r)
  | .xperm _ _ _ _ _ => none
  | .xpack _ _ _ _ => none
  | .dfcfg _ n f r _ k => ((want (n.toNat ≤ 13)).or (fmtReason f [0, 1, 2, 3, 4, 5, 6, 7, 8, 9, 10])).or ((roundReason r).or (want (k == 0 || n == 13)))
  | .dfdstNone _ => none
  | .dfdstT _ _ => none
  | .dfdstH _ _ _ => none
  | .dfscale _ _ b _ v => want (b == 1 || v == 0)
  | .dfmask _ _ _ q => want (q != 31)
  | .dfrow _ m s x y => want ((m == 1 || x == 0) && (s == 1 || y == 0) && !(m == 1 && s == 1 && x == y))
  | .dfmass _ _ _ _ => none
  | .dfv _ _ _ b f => want (if f.toNat ≤ 13 then b == 0 else 16 ≤ f.toNat && f.toNat ≤ 20)
  | .dfstat _ _ w => want (w.toNat ≤ 4)
  | .copy _ _ _ s _ m w => (scopeReason s).or (armReason m w)
  | .copym _ _ _ s _ m w => (scopeReason s).or (armReason m w)
  | .cexp _ _ _ s _ m w => (scopeReason s).or (armReason m w)
  | .gath _ _ => none
  | .pool _ _ _ s _ m w => (scopeReason s).or (armReason m w)
  | .sfork _ _ _ s _ m w => (scopeReason s).or (armReason m w)
  | .sretire _ _ _ s _ m w => (scopeReason s).or (armReason m w)
  | .stld _ _ _ s _ m w => (scopeReason s).or (armReason m w)
  | .stinv _ _ _ s _ m w => (scopeReason s).or (armReason m w)
  | .ballast _ _ _ s _ m w => (scopeReason s).or (armReason m w)
  | .fput _ _ _ s _ m w => (scopeReason s).or (armReason m w)
  | .fget _ _ _ s _ m w => (scopeReason s).or (armReason m w)
  | .fred _ _ _ s _ m w => (scopeReason s).or (armReason m w)
  | .launch _ _ s _ => scopeReason s
  | .offload _ _ _ s _ _ => scopeReason s
  | .recall _ _ _ s _ _ => scopeReason s
  | .cadd _ _ s _ _ => scopeReason s
  | .cwait _ o s _ _ => (scopeReason s).or (want (o.toNat ≤ 1))
  | .cread _ o s _ _ => (scopeReason s).or (want (o.toNat ≤ 1))
  | .craise _ _ s _ _ => scopeReason s
  | .aadd _ _ _ _ => none
  | .amin _ _ _ _ => none
  | .amax _ _ _ _ => none
  | .axchg _ _ _ _ => none
  | .acas _ _ _ _ => none
  | .aand _ _ _ _ => none
  | .aor _ _ _ _ => none
  | .sadd _ _ _ _ => none
  | .fbegin _ _ k s => (scopeReason s).or (want (k != 0))
  | .fwait _ _ => none
  | .join _ _ s _ => scopeReason s
  | .leave _ _ s _ => scopeReason s
  | .tbar _ _ s _ _ => scopeReason s
  | .tarrive _ _ s _ _ => scopeReason s
  | .stepadv _ _ => none
  | .srsv _ _ _ _ => none
  | .scmt _ _ _ => none
  | .spin _ _ _ _ => none
  | .sunpin _ _ _ _ => none
  | .sqsnap _ _ _ _ => none
  | .movs _ _ n => if specialExists n then none else some 12
  | .movsw _ _ n => if specialExists n then none else some 12
  | .setpri _ _ => none
  | .noisectlLive _ => none
  | .noisectlLog _ _ => none
  | .noisectlReplay _ _ _ => none
  | .chkmode _ _ => none
  | .traprd _ _ _ => none
  | .idle _ _ => none
  | .lend _ _ _ => none
  | .rep _ _ _ _ => none
  | .resultLanding _ => none
  | .drainBeat _ => none
  | .massAddAnswer _ => none
  | .homeOperationPerformed _ => none
  | .counterWaitSatisfied _ => none
  | .teamBarrierRelease _ => none
  | .fencePerformed _ => none
  | .idleExpiry _ => none
  | .watchConditionMet _ => none
  | .strandPlacement _ => none
  | .recordCreationRetry _ => none
  | .preemption _ => none
  | .gangQuantumExpiry _ => none
  | .agingPeriodExpiry _ _ => none
  | .balancingTick _ => none
  | .triggerFire _ _ => none
  | .engineNodeFire _ _ => none
  | .pendingEntryFreed _ => none
  | .launchCompletion _ => none
  | .submissionConsume _ => none
  | .copyCompletion _ => none
  | .copymCompletion _ => none
  | .cexpCompletion _ => none
  | .poolCompletion _ => none
  | .sforkCompletion _ => none
  | .sretirePass _ => none
  | .stldCompletion _ => none
  | .stinvCompletion _ => none
  | .ballastPass _ => none
  | .fputCompletion _ => none
  | .fgetCompletion _ => none
  | .fredContribution _ _ _ _ => none
  | .fredAcknowledge _ => none
  | .reductionRoundTimeout _ => none
  | .reductionWindowAck _ => none
  | .offloadCompletion _ => none
  | .recallCompletion _ => none
  | .engineFailure _ _ => none
  | .stampSweep _ => none
  | .saffronBlock _ _ => none
  | .iestUpdate _ _ => none
  | .pllRelockDone _ => none
  | .generationPurgeDone _ => none
  | .eccWriteback _ => none
  | .bridleXoff _ _ => none
  | .bridleXon _ _ => none
  | .bridleReplayRequest _ _ => none
  | .linkTrainingDone _ => none
  | .linkTrainingTimeout _ => none
  | .portsemWrite _ _ => none
  | .islandWrite _ _ _ => none
  | .drawWrite _ _ => none
  | .w2baseWrite _ _ => none
  | .bar2Access _ _ _ => none
  | .qgoRegister _ => none
  | .qgoRetire _ => none
  | .qgoInvalid _ => none
  | .qappReserve _ _ => none
  | .qappCommit _ _ => none
  | .wgoArm _ => none
  | .watchStoreArm _ => none
  | .watchFire _ => none
  | .scmdSeal _ => none
  | .scmdVerify _ => none
  | .scmdAttest _ => none
  | .scmdLoadState _ => none
  | .securityCommandDone => none
  | .fwcmdFetchVerify _ => none
  | .fwcmdWriteFlash _ => none
  | .fwCommandDone => none
  | .fselfWrite _ _ => none
  | .fretrainWrite _ _ => none
  | .fredWindowSet _ _ _ => none
  | .fredWindowClear _ _ _ => none
  | .migrQuiesce _ _ => none
  | .migrRelease _ _ => none
  | .quiesceDone _ => none
  | .registerWrite _ _ _ => none
  | .portLinkDown _ => none
  | .hotReset => none
  | .keelPowerOn _ _ => none
  | .fieldPowerGood _ => none
  | .fieldPowerGoodTimeout _ => none
  | .fieldPllLock _ => none
  | .fieldPllLockTimeout _ => none
  | .fieldBistDone _ _ => none
  | .fieldBistTimeout _ => none
  | .crossingTrained _ _ => none
  | .crossingTrainTimeout _ _ => none
  | .crossingTrainingLoss _ _ => none
  | .illegalBundle _ _ => none
  | .fabricPortRequest _ _ _ => none
  | .hdmAccess _ _ _ => none
  | .cxlCacheSnoop _ => none

/-- The lone condition of STALL's syntax: a count of 0 is NOP's encoding (R184), so no word decodes to a STALL of 0. -/
def Instr.canonical : Instr → Bool
  | .stall _ n x => n.toNat + 256 * (x.getD 0).toNat != 0
  | _ => true

/-- A well-formed instruction: its fields are admitted and it is not another row's word. -/
def Instr.wf (i : Instr) : Bool := i.reason.isNone && i.canonical

/-- Whether the row is a slot of a bundle; the others are steps of other agents. -/
def Instr.isSlot : Instr → Bool
  | .nop _ => true
  | .stall _ _ _ => true
  | .add _ _ _ _ => true
  | .sub _ _ _ _ => true
  | .mul _ _ _ _ => true
  | .mulh _ _ _ _ => true
  | .mulhn _ _ _ _ => true
  | .div _ _ _ _ => true
  | .divn _ _ _ _ => true
  | .rem _ _ _ _ => true
  | .remn _ _ _ _ => true
  | .and _ _ _ _ => true
  | .or _ _ _ _ => true
  | .xor _ _ _ _ => true
  | .andn _ _ _ _ => true
  | .shl _ _ _ _ => true
  | .shr _ _ _ _ => true
  | .sra _ _ _ _ => true
  | .min _ _ _ _ => true
  | .max _ _ _ _ => true
  | .minn _ _ _ _ => true
  | .maxn _ _ _ _ => true
  | .clz _ _ _ => true
  | .ctz _ _ _ => true
  | .popc _ _ _ => true
  | .add32 _ _ _ _ => true
  | .sub32 _ _ _ _ => true
  | .addi _ _ _ _ _ => true
  | .andi _ _ _ _ _ => true
  | .ori _ _ _ _ _ => true
  | .xori _ _ _ _ _ => true
  | .shli _ _ _ _ _ => true
  | .shri _ _ _ _ _ => true
  | .srai _ _ _ _ _ => true
  | .movi _ _ _ _ => true
  | .movk _ _ _ _ _ => true
  | .cmpeq _ _ _ _ => true
  | .cmpne _ _ _ _ => true
  | .cmplt _ _ _ _ => true
  | .cmple _ _ _ _ => true
  | .cmpltn _ _ _ _ => true
  | .cmplen _ _ _ _ => true
  | .cmpeqi _ _ _ _ _ => true
  | .cmplti _ _ _ _ _ => true
  | .cmplei _ _ _ _ _ => true
  | .tbit _ _ _ _ => true
  | .pand _ _ _ _ => true
  | .por _ _ _ _ => true
  | .pxor _ _ _ _ => true
  | .pandn _ _ _ _ => true
  | .pmov _ _ _ => true
  | .pset _ _ _ => true
  | .pload _ _ => true
  | .pstore _ _ => true
  | .br _ _ _ => true
  | .call _ _ _ => true
  | .jmp _ _ => true
  | .callx _ _ => true
  | .loop _ _ _ _ _ => true
  | .mark _ => true
  | .park _ _ _ => true
  | .exit _ => true
  | .trap _ _ => true
  | .spool _ _ _ => true
  | .spbrk _ _ => true
  | .eret _ => true
  | .ld8 _ _ _ _ _ => true
  | .ld16 _ _ _ _ _ => true
  | .ld32 _ _ _ _ _ => true
  | .ld64 _ _ _ _ _ => true
  | .ld8s _ _ _ _ _ => true
  | .ld16s _ _ _ _ _ => true
  | .ld32s _ _ _ _ _ => true
  | .st8 _ _ _ _ _ => true
  | .st16 _ _ _ _ _ => true
  | .st32 _ _ _ _ _ => true
  | .st64 _ _ _ _ _ => true
  | .ldv _ _ _ _ _ => true
  | .stv _ _ _ _ _ => true
  | .ldvx _ _ _ _ _ => true
  | .stvx _ _ _ _ _ => true
  | .ldt _ _ _ _ _ => true
  | .stt _ _ _ _ _ => true
  | .lds _ _ _ _ _ => true
  | .ldsv _ _ _ _ _ => true
  | .spld _ _ _ => true
  | .spst _ _ _ => true
  | .spldv _ _ _ => true
  | .spstv _ _ _ => true
  | .spldp _ _ _ => true
  | .spstp _ _ _ => true
  | .vadd _ _ _ _ _ => true
  | .vsub _ _ _ _ _ => true
  | .vmul _ _ _ _ _ => true
  | .vand _ _ _ _ _ => true
  | .vor _ _ _ _ _ => true
  | .vxor _ _ _ _ _ => true
  | .vshl _ _ _ _ _ => true
  | .vshr _ _ _ _ _ => true
  | .vsra _ _ _ _ _ => true
  | .vmin _ _ _ _ _ => true
  | .vmax _ _ _ _ _ => true
  | .vminn _ _ _ _ _ => true
  | .vmaxn _ _ _ _ _ => true
  | .vsel _ _ _ _ _ => true
  | .vcmpeq _ _ _ _ _ => true
  | .vcmplt _ _ _ _ _ => true
  | .vcmple _ _ _ _ _ => true
  | .vcmpltn _ _ _ _ _ => true
  | .viota _ _ _ => true
  | .vbcast _ _ _ _ _ => true
  | .vext _ _ _ _ => true
  | .vins _ _ _ _ => true
  | .vpopc _ _ _ => true
  | .vfirst _ _ _ => true
  | .vpack _ _ _ _ => true
  | .kand _ _ _ _ => true
  | .kor _ _ _ _ => true
  | .kxor _ _ _ _ => true
  | .kmov _ _ _ => true
  | .vmov _ _ _ _ _ => true
  | .vtag _ _ _ => true
  | .vfmt _ _ _ => true
  | .mload _ _ _ => true
  | .mloadg _ _ _ => true
  | .mpush _ _ _ _ _ _ => true
  | .mpushl _ _ _ _ _ => true
  | .mpushg _ _ _ _ _ _ => true
  | .mzero _ _ _ => true
  | .minit _ _ _ => true
  | .mshift _ _ _ => true
  | .mswap _ _ => true
  | .mdrain _ _ _ _ => true
  | .gset _ _ _ => true
  | .gidx _ _ _ _ _ => true
  | .gdiag _ _ _ _ => true
  | .gband _ _ _ _ _ => true
  | .tzero _ _ _ => true
  | .tmove _ _ _ => true
  | .tfill _ _ _ _ => true
  | .tsetv _ _ _ _ => true
  | .tgetv _ _ _ _ => true
  | .ttag _ _ _ => true
  | .tfmt _ _ _ => true
  | .xpand _ _ _ _ _ => true
  | .xpose _ _ _ => true
  | .xconv _ _ _ _ _ _ => true
  | .vconv _ _ _ _ _ _ => true
  | .xperm _ _ _ _ _ => true
  | .xpack _ _ _ _ => true
  | .dfcfg _ _ _ _ _ _ => true
  | .dfdstNone _ => true
  | .dfdstT _ _ => true
  | .dfdstH _ _ _ => true
  | .dfscale _ _ _ _ _ => true
  | .dfmask _ _ _ _ => true
  | .dfrow _ _ _ _ _ => true
  | .dfmass _ _ _ _ => true
  | .dfv _ _ _ _ _ => true
  | .dfstat _ _ _ => true
  | .copy _ _ _ _ _ _ _ => true
  | .copym _ _ _ _ _ _ _ => true
  | .cexp _ _ _ _ _ _ _ => true
  | .gath _ _ => true
  | .pool _ _ _ _ _ _ _ => true
  | .sfork _ _ _ _ _ _ _ => true
  | .sretire _ _ _ _ _ _ _ => true
  | .stld _ _ _ _ _ _ _ => true
  | .stinv _ _ _ _ _ _ _ => true
  | .ballast _ _ _ _ _ _ _ => true
  | .fput _ _ _ _ _ _ _ => true
  | .fget _ _ _ _ _ _ _ => true
  | .fred _ _ _ _ _ _ _ => true
  | .launch _ _ _ _ => true
  | .offload _ _ _ _ _ _ => true
  | .recall _ _ _ _ _ _ => true
  | .cadd _ _ _ _ _ => true
  | .cwait _ _ _ _ _ => true
  | .cread _ _ _ _ _ => true
  | .craise _ _ _ _ _ => true
  | .aadd _ _ _ _ => true
  | .amin _ _ _ _ => true
  | .amax _ _ _ _ => true
  | .axchg _ _ _ _ => true
  | .acas _ _ _ _ => true
  | .aand _ _ _ _ => true
  | .aor _ _ _ _ => true
  | .sadd _ _ _ _ => true
  | .fbegin _ _ _ _ => true
  | .fwait _ _ => true
  | .join _ _ _ _ => true
  | .leave _ _ _ _ => true
  | .tbar _ _ _ _ _ => true
  | .tarrive _ _ _ _ _ => true
  | .stepadv _ _ => true
  | .srsv _ _ _ _ => true
  | .scmt _ _ _ => true
  | .spin _ _ _ _ => true
  | .sunpin _ _ _ _ => true
  | .sqsnap _ _ _ _ => true
  | .movs _ _ _ => true
  | .movsw _ _ _ => true
  | .setpri _ _ => true
  | .noisectlLive _ => true
  | .noisectlLog _ _ => true
  | .noisectlReplay _ _ _ => true
  | .chkmode _ _ => true
  | .traprd _ _ _ => true
  | .idle _ _ => true
  | .lend _ _ _ => true
  | .rep _ _ _ _ => true
  | .resultLanding _ => false
  | .drainBeat _ => false
  | .massAddAnswer _ => false
  | .homeOperationPerformed _ => false
  | .counterWaitSatisfied _ => false
  | .teamBarrierRelease _ => false
  | .fencePerformed _ => false
  | .idleExpiry _ => false
  | .watchConditionMet _ => false
  | .strandPlacement _ => false
  | .recordCreationRetry _ => false
  | .preemption _ => false
  | .gangQuantumExpiry _ => false
  | .agingPeriodExpiry _ _ => false
  | .balancingTick _ => false
  | .triggerFire _ _ => false
  | .engineNodeFire _ _ => false
  | .pendingEntryFreed _ => false
  | .launchCompletion _ => false
  | .submissionConsume _ => false
  | .copyCompletion _ => false
  | .copymCompletion _ => false
  | .cexpCompletion _ => false
  | .poolCompletion _ => false
  | .sforkCompletion _ => false
  | .sretirePass _ => false
  | .stldCompletion _ => false
  | .stinvCompletion _ => false
  | .ballastPass _ => false
  | .fputCompletion _ => false
  | .fgetCompletion _ => false
  | .fredContribution _ _ _ _ => false
  | .fredAcknowledge _ => false
  | .reductionRoundTimeout _ => false
  | .reductionWindowAck _ => false
  | .offloadCompletion _ => false
  | .recallCompletion _ => false
  | .engineFailure _ _ => false
  | .stampSweep _ => false
  | .saffronBlock _ _ => false
  | .iestUpdate _ _ => false
  | .pllRelockDone _ => false
  | .generationPurgeDone _ => false
  | .eccWriteback _ => false
  | .bridleXoff _ _ => false
  | .bridleXon _ _ => false
  | .bridleReplayRequest _ _ => false
  | .linkTrainingDone _ => false
  | .linkTrainingTimeout _ => false
  | .portsemWrite _ _ => false
  | .islandWrite _ _ _ => false
  | .drawWrite _ _ => false
  | .w2baseWrite _ _ => false
  | .bar2Access _ _ _ => false
  | .qgoRegister _ => false
  | .qgoRetire _ => false
  | .qgoInvalid _ => false
  | .qappReserve _ _ => false
  | .qappCommit _ _ => false
  | .wgoArm _ => false
  | .watchStoreArm _ => false
  | .watchFire _ => false
  | .scmdSeal _ => false
  | .scmdVerify _ => false
  | .scmdAttest _ => false
  | .scmdLoadState _ => false
  | .securityCommandDone => false
  | .fwcmdFetchVerify _ => false
  | .fwcmdWriteFlash _ => false
  | .fwCommandDone => false
  | .fselfWrite _ _ => false
  | .fretrainWrite _ _ => false
  | .fredWindowSet _ _ _ => false
  | .fredWindowClear _ _ _ => false
  | .migrQuiesce _ _ => false
  | .migrRelease _ _ => false
  | .quiesceDone _ => false
  | .registerWrite _ _ _ => false
  | .portLinkDown _ => false
  | .hotReset => false
  | .keelPowerOn _ _ => false
  | .fieldPowerGood _ => false
  | .fieldPowerGoodTimeout _ => false
  | .fieldPllLock _ => false
  | .fieldPllLockTimeout _ => false
  | .fieldBistDone _ _ => false
  | .fieldBistTimeout _ => false
  | .crossingTrained _ _ => false
  | .crossingTrainTimeout _ _ => false
  | .crossingTrainingLoss _ _ => false
  | .illegalBundle _ _ => false
  | .fabricPortRequest _ _ _ => false
  | .hdmAccess _ _ _ => false
  | .cxlCacheSnoop _ => false

end Sys2Proof
end

