-- ==== Sys2Proof/Decode.lean ====
section
/-!
DEFINITION. Decoding of slots and bundles (R163, R170, R171, R179, R180), total on any bytes and refusing by the reason codes of
R173, and after it the encoder, both written from the layouts of R179 and the opcode map R180. A field value that an
instruction's rule excludes is not refused here but by Instr.reason (WellFormed).
-/

namespace Sys2Proof

open Sys2Proof.Machine (bitsAt fieldAt leBytes leNat)

/-- A decoded slot: an instruction, or the reason code of R173 by which its word is refused. -/
inductive Slot where
  | ok (i : Instr)
  | bad (reason : Nat)
  deriving DecidableEq, Repr

/-- A slot that takes no extension: a nonzero lend byte is reason 7 (R170, R173). -/
def plain (x : Option (BitVec 8)) (i : Instr) : Slot :=
  match x with
  | none => .ok i
  | some b => if b = 0 then .ok i else .bad 7

/-- Class 0x0: n = 0 is NOP, else STALL n, n16 under LEND (R184). -/
def decodeStall (w : BitVec 32) (x : Option (BitVec 8)) : Slot :=
  if fieldAt w 8 16 == 0 then
    if fieldAt w 0 8 == 0 && x.getD 0 == 0 then .ok (.nop (bitsAt w 24 4))
    else .ok (.stall (bitsAt w 24 4) (bitsAt w 0 8) x)
  else .bad 4

/-- Class 0x1 (R179, R180): the op field, the reserved bits and the fields of each op. -/
def decodeXr (w : BitVec 32) (x : Option (BitVec 8)) : Slot :=
  match fieldAt w 18 6 with
  | 0 => plain x (.add (bitsAt w 24 4) (bitsAt w 12 6) (bitsAt w 6 6) (bitsAt w 0 6))
  | 1 => plain x (.sub (bitsAt w 24 4) (bitsAt w 12 6) (bitsAt w 6 6) (bitsAt w 0 6))
  | 2 => plain x (.mul (bitsAt w 24 4) (bitsAt w 12 6) (bitsAt w 6 6) (bitsAt w 0 6))
  | 3 => plain x (.mulh (bitsAt w 24 4) (bitsAt w 12 6) (bitsAt w 6 6) (bitsAt w 0 6))
  | 4 => plain x (.mulhn (bitsAt w 24 4) (bitsAt w 12 6) (bitsAt w 6 6) (bitsAt w 0 6))
  | 5 => plain x (.div (bitsAt w 24 4) (bitsAt w 12 6) (bitsAt w 6 6) (bitsAt w 0 6))
  | 6 => plain x (.divn (bitsAt w 24 4) (bitsAt w 12 6) (bitsAt w 6 6) (bitsAt w 0 6))
  | 7 => plain x (.rem (bitsAt w 24 4) (bitsAt w 12 6) (bitsAt w 6 6) (bitsAt w 0 6))
  | 8 => plain x (.remn (bitsAt w 24 4) (bitsAt w 12 6) (bitsAt w 6 6) (bitsAt w 0 6))
  | 9 => plain x (.and (bitsAt w 24 4) (bitsAt w 12 6) (bitsAt w 6 6) (bitsAt w 0 6))
  | 10 => plain x (.or (bitsAt w 24 4) (bitsAt w 12 6) (bitsAt w 6 6) (bitsAt w 0 6))
  | 11 => plain x (.xor (bitsAt w 24 4) (bitsAt w 12 6) (bitsAt w 6 6) (bitsAt w 0 6))
  | 12 => plain x (.andn (bitsAt w 24 4) (bitsAt w 12 6) (bitsAt w 6 6) (bitsAt w 0 6))
  | 13 => plain x (.shl (bitsAt w 24 4) (bitsAt w 12 6) (bitsAt w 6 6) (bitsAt w 0 6))
  | 14 => plain x (.shr (bitsAt w 24 4) (bitsAt w 12 6) (bitsAt w 6 6) (bitsAt w 0 6))
  | 15 => plain x (.sra (bitsAt w 24 4) (bitsAt w 12 6) (bitsAt w 6 6) (bitsAt w 0 6))
  | 16 => plain x (.min (bitsAt w 24 4) (bitsAt w 12 6) (bitsAt w 6 6) (bitsAt w 0 6))
  | 17 => plain x (.max (bitsAt w 24 4) (bitsAt w 12 6) (bitsAt w 6 6) (bitsAt w 0 6))
  | 18 => plain x (.minn (bitsAt w 24 4) (bitsAt w 12 6) (bitsAt w 6 6) (bitsAt w 0 6))
  | 19 => plain x (.maxn (bitsAt w 24 4) (bitsAt w 12 6) (bitsAt w 6 6) (bitsAt w 0 6))
  | 20 => if fieldAt w 0 6 == 0 then plain x (.clz (bitsAt w 24 4) (bitsAt w 12 6) (bitsAt w 6 6)) else .bad 5
  | 21 => if fieldAt w 0 6 == 0 then plain x (.ctz (bitsAt w 24 4) (bitsAt w 12 6) (bitsAt w 6 6)) else .bad 5
  | 22 => if fieldAt w 0 6 == 0 then plain x (.popc (bitsAt w 24 4) (bitsAt w 12 6) (bitsAt w 6 6)) else .bad 5
  | 23 => plain x (.add32 (bitsAt w 24 4) (bitsAt w 12 6) (bitsAt w 6 6) (bitsAt w 0 6))
  | 24 => plain x (.sub32 (bitsAt w 24 4) (bitsAt w 12 6) (bitsAt w 6 6) (bitsAt w 0 6))
  | _ => .bad 4

/-- Class 0x2 (R179, R180): the op field, the reserved bits and the fields of each op. -/
def decodeXi (w : BitVec 32) (x : Option (BitVec 8)) : Slot :=
  match fieldAt w 20 4 with
  | 0 => Slot.ok (.addi (bitsAt w 24 4) (bitsAt w 14 6) (bitsAt w 8 6) (bitsAt w 0 8) x)
  | 1 => Slot.ok (.andi (bitsAt w 24 4) (bitsAt w 14 6) (bitsAt w 8 6) (bitsAt w 0 8) x)
  | 2 => Slot.ok (.ori (bitsAt w 24 4) (bitsAt w 14 6) (bitsAt w 8 6) (bitsAt w 0 8) x)
  | 3 => Slot.ok (.xori (bitsAt w 24 4) (bitsAt w 14 6) (bitsAt w 8 6) (bitsAt w 0 8) x)
  | 4 => if fieldAt w 6 2 == 0 then Slot.ok (.shli (bitsAt w 24 4) (bitsAt w 14 6) (bitsAt w 8 6) (bitsAt w 0 6) x) else .bad 5
  | 5 => if fieldAt w 6 2 == 0 then Slot.ok (.shri (bitsAt w 24 4) (bitsAt w 14 6) (bitsAt w 8 6) (bitsAt w 0 6) x) else .bad 5
  | 6 => if fieldAt w 6 2 == 0 then Slot.ok (.srai (bitsAt w 24 4) (bitsAt w 14 6) (bitsAt w 8 6) (bitsAt w 0 6) x) else .bad 5
  | 7 => if fieldAt w 8 6 == 0 then Slot.ok (.movi (bitsAt w 24 4) (bitsAt w 14 6) (bitsAt w 0 8) x) else .bad 5
  | 8 => if fieldAt w 10 4 == 0 then Slot.ok (.movk (bitsAt w 24 4) (bitsAt w 14 6) (bitsAt w 8 2) (bitsAt w 0 8) x) else .bad 5
  | _ => .bad 4

/-- Class 0x3 (R179, R180): the op field, the reserved bits and the fields of each op. -/
def decodePc (w : BitVec 32) (x : Option (BitVec 8)) : Slot :=
  match fieldAt w 19 5 with
  | 0 => if fieldAt w 0 3 == 0 then plain x (.cmpeq (bitsAt w 24 4) (bitsAt w 15 4) (bitsAt w 9 6) (bitsAt w 3 6)) else .bad 5
  | 1 => if fieldAt w 0 3 == 0 then plain x (.cmpne (bitsAt w 24 4) (bitsAt w 15 4) (bitsAt w 9 6) (bitsAt w 3 6)) else .bad 5
  | 2 => if fieldAt w 0 3 == 0 then plain x (.cmplt (bitsAt w 24 4) (bitsAt w 15 4) (bitsAt w 9 6) (bitsAt w 3 6)) else .bad 5
  | 3 => if fieldAt w 0 3 == 0 then plain x (.cmple (bitsAt w 24 4) (bitsAt w 15 4) (bitsAt w 9 6) (bitsAt w 3 6)) else .bad 5
  | 4 => if fieldAt w 0 3 == 0 then plain x (.cmpltn (bitsAt w 24 4) (bitsAt w 15 4) (bitsAt w 9 6) (bitsAt w 3 6)) else .bad 5
  | 5 => if fieldAt w 0 3 == 0 then plain x (.cmplen (bitsAt w 24 4) (bitsAt w 15 4) (bitsAt w 9 6) (bitsAt w 3 6)) else .bad 5
  | 6 => Slot.ok (.cmpeqi (bitsAt w 24 4) (bitsAt w 15 4) (bitsAt w 9 6) (bitsAt w 0 9) x)
  | 7 => Slot.ok (.cmplti (bitsAt w 24 4) (bitsAt w 15 4) (bitsAt w 9 6) (bitsAt w 0 9) x)
  | 8 => Slot.ok (.cmplei (bitsAt w 24 4) (bitsAt w 15 4) (bitsAt w 9 6) (bitsAt w 0 9) x)
  | 9 => if fieldAt w 6 3 == 0 then plain x (.tbit (bitsAt w 24 4) (bitsAt w 15 4) (bitsAt w 9 6) (bitsAt w 0 6)) else .bad 5
  | 10 => if fieldAt w 0 3 == 0 && fieldAt w 7 2 == 0 && fieldAt w 13 2 == 0 then plain x (.pand (bitsAt w 24 4) (bitsAt w 15 4) (bitsAt w 9 4) (bitsAt w 3 4)) else .bad 5
  | 11 => if fieldAt w 0 3 == 0 && fieldAt w 7 2 == 0 && fieldAt w 13 2 == 0 then plain x (.por (bitsAt w 24 4) (bitsAt w 15 4) (bitsAt w 9 4) (bitsAt w 3 4)) else .bad 5
  | 12 => if fieldAt w 0 3 == 0 && fieldAt w 7 2 == 0 && fieldAt w 13 2 == 0 then plain x (.pxor (bitsAt w 24 4) (bitsAt w 15 4) (bitsAt w 9 4) (bitsAt w 3 4)) else .bad 5
  | 13 => if fieldAt w 0 3 == 0 && fieldAt w 7 2 == 0 && fieldAt w 13 2 == 0 then plain x (.pandn (bitsAt w 24 4) (bitsAt w 15 4) (bitsAt w 9 4) (bitsAt w 3 4)) else .bad 5
  | 14 => if fieldAt w 0 9 == 0 && fieldAt w 13 2 == 0 then plain x (.pmov (bitsAt w 24 4) (bitsAt w 15 4) (bitsAt w 9 4)) else .bad 5
  | 15 => if fieldAt w 0 3 == 0 && fieldAt w 7 8 == 0 then plain x (.pset (bitsAt w 24 4) (bitsAt w 15 4) (bitsAt w 3 4)) else .bad 5
  | 16 => if fieldAt w 0 9 == 0 && fieldAt w 15 4 == 0 then plain x (.pload (bitsAt w 24 4) (bitsAt w 9 6)) else .bad 5
  | 17 => if fieldAt w 0 9 == 0 && fieldAt w 15 4 == 0 then plain x (.pstore (bitsAt w 24 4) (bitsAt w 9 6)) else .bad 5
  | _ => .bad 4

/-- Class 0x4 (R179, R180): the op field, the reserved bits and the fields of each op. -/
def decodeCt (w : BitVec 32) (x : Option (BitVec 8)) : Slot :=
  match fieldAt w 20 4 with
  | 0 => Slot.ok (.br (bitsAt w 24 4) (bitsAt w 0 20) x)
  | 1 => Slot.ok (.call (bitsAt w 24 4) (bitsAt w 0 20) x)
  | 2 => if fieldAt w 0 14 == 0 then plain x (.jmp (bitsAt w 24 4) (bitsAt w 14 6)) else .bad 5
  | 3 => if fieldAt w 0 14 == 0 then plain x (.callx (bitsAt w 24 4) (bitsAt w 14 6)) else .bad 5
  | 4 => Slot.ok (.loop (bitsAt w 24 4) (bitsAt w 14 6) (bitsAt w 10 4) (bitsAt w 0 10) x)
  | 5 => if fieldAt w 0 20 == 0 then plain x (.mark (bitsAt w 24 4)) else .bad 5
  | 6 => if fieldAt w 0 8 == 0 then plain x (.park (bitsAt w 24 4) (bitsAt w 14 6) (bitsAt w 8 6)) else .bad 5
  | 7 => if fieldAt w 0 20 == 0 then plain x (.exit (bitsAt w 24 4)) else .bad 5
  | 8 => if fieldAt w 8 12 == 0 then plain x (.trap (bitsAt w 24 4) (bitsAt w 0 8)) else .bad 5
  | 9 => if fieldAt w 0 13 == 0 then plain x (.spool (bitsAt w 24 4) (bitsAt w 16 4) (bitsAt w 13 3)) else .bad 5
  | 10 => if fieldAt w 0 17 == 0 then plain x (.spbrk (bitsAt w 24 4) (bitsAt w 17 3)) else .bad 5
  | 11 => if fieldAt w 0 20 == 0 then plain x (.eret (bitsAt w 24 4)) else .bad 5
  | _ => .bad 4

/-- Class 0x5 (R179, R180): the op field, the reserved bits and the fields of each op. -/
def decodeLs (w : BitVec 32) (x : Option (BitVec 8)) : Slot :=
  match fieldAt w 19 5 with
  | 0 => if fieldAt w 0 1 == 0 then Slot.ok (.ld8 (bitsAt w 24 4) (bitsAt w 13 6) (bitsAt w 7 6) (bitsAt w 1 6) x) else .bad 5
  | 1 => if fieldAt w 0 1 == 0 then Slot.ok (.ld16 (bitsAt w 24 4) (bitsAt w 13 6) (bitsAt w 7 6) (bitsAt w 1 6) x) else .bad 5
  | 2 => if fieldAt w 0 1 == 0 then Slot.ok (.ld32 (bitsAt w 24 4) (bitsAt w 13 6) (bitsAt w 7 6) (bitsAt w 1 6) x) else .bad 5
  | 3 => if fieldAt w 0 1 == 0 then Slot.ok (.ld64 (bitsAt w 24 4) (bitsAt w 13 6) (bitsAt w 7 6) (bitsAt w 1 6) x) else .bad 5
  | 4 => if fieldAt w 0 1 == 0 then Slot.ok (.ld8s (bitsAt w 24 4) (bitsAt w 13 6) (bitsAt w 7 6) (bitsAt w 1 6) x) else .bad 5
  | 5 => if fieldAt w 0 1 == 0 then Slot.ok (.ld16s (bitsAt w 24 4) (bitsAt w 13 6) (bitsAt w 7 6) (bitsAt w 1 6) x) else .bad 5
  | 6 => if fieldAt w 0 1 == 0 then Slot.ok (.ld32s (bitsAt w 24 4) (bitsAt w 13 6) (bitsAt w 7 6) (bitsAt w 1 6) x) else .bad 5
  | 7 => if fieldAt w 0 1 == 0 then Slot.ok (.st8 (bitsAt w 24 4) (bitsAt w 13 6) (bitsAt w 7 6) (bitsAt w 1 6) x) else .bad 5
  | 8 => if fieldAt w 0 1 == 0 then Slot.ok (.st16 (bitsAt w 24 4) (bitsAt w 13 6) (bitsAt w 7 6) (bitsAt w 1 6) x) else .bad 5
  | 9 => if fieldAt w 0 1 == 0 then Slot.ok (.st32 (bitsAt w 24 4) (bitsAt w 13 6) (bitsAt w 7 6) (bitsAt w 1 6) x) else .bad 5
  | 10 => if fieldAt w 0 1 == 0 then Slot.ok (.st64 (bitsAt w 24 4) (bitsAt w 13 6) (bitsAt w 7 6) (bitsAt w 1 6) x) else .bad 5
  | 11 => if fieldAt w 0 1 == 0 && fieldAt w 12 1 == 0 then Slot.ok (.ldv (bitsAt w 24 4) (bitsAt w 13 6) (bitsAt w 7 5) (bitsAt w 1 6) x) else .bad 5
  | 12 => if fieldAt w 0 1 == 0 && fieldAt w 12 1 == 0 then Slot.ok (.stv (bitsAt w 24 4) (bitsAt w 13 6) (bitsAt w 7 5) (bitsAt w 1 6) x) else .bad 5
  | 13 => if fieldAt w 0 1 == 0 && fieldAt w 12 1 == 0 then Slot.ok (.ldvx (bitsAt w 24 4) (bitsAt w 13 6) (bitsAt w 7 5) (bitsAt w 1 6) x) else .bad 5
  | 14 => if fieldAt w 0 1 == 0 && fieldAt w 12 1 == 0 then Slot.ok (.stvx (bitsAt w 24 4) (bitsAt w 13 6) (bitsAt w 7 5) (bitsAt w 1 6) x) else .bad 5
  | 15 => if fieldAt w 0 1 == 0 && fieldAt w 10 3 == 0 then Slot.ok (.ldt (bitsAt w 24 4) (bitsAt w 13 6) (bitsAt w 7 3) (bitsAt w 1 6) x) else .bad 5
  | 16 => if fieldAt w 0 1 == 0 && fieldAt w 10 3 == 0 then Slot.ok (.stt (bitsAt w 24 4) (bitsAt w 13 6) (bitsAt w 7 3) (bitsAt w 1 6) x) else .bad 5
  | 17 => if fieldAt w 0 1 == 0 then Slot.ok (.lds (bitsAt w 24 4) (bitsAt w 13 6) (bitsAt w 7 6) (bitsAt w 1 6) x) else .bad 5
  | 18 => if fieldAt w 0 1 == 0 && fieldAt w 12 1 == 0 then Slot.ok (.ldsv (bitsAt w 24 4) (bitsAt w 13 6) (bitsAt w 7 5) (bitsAt w 1 6) x) else .bad 5
  | _ => .bad 4

/-- Class 0x6 (R179, R180): the op field, the reserved bits and the fields of each op. -/
def decodeSp (w : BitVec 32) (x : Option (BitVec 8)) : Slot :=
  match fieldAt w 21 3 with
  | 0 => if fieldAt w 0 6 == 0 then plain x (.spld (bitsAt w 24 4) (bitsAt w 15 6) (bitsAt w 6 9)) else .bad 5
  | 1 => if fieldAt w 0 6 == 0 then plain x (.spst (bitsAt w 24 4) (bitsAt w 15 6) (bitsAt w 6 9)) else .bad 5
  | 2 => if fieldAt w 0 6 == 0 && fieldAt w 20 1 == 0 then plain x (.spldv (bitsAt w 24 4) (bitsAt w 15 5) (bitsAt w 6 9)) else .bad 5
  | 3 => if fieldAt w 0 6 == 0 && fieldAt w 20 1 == 0 then plain x (.spstv (bitsAt w 24 4) (bitsAt w 15 5) (bitsAt w 6 9)) else .bad 5
  | 4 => if fieldAt w 0 6 == 0 then plain x (.spldp (bitsAt w 24 4) (bitsAt w 15 6) (bitsAt w 6 9)) else .bad 5
  | 5 => if fieldAt w 0 6 == 0 then plain x (.spstp (bitsAt w 24 4) (bitsAt w 15 6) (bitsAt w 6 9)) else .bad 5
  | _ => .bad 4

/-- Class 0x7 (R179, R180): the op field, the reserved bits and the fields of each op. -/
def decodeVl (w : BitVec 32) (x : Option (BitVec 8)) : Slot :=
  match fieldAt w 18 6 with
  | 0 => plain x (.vadd (bitsAt w 24 4) (bitsAt w 13 5) (bitsAt w 8 5) (bitsAt w 3 5) (bitsAt w 0 3))
  | 1 => plain x (.vsub (bitsAt w 24 4) (bitsAt w 13 5) (bitsAt w 8 5) (bitsAt w 3 5) (bitsAt w 0 3))
  | 2 => plain x (.vmul (bitsAt w 24 4) (bitsAt w 13 5) (bitsAt w 8 5) (bitsAt w 3 5) (bitsAt w 0 3))
  | 3 => plain x (.vand (bitsAt w 24 4) (bitsAt w 13 5) (bitsAt w 8 5) (bitsAt w 3 5) (bitsAt w 0 3))
  | 4 => plain x (.vor (bitsAt w 24 4) (bitsAt w 13 5) (bitsAt w 8 5) (bitsAt w 3 5) (bitsAt w 0 3))
  | 5 => plain x (.vxor (bitsAt w 24 4) (bitsAt w 13 5) (bitsAt w 8 5) (bitsAt w 3 5) (bitsAt w 0 3))
  | 6 => plain x (.vshl (bitsAt w 24 4) (bitsAt w 13 5) (bitsAt w 8 5) (bitsAt w 3 5) (bitsAt w 0 3))
  | 7 => plain x (.vshr (bitsAt w 24 4) (bitsAt w 13 5) (bitsAt w 8 5) (bitsAt w 3 5) (bitsAt w 0 3))
  | 8 => plain x (.vsra (bitsAt w 24 4) (bitsAt w 13 5) (bitsAt w 8 5) (bitsAt w 3 5) (bitsAt w 0 3))
  | 9 => plain x (.vmin (bitsAt w 24 4) (bitsAt w 13 5) (bitsAt w 8 5) (bitsAt w 3 5) (bitsAt w 0 3))
  | 10 => plain x (.vmax (bitsAt w 24 4) (bitsAt w 13 5) (bitsAt w 8 5) (bitsAt w 3 5) (bitsAt w 0 3))
  | 11 => plain x (.vminn (bitsAt w 24 4) (bitsAt w 13 5) (bitsAt w 8 5) (bitsAt w 3 5) (bitsAt w 0 3))
  | 12 => plain x (.vmaxn (bitsAt w 24 4) (bitsAt w 13 5) (bitsAt w 8 5) (bitsAt w 3 5) (bitsAt w 0 3))
  | 13 => plain x (.vsel (bitsAt w 24 4) (bitsAt w 13 5) (bitsAt w 8 5) (bitsAt w 3 5) (bitsAt w 0 3))
  | 14 => if fieldAt w 16 2 == 0 then plain x (.vcmpeq (bitsAt w 24 4) (bitsAt w 13 3) (bitsAt w 8 5) (bitsAt w 3 5) (bitsAt w 0 3)) else .bad 5
  | 15 => if fieldAt w 16 2 == 0 then plain x (.vcmplt (bitsAt w 24 4) (bitsAt w 13 3) (bitsAt w 8 5) (bitsAt w 3 5) (bitsAt w 0 3)) else .bad 5
  | 16 => if fieldAt w 16 2 == 0 then plain x (.vcmple (bitsAt w 24 4) (bitsAt w 13 3) (bitsAt w 8 5) (bitsAt w 3 5) (bitsAt w 0 3)) else .bad 5
  | 17 => if fieldAt w 16 2 == 0 then plain x (.vcmpltn (bitsAt w 24 4) (bitsAt w 13 3) (bitsAt w 8 5) (bitsAt w 3 5) (bitsAt w 0 3)) else .bad 5
  | 18 => if fieldAt w 3 10 == 0 then plain x (.viota (bitsAt w 24 4) (bitsAt w 13 5) (bitsAt w 0 3)) else .bad 5
  | 19 => plain x (.vbcast (bitsAt w 24 4) (bitsAt w 13 5) (bitsAt w 7 6) (bitsAt w 3 4) (bitsAt w 0 3))
  | 20 => if fieldAt w 0 1 == 0 then plain x (.vext (bitsAt w 24 4) (bitsAt w 12 6) (bitsAt w 7 5) (bitsAt w 1 6)) else .bad 5
  | 21 => if fieldAt w 0 1 == 0 then plain x (.vins (bitsAt w 24 4) (bitsAt w 13 5) (bitsAt w 7 6) (bitsAt w 1 6)) else .bad 5
  | 22 => if fieldAt w 3 9 == 0 then plain x (.vpopc (bitsAt w 24 4) (bitsAt w 12 6) (bitsAt w 0 3)) else .bad 5
  | 23 => if fieldAt w 3 9 == 0 then plain x (.vfirst (bitsAt w 24 4) (bitsAt w 12 6) (bitsAt w 0 3)) else .bad 5
  | 24 => if fieldAt w 3 5 == 0 then plain x (.vpack (bitsAt w 24 4) (bitsAt w 13 5) (bitsAt w 8 5) (bitsAt w 0 3)) else .bad 5
  | 25 => if fieldAt w 0 3 == 0 && fieldAt w 6 2 == 0 && fieldAt w 11 2 == 0 && fieldAt w 16 2 == 0 then plain x (.kand (bitsAt w 24 4) (bitsAt w 13 3) (bitsAt w 8 3) (bitsAt w 3 3)) else .bad 5
  | 26 => if fieldAt w 0 3 == 0 && fieldAt w 6 2 == 0 && fieldAt w 11 2 == 0 && fieldAt w 16 2 == 0 then plain x (.kor (bitsAt w 24 4) (bitsAt w 13 3) (bitsAt w 8 3) (bitsAt w 3 3)) else .bad 5
  | 27 => if fieldAt w 0 3 == 0 && fieldAt w 6 2 == 0 && fieldAt w 11 2 == 0 && fieldAt w 16 2 == 0 then plain x (.kxor (bitsAt w 24 4) (bitsAt w 13 3) (bitsAt w 8 3) (bitsAt w 3 3)) else .bad 5
  | 28 => if fieldAt w 0 8 == 0 && fieldAt w 11 2 == 0 && fieldAt w 16 2 == 0 then plain x (.kmov (bitsAt w 24 4) (bitsAt w 13 3) (bitsAt w 8 3)) else .bad 5
  | 29 => plain x (.vmov (bitsAt w 24 4) (bitsAt w 13 5) (bitsAt w 8 5) (bitsAt w 3 5) (bitsAt w 0 3))
  | 30 => if fieldAt w 0 3 == 0 && fieldAt w 7 6 == 0 then plain x (.vtag (bitsAt w 24 4) (bitsAt w 13 5) (bitsAt w 3 4)) else .bad 5
  | 31 => if fieldAt w 0 7 == 0 then plain x (.vfmt (bitsAt w 24 4) (bitsAt w 12 6) (bitsAt w 7 5)) else .bad 5
  | _ => .bad 4

/-- Class 0x8 (R179, R180): the op field, the reserved bits and the fields of each op. -/
def decodeMb (w : BitVec 32) (x : Option (BitVec 8)) : Slot :=
  match fieldAt w 20 4 with
  | 0 => if fieldAt w 0 7 == 0 && fieldAt w 8 7 == 0 && fieldAt w 18 2 == 0 then plain x (.mload (bitsAt w 24 4) (bitsAt w 15 3) (bitsAt w 7 1)) else .bad 5
  | 1 => if fieldAt w 0 7 == 0 && fieldAt w 8 7 == 0 && fieldAt w 18 2 == 0 then plain x (.mloadg (bitsAt w 24 4) (bitsAt w 15 3) (bitsAt w 7 1)) else .bad 5
  | 2 => if fieldAt w 0 7 == 0 then plain x (.mpush (bitsAt w 24 4) (bitsAt w 18 2) (bitsAt w 15 3) (bitsAt w 9 6) (bitsAt w 8 1) (bitsAt w 7 1)) else .bad 5
  | 3 => if fieldAt w 0 7 == 0 && fieldAt w 15 3 == 0 then plain x (.mpushl (bitsAt w 24 4) (bitsAt w 18 2) (bitsAt w 9 6) (bitsAt w 8 1) (bitsAt w 7 1)) else .bad 5
  | 4 => if fieldAt w 0 7 == 0 then plain x (.mpushg (bitsAt w 24 4) (bitsAt w 18 2) (bitsAt w 15 3) (bitsAt w 9 6) (bitsAt w 8 1) (bitsAt w 7 1)) else .bad 5
  | 5 => if fieldAt w 4 14 == 0 then plain x (.mzero (bitsAt w 24 4) (bitsAt w 18 2) (bitsAt w 0 4)) else .bad 5
  | 6 => if fieldAt w 0 15 == 0 then plain x (.minit (bitsAt w 24 4) (bitsAt w 18 2) (bitsAt w 15 3)) else .bad 5
  | 7 => if fieldAt w 7 11 == 0 then plain x (.mshift (bitsAt w 24 4) (bitsAt w 18 2) (bitsAt w 0 7)) else .bad 5
  | 8 => if fieldAt w 0 18 == 0 then plain x (.mswap (bitsAt w 24 4) (bitsAt w 18 2)) else .bad 5
  | 9 => if fieldAt w 7 2 == 0 && fieldAt w 15 3 == 0 then plain x (.mdrain (bitsAt w 24 4) (bitsAt w 18 2) (bitsAt w 9 6) (bitsAt w 0 7)) else .bad 5
  | _ => .bad 4

/-- Class 0x9 (R179, R180): the op field, the reserved bits and the fields of each op. -/
def decodePt (w : BitVec 32) (x : Option (BitVec 8)) : Slot :=
  match fieldAt w 19 5 with
  | 0 => if fieldAt w 0 10 == 0 then plain x (.gset (bitsAt w 24 4) (bitsAt w 16 3) (bitsAt w 10 6)) else .bad 5
  | 1 => if fieldAt w 7 2 == 0 && fieldAt w 15 1 == 0 then plain x (.gidx (bitsAt w 24 4) (bitsAt w 16 3) (bitsAt w 10 5) (bitsAt w 9 1) (bitsAt w 0 7)) else .bad 5
  | 2 => if fieldAt w 7 3 == 0 && fieldAt w 15 1 == 0 then plain x (.gdiag (bitsAt w 24 4) (bitsAt w 16 3) (bitsAt w 10 5) (bitsAt w 0 7)) else .bad 5
  | 3 => if fieldAt w 0 4 == 0 then plain x (.gband (bitsAt w 24 4) (bitsAt w 16 3) (bitsAt w 10 6) (bitsAt w 9 1) (bitsAt w 4 5)) else .bad 5
  | 4 => if fieldAt w 4 12 == 0 then plain x (.tzero (bitsAt w 24 4) (bitsAt w 16 3) (bitsAt w 0 4)) else .bad 5
  | 5 => if fieldAt w 0 10 == 0 && fieldAt w 13 3 == 0 then plain x (.tmove (bitsAt w 24 4) (bitsAt w 16 3) (bitsAt w 10 3)) else .bad 5
  | 6 => if fieldAt w 4 6 == 0 then plain x (.tfill (bitsAt w 24 4) (bitsAt w 16 3) (bitsAt w 10 6) (bitsAt w 0 4)) else .bad 5
  | 7 => if fieldAt w 6 4 == 0 && fieldAt w 15 1 == 0 then plain x (.tsetv (bitsAt w 24 4) (bitsAt w 16 3) (bitsAt w 10 5) (bitsAt w 0 6)) else .bad 5
  | 8 => if fieldAt w 6 4 == 0 && fieldAt w 15 1 == 0 then plain x (.tgetv (bitsAt w 24 4) (bitsAt w 16 3) (bitsAt w 10 5) (bitsAt w 0 6)) else .bad 5
  | 9 => if fieldAt w 4 12 == 0 then plain x (.ttag (bitsAt w 24 4) (bitsAt w 16 3) (bitsAt w 0 4)) else .bad 5
  | 10 => if fieldAt w 0 10 == 0 then plain x (.tfmt (bitsAt w 24 4) (bitsAt w 16 3) (bitsAt w 10 6)) else .bad 5
  | _ => .bad 4

/-- Class 0xA (R179, R180): the op field, the reserved bits and the fields of each op. -/
def decodeTx (w : BitVec 32) (x : Option (BitVec 8)) : Slot :=
  match fieldAt w 20 4 with
  | 0 => if fieldAt w 18 2 == 0 then plain x (.xpand (bitsAt w 24 4) (bitsAt w 15 3) (bitsAt w 10 5) (bitsAt w 6 4) (bitsAt w 0 6)) else .bad 5
  | 1 => if fieldAt w 0 10 == 0 && fieldAt w 13 2 == 0 && fieldAt w 18 2 == 0 then plain x (.xpose (bitsAt w 24 4) (bitsAt w 15 3) (bitsAt w 10 3)) else .bad 5
  | 2 => if fieldAt w 1 2 == 0 && fieldAt w 13 2 == 0 && fieldAt w 18 2 == 0 then plain x (.xconv (bitsAt w 24 4) (bitsAt w 15 3) (bitsAt w 10 3) (bitsAt w 6 4) (bitsAt w 3 3) (bitsAt w 0 1)) else .bad 5
  | 3 => plain x (.vconv (bitsAt w 24 4) (bitsAt w 15 5) (bitsAt w 10 5) (bitsAt w 6 4) (bitsAt w 3 3) (bitsAt w 0 3))
  | 4 => if fieldAt w 3 2 == 0 then plain x (.xperm (bitsAt w 24 4) (bitsAt w 15 5) (bitsAt w 10 5) (bitsAt w 5 5) (bitsAt w 0 3)) else .bad 5
  | 5 => if fieldAt w 6 4 == 0 && fieldAt w 13 2 == 0 then plain x (.xpack (bitsAt w 24 4) (bitsAt w 15 5) (bitsAt w 10 3) (bitsAt w 0 6)) else .bad 5
  | _ => .bad 4

/-- Class 0xB (R179, R180): the op field, the reserved bits and the fields of each op. -/
def decodeDf (w : BitVec 32) (x : Option (BitVec 8)) : Slot :=
  match fieldAt w 20 4 with
  | 0 => plain x (.dfcfg (bitsAt w 24 4) (bitsAt w 16 4) (bitsAt w 12 4) (bitsAt w 9 3) (bitsAt w 8 1) (bitsAt w 0 8))
  | 1 =>
    match fieldAt w 18 2 with
    | 0 => if fieldAt w 0 18 == 0 then plain x (.dfdstNone (bitsAt w 24 4)) else .bad 5
    | 1 => if fieldAt w 0 15 == 0 then plain x (.dfdstT (bitsAt w 24 4) (bitsAt w 15 3)) else .bad 5
    | 2 => if fieldAt w 0 6 == 0 then plain x (.dfdstH (bitsAt w 24 4) (bitsAt w 12 6) (bitsAt w 6 6)) else .bad 5
    | _ => .bad 5
  | 2 => if fieldAt w 0 8 == 0 then plain x (.dfscale (bitsAt w 24 4) (bitsAt w 19 1) (bitsAt w 18 1) (bitsAt w 13 5) (bitsAt w 8 5)) else .bad 5
  | 3 => if fieldAt w 0 3 == 0 then plain x (.dfmask (bitsAt w 24 4) (bitsAt w 14 6) (bitsAt w 8 6) (bitsAt w 3 5)) else .bad 5
  | 4 => if fieldAt w 0 8 == 0 then plain x (.dfrow (bitsAt w 24 4) (bitsAt w 19 1) (bitsAt w 18 1) (bitsAt w 13 5) (bitsAt w 8 5)) else .bad 5
  | 5 => if fieldAt w 0 6 == 0 then plain x (.dfmass (bitsAt w 24 4) (bitsAt w 14 6) (bitsAt w 8 6) (bitsAt w 6 2)) else .bad 5
  | 6 => plain x (.dfv (bitsAt w 24 4) (bitsAt w 15 5) (bitsAt w 10 5) (bitsAt w 5 5) (bitsAt w 0 5))
  | 7 => if fieldAt w 0 11 == 0 then plain x (.dfstat (bitsAt w 24 4) (bitsAt w 14 6) (bitsAt w 11 3)) else .bad 5
  | _ => .bad 4

/-- Class 0xC (R179, R180): the op field, the reserved bits and the fields of each op. -/
def decodeEc (w : BitVec 32) (x : Option (BitVec 8)) : Slot :=
  match fieldAt w 18 6 with
  | 0 => plain x (.copy (bitsAt w 24 4) (bitsAt w 17 1) (bitsAt w 16 1) (bitsAt w 13 3) (bitsAt w 7 6) (bitsAt w 1 6) (bitsAt w 0 1))
  | 1 => plain x (.copym (bitsAt w 24 4) (bitsAt w 17 1) (bitsAt w 16 1) (bitsAt w 13 3) (bitsAt w 7 6) (bitsAt w 1 6) (bitsAt w 0 1))
  | 2 => plain x (.cexp (bitsAt w 24 4) (bitsAt w 17 1) (bitsAt w 16 1) (bitsAt w 13 3) (bitsAt w 7 6) (bitsAt w 1 6) (bitsAt w 0 1))
  | 3 => if fieldAt w 5 13 == 0 then plain x (.gath (bitsAt w 24 4) (bitsAt w 0 5)) else .bad 5
  | 4 => plain x (.pool (bitsAt w 24 4) (bitsAt w 17 1) (bitsAt w 16 1) (bitsAt w 13 3) (bitsAt w 7 6) (bitsAt w 1 6) (bitsAt w 0 1))
  | 5 => plain x (.sfork (bitsAt w 24 4) (bitsAt w 17 1) (bitsAt w 16 1) (bitsAt w 13 3) (bitsAt w 7 6) (bitsAt w 1 6) (bitsAt w 0 1))
  | 6 => plain x (.sretire (bitsAt w 24 4) (bitsAt w 17 1) (bitsAt w 16 1) (bitsAt w 13 3) (bitsAt w 7 6) (bitsAt w 1 6) (bitsAt w 0 1))
  | 7 => plain x (.stld (bitsAt w 24 4) (bitsAt w 17 1) (bitsAt w 16 1) (bitsAt w 13 3) (bitsAt w 7 6) (bitsAt w 1 6) (bitsAt w 0 1))
  | 8 => plain x (.stinv (bitsAt w 24 4) (bitsAt w 17 1) (bitsAt w 16 1) (bitsAt w 13 3) (bitsAt w 7 6) (bitsAt w 1 6) (bitsAt w 0 1))
  | 9 => plain x (.ballast (bitsAt w 24 4) (bitsAt w 17 1) (bitsAt w 16 1) (bitsAt w 13 3) (bitsAt w 7 6) (bitsAt w 1 6) (bitsAt w 0 1))
  | 10 => plain x (.fput (bitsAt w 24 4) (bitsAt w 17 1) (bitsAt w 16 1) (bitsAt w 13 3) (bitsAt w 7 6) (bitsAt w 1 6) (bitsAt w 0 1))
  | 11 => plain x (.fget (bitsAt w 24 4) (bitsAt w 17 1) (bitsAt w 16 1) (bitsAt w 13 3) (bitsAt w 7 6) (bitsAt w 1 6) (bitsAt w 0 1))
  | 12 => plain x (.fred (bitsAt w 24 4) (bitsAt w 17 1) (bitsAt w 16 1) (bitsAt w 13 3) (bitsAt w 7 6) (bitsAt w 1 6) (bitsAt w 0 1))
  | 13 => if fieldAt w 3 10 == 0 && fieldAt w 17 1 == 0 then plain x (.launch (bitsAt w 24 4) (bitsAt w 16 1) (bitsAt w 13 3) (bitsAt w 0 3)) else .bad 5
  | 14 => if fieldAt w 6 1 == 0 then plain x (.offload (bitsAt w 24 4) (bitsAt w 17 1) (bitsAt w 16 1) (bitsAt w 13 3) (bitsAt w 7 6) (bitsAt w 0 6)) else .bad 5
  | 15 => if fieldAt w 6 1 == 0 then plain x (.recall (bitsAt w 24 4) (bitsAt w 17 1) (bitsAt w 16 1) (bitsAt w 13 3) (bitsAt w 7 6) (bitsAt w 0 6)) else .bad 5
  | _ => .bad 4

/-- Class 0xD (R179, R180): the op field, the reserved bits and the fields of each op. -/
def decodeSy (w : BitVec 32) (x : Option (BitVec 8)) : Slot :=
  match fieldAt w 19 5 with
  | 0 => if fieldAt w 0 2 == 0 then plain x (.cadd (bitsAt w 24 4) (bitsAt w 17 2) (bitsAt w 14 3) (bitsAt w 8 6) (bitsAt w 2 6)) else .bad 5
  | 1 => if fieldAt w 0 2 == 0 then plain x (.cwait (bitsAt w 24 4) (bitsAt w 17 2) (bitsAt w 14 3) (bitsAt w 8 6) (bitsAt w 2 6)) else .bad 5
  | 2 => if fieldAt w 0 2 == 0 then plain x (.cread (bitsAt w 24 4) (bitsAt w 17 2) (bitsAt w 14 3) (bitsAt w 8 6) (bitsAt w 2 6)) else .bad 5
  | 3 => if fieldAt w 0 2 == 0 then plain x (.craise (bitsAt w 24 4) (bitsAt w 17 2) (bitsAt w 14 3) (bitsAt w 8 6) (bitsAt w 2 6)) else .bad 5
  | 4 => if fieldAt w 0 1 == 0 then plain x (.aadd (bitsAt w 24 4) (bitsAt w 13 6) (bitsAt w 7 6) (bitsAt w 1 6)) else .bad 5
  | 5 => if fieldAt w 0 1 == 0 then plain x (.amin (bitsAt w 24 4) (bitsAt w 13 6) (bitsAt w 7 6) (bitsAt w 1 6)) else .bad 5
  | 6 => if fieldAt w 0 1 == 0 then plain x (.amax (bitsAt w 24 4) (bitsAt w 13 6) (bitsAt w 7 6) (bitsAt w 1 6)) else .bad 5
  | 7 => if fieldAt w 0 1 == 0 then plain x (.axchg (bitsAt w 24 4) (bitsAt w 13 6) (bitsAt w 7 6) (bitsAt w 1 6)) else .bad 5
  | 8 => if fieldAt w 0 1 == 0 then plain x (.acas (bitsAt w 24 4) (bitsAt w 13 6) (bitsAt w 7 6) (bitsAt w 1 6)) else .bad 5
  | 9 => if fieldAt w 0 1 == 0 then plain x (.aand (bitsAt w 24 4) (bitsAt w 13 6) (bitsAt w 7 6) (bitsAt w 1 6)) else .bad 5
  | 10 => if fieldAt w 0 1 == 0 then plain x (.aor (bitsAt w 24 4) (bitsAt w 13 6) (bitsAt w 7 6) (bitsAt w 1 6)) else .bad 5
  | 11 => if fieldAt w 0 1 == 0 then plain x (.sadd (bitsAt w 24 4) (bitsAt w 13 6) (bitsAt w 7 6) (bitsAt w 1 6)) else .bad 5
  | 12 => if fieldAt w 0 9 == 0 then plain x (.fbegin (bitsAt w 24 4) (bitsAt w 16 3) (bitsAt w 12 4) (bitsAt w 9 3)) else .bad 5
  | 13 => if fieldAt w 0 16 == 0 then plain x (.fwait (bitsAt w 24 4) (bitsAt w 16 3)) else .bad 5
  | 14 => if fieldAt w 0 8 == 0 then plain x (.join (bitsAt w 24 4) (bitsAt w 17 2) (bitsAt w 14 3) (bitsAt w 8 6)) else .bad 5
  | 15 => if fieldAt w 0 8 == 0 then plain x (.leave (bitsAt w 24 4) (bitsAt w 17 2) (bitsAt w 14 3) (bitsAt w 8 6)) else .bad 5
  | 16 => if fieldAt w 0 2 == 0 then plain x (.tbar (bitsAt w 24 4) (bitsAt w 17 2) (bitsAt w 14 3) (bitsAt w 8 6) (bitsAt w 2 6)) else .bad 5
  | 17 => if fieldAt w 0 2 == 0 then plain x (.tarrive (bitsAt w 24 4) (bitsAt w 17 2) (bitsAt w 14 3) (bitsAt w 8 6) (bitsAt w 2 6)) else .bad 5
  | 18 => if fieldAt w 0 2 == 0 && fieldAt w 8 11 == 1216 then plain x (.stepadv (bitsAt w 24 4) (bitsAt w 2 6)) else .bad 5
  | 19 => if fieldAt w 0 1 == 0 then plain x (.srsv (bitsAt w 24 4) (bitsAt w 13 6) (bitsAt w 7 6) (bitsAt w 1 6)) else .bad 5
  | 20 => if fieldAt w 0 1 == 0 && fieldAt w 13 6 == 0 then plain x (.scmt (bitsAt w 24 4) (bitsAt w 7 6) (bitsAt w 1 6)) else .bad 5
  | 21 => if fieldAt w 0 1 == 0 then plain x (.spin (bitsAt w 24 4) (bitsAt w 13 6) (bitsAt w 7 6) (bitsAt w 1 6)) else .bad 5
  | 22 => if fieldAt w 0 1 == 0 then plain x (.sunpin (bitsAt w 24 4) (bitsAt w 13 6) (bitsAt w 7 6) (bitsAt w 1 6)) else .bad 5
  | 23 => if fieldAt w 0 1 == 0 && fieldAt w 3 4 == 0 then plain x (.sqsnap (bitsAt w 24 4) (bitsAt w 13 6) (bitsAt w 7 6) (bitsAt w 1 2)) else .bad 5
  | _ => .bad 4

/-- Class 0xE (R179, R180): the op field, the reserved bits and the fields of each op. -/
def decodeSys (w : BitVec 32) (x : Option (BitVec 8)) : Slot :=
  match fieldAt w 20 4 with
  | 0 => if fieldAt w 0 4 == 0 then plain x (.movs (bitsAt w 24 4) (bitsAt w 14 6) (bitsAt w 4 10)) else .bad 5
  | 1 => if fieldAt w 0 4 == 0 then plain x (.movsw (bitsAt w 24 4) (bitsAt w 14 6) (bitsAt w 4 10)) else .bad 5
  | 2 => if fieldAt w 0 14 == 0 then plain x (.setpri (bitsAt w 24 4) (bitsAt w 14 6)) else .bad 5
  | 3 =>
    match fieldAt w 18 2 with
    | 0 => if fieldAt w 0 18 == 0 then plain x (.noisectlLive (bitsAt w 24 4)) else .bad 5
    | 1 => if fieldAt w 0 12 == 0 then plain x (.noisectlLog (bitsAt w 24 4) (bitsAt w 12 6)) else .bad 5
    | 2 => if fieldAt w 0 6 == 0 then plain x (.noisectlReplay (bitsAt w 24 4) (bitsAt w 12 6) (bitsAt w 6 6)) else .bad 5
    | _ => .bad 5
  | 4 => if fieldAt w 0 19 == 0 then plain x (.chkmode (bitsAt w 24 4) (bitsAt w 19 1)) else .bad 5
  | 5 => if fieldAt w 0 11 == 0 then plain x (.traprd (bitsAt w 24 4) (bitsAt w 14 6) (bitsAt w 11 3)) else .bad 5
  | 6 => if fieldAt w 0 14 == 0 then plain x (.idle (bitsAt w 24 4) (bitsAt w 14 6)) else .bad 5
  | _ => .bad 4

/-- A header (R170, R171): kind 0 LEND, kind 1 REP, others reason 2. -/
def decodeHeader (w : BitVec 32) : Slot :=
  match fieldAt w 24 4 with
  | 0 => .ok (.lend (bitsAt w 16 8) (bitsAt w 8 8) (bitsAt w 0 8))
  | 1 => if fieldAt w 0 10 == 0 then .ok (.rep (bitsAt w 16 8) (bitsAt w 14 2) (bitsAt w 12 2) (bitsAt w 10 2)) else .bad 5
  | _ => .bad 2

/-- One slot word (R163, R179): pos is its place in the bundle, x its lend byte under LEND. Class 0xF is a header in slot 0 and
reason 1 elsewhere (R169). -/
def decodeSlot (pos : Nat) (w : BitVec 32) (x : Option (BitVec 8)) : Slot :=
  match fieldAt w 28 4 with
  | 0 => decodeStall w x
  | 1 => decodeXr w x
  | 2 => decodeXi w x
  | 3 => decodePc w x
  | 4 => decodeCt w x
  | 5 => decodeLs w x
  | 6 => decodeSp w x
  | 7 => decodeVl w x
  | 8 => decodeMb w x
  | 9 => decodePt w x
  | 10 => decodeTx w x
  | 11 => decodeDf w x
  | 12 => decodeEc w x
  | 13 => decodeSy w x
  | 14 => decodeSys w x
  | _ => if pos = 0 then decodeHeader w else .bad 1

/-- The lend byte that a LEND word gives slot k (R170); no word but LEND lends. -/
def lendByte (w0 : BitVec 32) (k : Nat) : Option (BitVec 8) :=
  if fieldAt w0 24 8 == 0xF0 then some (bitsAt w0 (8 * (k - 1)) 8) else none

/-- The four slots of a bundle from its words (R163, R170). -/
def decodeWords (w0 w1 w2 w3 : BitVec 32) : List Slot :=
  [decodeSlot 0 w0 none, decodeSlot 1 w1 (lendByte w0 1), decodeSlot 2 w2 (lendByte w0 2), decodeSlot 3 w3 (lendByte w0 3)]

/-- Word k of a bundle's bytes, little-endian (R163). -/
def bundleWord (bs : List (BitVec 8)) (k : Nat) : BitVec 32 := BitVec.ofNat 32 (leNat ((bs.drop (4 * k)).take 4))

/-- A bundle of 16 bytes (R163): its four slots. Fewer bytes are no bundle. -/
def decodeBundle (bs : List (BitVec 8)) : Option (List Slot) :=
  if bs.length = 16 then some (decodeWords (bundleWord bs 0) (bundleWord bs 1) (bundleWord bs 2) (bundleWord bs 3)) else none

/-- The bytes of the bundle whose slot 0 is the word of the opcode table and whose other slots are NOP (R163). -/
def tableBundle (w : Nat) : List (BitVec 8) := leBytes 4 w ++ List.replicate 12 0

/-- The instruction that the decoder reads from a word of the opcode table, bit 0 the least significant bit of slot 0. -/
def decodeTableWord (nbits w : Nat) : Option Instr :=
  if nbits = 32 then
    match decodeBundle (tableBundle w) with
    | some (.ok i :: _) => some i
    | _ => none
  else none

/-- The word and lend byte of an instruction that a slot encodes, by the layouts of R179 and the map R180; none for a step of
another agent. -/
def encode : Instr → Option (BitVec 32 × Option (BitVec 8))
  | .nop g => some (BitVec.ofNat 32 (0x00000000 + g.toNat * 0x1000000), none)
  | .stall g n x => some (BitVec.ofNat 32 (0x00000000 + g.toNat * 0x1000000 + n.toNat * 0x1), x)
  | .add g d a b => some (BitVec.ofNat 32 (0x10000000 + g.toNat * 0x1000000 + d.toNat * 0x1000 + a.toNat * 0x40 + b.toNat * 0x1), none)
  | .sub g d a b => some (BitVec.ofNat 32 (0x10040000 + g.toNat * 0x1000000 + d.toNat * 0x1000 + a.toNat * 0x40 + b.toNat * 0x1), none)
  | .mul g d a b => some (BitVec.ofNat 32 (0x10080000 + g.toNat * 0x1000000 + d.toNat * 0x1000 + a.toNat * 0x40 + b.toNat * 0x1), none)
  | .mulh g d a b => some (BitVec.ofNat 32 (0x100C0000 + g.toNat * 0x1000000 + d.toNat * 0x1000 + a.toNat * 0x40 + b.toNat * 0x1), none)
  | .mulhn g d a b => some (BitVec.ofNat 32 (0x10100000 + g.toNat * 0x1000000 + d.toNat * 0x1000 + a.toNat * 0x40 + b.toNat * 0x1), none)
  | .div g d a b => some (BitVec.ofNat 32 (0x10140000 + g.toNat * 0x1000000 + d.toNat * 0x1000 + a.toNat * 0x40 + b.toNat * 0x1), none)
  | .divn g d a b => some (BitVec.ofNat 32 (0x10180000 + g.toNat * 0x1000000 + d.toNat * 0x1000 + a.toNat * 0x40 + b.toNat * 0x1), none)
  | .rem g d a b => some (BitVec.ofNat 32 (0x101C0000 + g.toNat * 0x1000000 + d.toNat * 0x1000 + a.toNat * 0x40 + b.toNat * 0x1), none)
  | .remn g d a b => some (BitVec.ofNat 32 (0x10200000 + g.toNat * 0x1000000 + d.toNat * 0x1000 + a.toNat * 0x40 + b.toNat * 0x1), none)
  | .and g d a b => some (BitVec.ofNat 32 (0x10240000 + g.toNat * 0x1000000 + d.toNat * 0x1000 + a.toNat * 0x40 + b.toNat * 0x1), none)
  | .or g d a b => some (BitVec.ofNat 32 (0x10280000 + g.toNat * 0x1000000 + d.toNat * 0x1000 + a.toNat * 0x40 + b.toNat * 0x1), none)
  | .xor g d a b => some (BitVec.ofNat 32 (0x102C0000 + g.toNat * 0x1000000 + d.toNat * 0x1000 + a.toNat * 0x40 + b.toNat * 0x1), none)
  | .andn g d a b => some (BitVec.ofNat 32 (0x10300000 + g.toNat * 0x1000000 + d.toNat * 0x1000 + a.toNat * 0x40 + b.toNat * 0x1), none)
  | .shl g d a b => some (BitVec.ofNat 32 (0x10340000 + g.toNat * 0x1000000 + d.toNat * 0x1000 + a.toNat * 0x40 + b.toNat * 0x1), none)
  | .shr g d a b => some (BitVec.ofNat 32 (0x10380000 + g.toNat * 0x1000000 + d.toNat * 0x1000 + a.toNat * 0x40 + b.toNat * 0x1), none)
  | .sra g d a b => some (BitVec.ofNat 32 (0x103C0000 + g.toNat * 0x1000000 + d.toNat * 0x1000 + a.toNat * 0x40 + b.toNat * 0x1), none)
  | .min g d a b => some (BitVec.ofNat 32 (0x10400000 + g.toNat * 0x1000000 + d.toNat * 0x1000 + a.toNat * 0x40 + b.toNat * 0x1), none)
  | .max g d a b => some (BitVec.ofNat 32 (0x10440000 + g.toNat * 0x1000000 + d.toNat * 0x1000 + a.toNat * 0x40 + b.toNat * 0x1), none)
  | .minn g d a b => some (BitVec.ofNat 32 (0x10480000 + g.toNat * 0x1000000 + d.toNat * 0x1000 + a.toNat * 0x40 + b.toNat * 0x1), none)
  | .maxn g d a b => some (BitVec.ofNat 32 (0x104C0000 + g.toNat * 0x1000000 + d.toNat * 0x1000 + a.toNat * 0x40 + b.toNat * 0x1), none)
  | .clz g d a => some (BitVec.ofNat 32 (0x10500000 + g.toNat * 0x1000000 + d.toNat * 0x1000 + a.toNat * 0x40), none)
  | .ctz g d a => some (BitVec.ofNat 32 (0x10540000 + g.toNat * 0x1000000 + d.toNat * 0x1000 + a.toNat * 0x40), none)
  | .popc g d a => some (BitVec.ofNat 32 (0x10580000 + g.toNat * 0x1000000 + d.toNat * 0x1000 + a.toNat * 0x40), none)
  | .add32 g d a b => some (BitVec.ofNat 32 (0x105C0000 + g.toNat * 0x1000000 + d.toNat * 0x1000 + a.toNat * 0x40 + b.toNat * 0x1), none)
  | .sub32 g d a b => some (BitVec.ofNat 32 (0x10600000 + g.toNat * 0x1000000 + d.toNat * 0x1000 + a.toNat * 0x40 + b.toNat * 0x1), none)
  | .addi g d a i x => some (BitVec.ofNat 32 (0x20000000 + g.toNat * 0x1000000 + d.toNat * 0x4000 + a.toNat * 0x100 + i.toNat * 0x1), x)
  | .andi g d a i x => some (BitVec.ofNat 32 (0x20100000 + g.toNat * 0x1000000 + d.toNat * 0x4000 + a.toNat * 0x100 + i.toNat * 0x1), x)
  | .ori g d a i x => some (BitVec.ofNat 32 (0x20200000 + g.toNat * 0x1000000 + d.toNat * 0x4000 + a.toNat * 0x100 + i.toNat * 0x1), x)
  | .xori g d a i x => some (BitVec.ofNat 32 (0x20300000 + g.toNat * 0x1000000 + d.toNat * 0x4000 + a.toNat * 0x100 + i.toNat * 0x1), x)
  | .shli g d a s x => some (BitVec.ofNat 32 (0x20400000 + g.toNat * 0x1000000 + d.toNat * 0x4000 + a.toNat * 0x100 + s.toNat * 0x1), x)
  | .shri g d a s x => some (BitVec.ofNat 32 (0x20500000 + g.toNat * 0x1000000 + d.toNat * 0x4000 + a.toNat * 0x100 + s.toNat * 0x1), x)
  | .srai g d a s x => some (BitVec.ofNat 32 (0x20600000 + g.toNat * 0x1000000 + d.toNat * 0x4000 + a.toNat * 0x100 + s.toNat * 0x1), x)
  | .movi g d i x => some (BitVec.ofNat 32 (0x20700000 + g.toNat * 0x1000000 + d.toNat * 0x4000 + i.toNat * 0x1), x)
  | .movk g d h i x => some (BitVec.ofNat 32 (0x20800000 + g.toNat * 0x1000000 + d.toNat * 0x4000 + h.toNat * 0x100 + i.toNat * 0x1), x)
  | .cmpeq g p a b => some (BitVec.ofNat 32 (0x30000000 + g.toNat * 0x1000000 + p.toNat * 0x8000 + a.toNat * 0x200 + b.toNat * 0x8), none)
  | .cmpne g p a b => some (BitVec.ofNat 32 (0x30080000 + g.toNat * 0x1000000 + p.toNat * 0x8000 + a.toNat * 0x200 + b.toNat * 0x8), none)
  | .cmplt g p a b => some (BitVec.ofNat 32 (0x30100000 + g.toNat * 0x1000000 + p.toNat * 0x8000 + a.toNat * 0x200 + b.toNat * 0x8), none)
  | .cmple g p a b => some (BitVec.ofNat 32 (0x30180000 + g.toNat * 0x1000000 + p.toNat * 0x8000 + a.toNat * 0x200 + b.toNat * 0x8), none)
  | .cmpltn g p a b => some (BitVec.ofNat 32 (0x30200000 + g.toNat * 0x1000000 + p.toNat * 0x8000 + a.toNat * 0x200 + b.toNat * 0x8), none)
  | .cmplen g p a b => some (BitVec.ofNat 32 (0x30280000 + g.toNat * 0x1000000 + p.toNat * 0x8000 + a.toNat * 0x200 + b.toNat * 0x8), none)
  | .cmpeqi g p a i x => some (BitVec.ofNat 32 (0x30300000 + g.toNat * 0x1000000 + p.toNat * 0x8000 + a.toNat * 0x200 + i.toNat * 0x1), x)
  | .cmplti g p a i x => some (BitVec.ofNat 32 (0x30380000 + g.toNat * 0x1000000 + p.toNat * 0x8000 + a.toNat * 0x200 + i.toNat * 0x1), x)
  | .cmplei g p a i x => some (BitVec.ofNat 32 (0x30400000 + g.toNat * 0x1000000 + p.toNat * 0x8000 + a.toNat * 0x200 + i.toNat * 0x1), x)
  | .tbit g p a n => some (BitVec.ofNat 32 (0x30480000 + g.toNat * 0x1000000 + p.toNat * 0x8000 + a.toNat * 0x200 + n.toNat * 0x1), none)
  | .pand g d a b => some (BitVec.ofNat 32 (0x30500000 + g.toNat * 0x1000000 + d.toNat * 0x8000 + a.toNat * 0x200 + b.toNat * 0x8), none)
  | .por g d a b => some (BitVec.ofNat 32 (0x30580000 + g.toNat * 0x1000000 + d.toNat * 0x8000 + a.toNat * 0x200 + b.toNat * 0x8), none)
  | .pxor g d a b => some (BitVec.ofNat 32 (0x30600000 + g.toNat * 0x1000000 + d.toNat * 0x8000 + a.toNat * 0x200 + b.toNat * 0x8), none)
  | .pandn g d a b => some (BitVec.ofNat 32 (0x30680000 + g.toNat * 0x1000000 + d.toNat * 0x8000 + a.toNat * 0x200 + b.toNat * 0x8), none)
  | .pmov g d a => some (BitVec.ofNat 32 (0x30700000 + g.toNat * 0x1000000 + d.toNat * 0x8000 + a.toNat * 0x200), none)
  | .pset g d v => some (BitVec.ofNat 32 (0x30780000 + g.toNat * 0x1000000 + d.toNat * 0x8000 + v.toNat * 0x8), none)
  | .pload g x => some (BitVec.ofNat 32 (0x30800000 + g.toNat * 0x1000000 + x.toNat * 0x200), none)
  | .pstore g x => some (BitVec.ofNat 32 (0x30880000 + g.toNat * 0x1000000 + x.toNat * 0x200), none)
  | .br g o x => some (BitVec.ofNat 32 (0x40000000 + g.toNat * 0x1000000 + o.toNat * 0x1), x)
  | .call g o x => some (BitVec.ofNat 32 (0x40100000 + g.toNat * 0x1000000 + o.toNat * 0x1), x)
  | .jmp g a => some (BitVec.ofNat 32 (0x40200000 + g.toNat * 0x1000000 + a.toNat * 0x4000), none)
  | .callx g a => some (BitVec.ofNat 32 (0x40300000 + g.toNat * 0x1000000 + a.toNat * 0x4000), none)
  | .loop g a e l x => some (BitVec.ofNat 32 (0x40400000 + g.toNat * 0x1000000 + a.toNat * 0x4000 + e.toNat * 0x400 + l.toNat * 0x1), x)
  | .mark g => some (BitVec.ofNat 32 (0x40500000 + g.toNat * 0x1000000), none)
  | .park g a b => some (BitVec.ofNat 32 (0x40600000 + g.toNat * 0x1000000 + a.toNat * 0x4000 + b.toNat * 0x100), none)
  | .exit g => some (BitVec.ofNat 32 (0x40700000 + g.toNat * 0x1000000), none)
  | .trap g c => some (BitVec.ofNat 32 (0x40800000 + g.toNat * 0x1000000 + c.toNat * 0x1), none)
  | .spool g n l => some (BitVec.ofNat 32 (0x40900000 + g.toNat * 0x1000000 + n.toNat * 0x10000 + l.toNat * 0x2000), none)
  | .spbrk g l => some (BitVec.ofNat 32 (0x40A00000 + g.toNat * 0x1000000 + l.toNat * 0x20000), none)
  | .eret g => some (BitVec.ofNat 32 (0x40B00000 + g.toNat * 0x1000000), none)
  | .ld8 g h d c x => some (BitVec.ofNat 32 (0x50000000 + g.toNat * 0x1000000 + h.toNat * 0x2000 + d.toNat * 0x80 + c.toNat * 0x2), x)
  | .ld16 g h d c x => some (BitVec.ofNat 32 (0x50080000 + g.toNat * 0x1000000 + h.toNat * 0x2000 + d.toNat * 0x80 + c.toNat * 0x2), x)
  | .ld32 g h d c x => some (BitVec.ofNat 32 (0x50100000 + g.toNat * 0x1000000 + h.toNat * 0x2000 + d.toNat * 0x80 + c.toNat * 0x2), x)
  | .ld64 g h d c x => some (BitVec.ofNat 32 (0x50180000 + g.toNat * 0x1000000 + h.toNat * 0x2000 + d.toNat * 0x80 + c.toNat * 0x2), x)
  | .ld8s g h d c x => some (BitVec.ofNat 32 (0x50200000 + g.toNat * 0x1000000 + h.toNat * 0x2000 + d.toNat * 0x80 + c.toNat * 0x2), x)
  | .ld16s g h d c x => some (BitVec.ofNat 32 (0x50280000 + g.toNat * 0x1000000 + h.toNat * 0x2000 + d.toNat * 0x80 + c.toNat * 0x2), x)
  | .ld32s g h d c x => some (BitVec.ofNat 32 (0x50300000 + g.toNat * 0x1000000 + h.toNat * 0x2000 + d.toNat * 0x80 + c.toNat * 0x2), x)
  | .st8 g h d c x => some (BitVec.ofNat 32 (0x50380000 + g.toNat * 0x1000000 + h.toNat * 0x2000 + d.toNat * 0x80 + c.toNat * 0x2), x)
  | .st16 g h d c x => some (BitVec.ofNat 32 (0x50400000 + g.toNat * 0x1000000 + h.toNat * 0x2000 + d.toNat * 0x80 + c.toNat * 0x2), x)
  | .st32 g h d c x => some (BitVec.ofNat 32 (0x50480000 + g.toNat * 0x1000000 + h.toNat * 0x2000 + d.toNat * 0x80 + c.toNat * 0x2), x)
  | .st64 g h d c x => some (BitVec.ofNat 32 (0x50500000 + g.toNat * 0x1000000 + h.toNat * 0x2000 + d.toNat * 0x80 + c.toNat * 0x2), x)
  | .ldv g h d c x => some (BitVec.ofNat 32 (0x50580000 + g.toNat * 0x1000000 + h.toNat * 0x2000 + d.toNat * 0x80 + c.toNat * 0x2), x)
  | .stv g h d c x => some (BitVec.ofNat 32 (0x50600000 + g.toNat * 0x1000000 + h.toNat * 0x2000 + d.toNat * 0x80 + c.toNat * 0x2), x)
  | .ldvx g h d c x => some (BitVec.ofNat 32 (0x50680000 + g.toNat * 0x1000000 + h.toNat * 0x2000 + d.toNat * 0x80 + c.toNat * 0x2), x)
  | .stvx g h d c x => some (BitVec.ofNat 32 (0x50700000 + g.toNat * 0x1000000 + h.toNat * 0x2000 + d.toNat * 0x80 + c.toNat * 0x2), x)
  | .ldt g h d c x => some (BitVec.ofNat 32 (0x50780000 + g.toNat * 0x1000000 + h.toNat * 0x2000 + d.toNat * 0x80 + c.toNat * 0x2), x)
  | .stt g h d c x => some (BitVec.ofNat 32 (0x50800000 + g.toNat * 0x1000000 + h.toNat * 0x2000 + d.toNat * 0x80 + c.toNat * 0x2), x)
  | .lds g h d c x => some (BitVec.ofNat 32 (0x50880000 + g.toNat * 0x1000000 + h.toNat * 0x2000 + d.toNat * 0x80 + c.toNat * 0x2), x)
  | .ldsv g h d c x => some (BitVec.ofNat 32 (0x50900000 + g.toNat * 0x1000000 + h.toNat * 0x2000 + d.toNat * 0x80 + c.toNat * 0x2), x)
  | .spld g r s => some (BitVec.ofNat 32 (0x60000000 + g.toNat * 0x1000000 + r.toNat * 0x8000 + s.toNat * 0x40), none)
  | .spst g r s => some (BitVec.ofNat 32 (0x60200000 + g.toNat * 0x1000000 + r.toNat * 0x8000 + s.toNat * 0x40), none)
  | .spldv g r s => some (BitVec.ofNat 32 (0x60400000 + g.toNat * 0x1000000 + r.toNat * 0x8000 + s.toNat * 0x40), none)
  | .spstv g r s => some (BitVec.ofNat 32 (0x60600000 + g.toNat * 0x1000000 + r.toNat * 0x8000 + s.toNat * 0x40), none)
  | .spldp g r s => some (BitVec.ofNat 32 (0x60800000 + g.toNat * 0x1000000 + r.toNat * 0x8000 + s.toNat * 0x40), none)
  | .spstp g r s => some (BitVec.ofNat 32 (0x60A00000 + g.toNat * 0x1000000 + r.toNat * 0x8000 + s.toNat * 0x40), none)
  | .vadd g d a b k => some (BitVec.ofNat 32 (0x70000000 + g.toNat * 0x1000000 + d.toNat * 0x2000 + a.toNat * 0x100 + b.toNat * 0x8 + k.toNat * 0x1), none)
  | .vsub g d a b k => some (BitVec.ofNat 32 (0x70040000 + g.toNat * 0x1000000 + d.toNat * 0x2000 + a.toNat * 0x100 + b.toNat * 0x8 + k.toNat * 0x1), none)
  | .vmul g d a b k => some (BitVec.ofNat 32 (0x70080000 + g.toNat * 0x1000000 + d.toNat * 0x2000 + a.toNat * 0x100 + b.toNat * 0x8 + k.toNat * 0x1), none)
  | .vand g d a b k => some (BitVec.ofNat 32 (0x700C0000 + g.toNat * 0x1000000 + d.toNat * 0x2000 + a.toNat * 0x100 + b.toNat * 0x8 + k.toNat * 0x1), none)
  | .vor g d a b k => some (BitVec.ofNat 32 (0x70100000 + g.toNat * 0x1000000 + d.toNat * 0x2000 + a.toNat * 0x100 + b.toNat * 0x8 + k.toNat * 0x1), none)
  | .vxor g d a b k => some (BitVec.ofNat 32 (0x70140000 + g.toNat * 0x1000000 + d.toNat * 0x2000 + a.toNat * 0x100 + b.toNat * 0x8 + k.toNat * 0x1), none)
  | .vshl g d a b k => some (BitVec.ofNat 32 (0x70180000 + g.toNat * 0x1000000 + d.toNat * 0x2000 + a.toNat * 0x100 + b.toNat * 0x8 + k.toNat * 0x1), none)
  | .vshr g d a b k => some (BitVec.ofNat 32 (0x701C0000 + g.toNat * 0x1000000 + d.toNat * 0x2000 + a.toNat * 0x100 + b.toNat * 0x8 + k.toNat * 0x1), none)
  | .vsra g d a b k => some (BitVec.ofNat 32 (0x70200000 + g.toNat * 0x1000000 + d.toNat * 0x2000 + a.toNat * 0x100 + b.toNat * 0x8 + k.toNat * 0x1), none)
  | .vmin g d a b k => some (BitVec.ofNat 32 (0x70240000 + g.toNat * 0x1000000 + d.toNat * 0x2000 + a.toNat * 0x100 + b.toNat * 0x8 + k.toNat * 0x1), none)
  | .vmax g d a b k => some (BitVec.ofNat 32 (0x70280000 + g.toNat * 0x1000000 + d.toNat * 0x2000 + a.toNat * 0x100 + b.toNat * 0x8 + k.toNat * 0x1), none)
  | .vminn g d a b k => some (BitVec.ofNat 32 (0x702C0000 + g.toNat * 0x1000000 + d.toNat * 0x2000 + a.toNat * 0x100 + b.toNat * 0x8 + k.toNat * 0x1), none)
  | .vmaxn g d a b k => some (BitVec.ofNat 32 (0x70300000 + g.toNat * 0x1000000 + d.toNat * 0x2000 + a.toNat * 0x100 + b.toNat * 0x8 + k.toNat * 0x1), none)
  | .vsel g d a b k => some (BitVec.ofNat 32 (0x70340000 + g.toNat * 0x1000000 + d.toNat * 0x2000 + a.toNat * 0x100 + b.toNat * 0x8 + k.toNat * 0x1), none)
  | .vcmpeq g d a b k => some (BitVec.ofNat 32 (0x70380000 + g.toNat * 0x1000000 + d.toNat * 0x2000 + a.toNat * 0x100 + b.toNat * 0x8 + k.toNat * 0x1), none)
  | .vcmplt g d a b k => some (BitVec.ofNat 32 (0x703C0000 + g.toNat * 0x1000000 + d.toNat * 0x2000 + a.toNat * 0x100 + b.toNat * 0x8 + k.toNat * 0x1), none)
  | .vcmple g d a b k => some (BitVec.ofNat 32 (0x70400000 + g.toNat * 0x1000000 + d.toNat * 0x2000 + a.toNat * 0x100 + b.toNat * 0x8 + k.toNat * 0x1), none)
  | .vcmpltn g d a b k => some (BitVec.ofNat 32 (0x70440000 + g.toNat * 0x1000000 + d.toNat * 0x2000 + a.toNat * 0x100 + b.toNat * 0x8 + k.toNat * 0x1), none)
  | .viota g d k => some (BitVec.ofNat 32 (0x70480000 + g.toNat * 0x1000000 + d.toNat * 0x2000 + k.toNat * 0x1), none)
  | .vbcast g d x t k => some (BitVec.ofNat 32 (0x704C0000 + g.toNat * 0x1000000 + d.toNat * 0x2000 + x.toNat * 0x80 + t.toNat * 0x8 + k.toNat * 0x1), none)
  | .vext g d a b => some (BitVec.ofNat 32 (0x70500000 + g.toNat * 0x1000000 + d.toNat * 0x1000 + a.toNat * 0x80 + b.toNat * 0x2), none)
  | .vins g d a b => some (BitVec.ofNat 32 (0x70540000 + g.toNat * 0x1000000 + d.toNat * 0x2000 + a.toNat * 0x80 + b.toNat * 0x2), none)
  | .vpopc g d k => some (BitVec.ofNat 32 (0x70580000 + g.toNat * 0x1000000 + d.toNat * 0x1000 + k.toNat * 0x1), none)
  | .vfirst g d k => some (BitVec.ofNat 32 (0x705C0000 + g.toNat * 0x1000000 + d.toNat * 0x1000 + k.toNat * 0x1), none)
  | .vpack g d a k => some (BitVec.ofNat 32 (0x70600000 + g.toNat * 0x1000000 + d.toNat * 0x2000 + a.toNat * 0x100 + k.toNat * 0x1), none)
  | .kand g d a b => some (BitVec.ofNat 32 (0x70640000 + g.toNat * 0x1000000 + d.toNat * 0x2000 + a.toNat * 0x100 + b.toNat * 0x8), none)
  | .kor g d a b => some (BitVec.ofNat 32 (0x70680000 + g.toNat * 0x1000000 + d.toNat * 0x2000 + a.toNat * 0x100 + b.toNat * 0x8), none)
  | .kxor g d a b => some (BitVec.ofNat 32 (0x706C0000 + g.toNat * 0x1000000 + d.toNat * 0x2000 + a.toNat * 0x100 + b.toNat * 0x8), none)
  | .kmov g d a => some (BitVec.ofNat 32 (0x70700000 + g.toNat * 0x1000000 + d.toNat * 0x2000 + a.toNat * 0x100), none)
  | .vmov g d a b k => some (BitVec.ofNat 32 (0x70740000 + g.toNat * 0x1000000 + d.toNat * 0x2000 + a.toNat * 0x100 + b.toNat * 0x8 + k.toNat * 0x1), none)
  | .vtag g d t => some (BitVec.ofNat 32 (0x70780000 + g.toNat * 0x1000000 + d.toNat * 0x2000 + t.toNat * 0x8), none)
  | .vfmt g d a => some (BitVec.ofNat 32 (0x707C0000 + g.toNat * 0x1000000 + d.toNat * 0x1000 + a.toNat * 0x80), none)
  | .mload g s t => some (BitVec.ofNat 32 (0x80000000 + g.toNat * 0x1000000 + s.toNat * 0x8000 + t.toNat * 0x80), none)
  | .mloadg g s t => some (BitVec.ofNat 32 (0x80100000 + g.toNat * 0x1000000 + s.toNat * 0x8000 + t.toNat * 0x80), none)
  | .mpush g a s r h t => some (BitVec.ofNat 32 (0x80200000 + g.toNat * 0x1000000 + a.toNat * 0x40000 + s.toNat * 0x8000 + r.toNat * 0x200 + h.toNat * 0x100 + t.toNat * 0x80), none)
  | .mpushl g a r h t => some (BitVec.ofNat 32 (0x80300000 + g.toNat * 0x1000000 + a.toNat * 0x40000 + r.toNat * 0x200 + h.toNat * 0x100 + t.toNat * 0x80), none)
  | .mpushg g a s r h t => some (BitVec.ofNat 32 (0x80400000 + g.toNat * 0x1000000 + a.toNat * 0x40000 + s.toNat * 0x8000 + r.toNat * 0x200 + h.toNat * 0x100 + t.toNat * 0x80), none)
  | .mzero g a f => some (BitVec.ofNat 32 (0x80500000 + g.toNat * 0x1000000 + a.toNat * 0x40000 + f.toNat * 0x1), none)
  | .minit g a s => some (BitVec.ofNat 32 (0x80600000 + g.toNat * 0x1000000 + a.toNat * 0x40000 + s.toNat * 0x8000), none)
  | .mshift g a k => some (BitVec.ofNat 32 (0x80700000 + g.toNat * 0x1000000 + a.toNat * 0x40000 + k.toNat * 0x1), none)
  | .mswap g a => some (BitVec.ofNat 32 (0x80800000 + g.toNat * 0x1000000 + a.toNat * 0x40000), none)
  | .mdrain g a r m => some (BitVec.ofNat 32 (0x80900000 + g.toNat * 0x1000000 + a.toNat * 0x40000 + r.toNat * 0x200 + m.toNat * 0x1), none)
  | .gset g t x => some (BitVec.ofNat 32 (0x90000000 + g.toNat * 0x1000000 + t.toNat * 0x10000 + x.toNat * 0x400), none)
  | .gidx g t v k e => some (BitVec.ofNat 32 (0x90080000 + g.toNat * 0x1000000 + t.toNat * 0x10000 + v.toNat * 0x400 + k.toNat * 0x200 + e.toNat * 0x1), none)
  | .gdiag g t v e => some (BitVec.ofNat 32 (0x90100000 + g.toNat * 0x1000000 + t.toNat * 0x10000 + v.toNat * 0x400 + e.toNat * 0x1), none)
  | .gband g t x k v => some (BitVec.ofNat 32 (0x90180000 + g.toNat * 0x1000000 + t.toNat * 0x10000 + x.toNat * 0x400 + k.toNat * 0x200 + v.toNat * 0x10), none)
  | .tzero g t f => some (BitVec.ofNat 32 (0x90200000 + g.toNat * 0x1000000 + t.toNat * 0x10000 + f.toNat * 0x1), none)
  | .tmove g t a => some (BitVec.ofNat 32 (0x90280000 + g.toNat * 0x1000000 + t.toNat * 0x10000 + a.toNat * 0x400), none)
  | .tfill g t x f => some (BitVec.ofNat 32 (0x90300000 + g.toNat * 0x1000000 + t.toNat * 0x10000 + x.toNat * 0x400 + f.toNat * 0x1), none)
  | .tsetv g t v i => some (BitVec.ofNat 32 (0x90380000 + g.toNat * 0x1000000 + t.toNat * 0x10000 + v.toNat * 0x400 + i.toNat * 0x1), none)
  | .tgetv g t v i => some (BitVec.ofNat 32 (0x90400000 + g.toNat * 0x1000000 + t.toNat * 0x10000 + v.toNat * 0x400 + i.toNat * 0x1), none)
  | .ttag g t f => some (BitVec.ofNat 32 (0x90480000 + g.toNat * 0x1000000 + t.toNat * 0x10000 + f.toNat * 0x1), none)
  | .tfmt g t x => some (BitVec.ofNat 32 (0x90500000 + g.toNat * 0x1000000 + t.toNat * 0x10000 + x.toNat * 0x400), none)
  | .xpand g d s f i => some (BitVec.ofNat 32 (0xA0000000 + g.toNat * 0x1000000 + d.toNat * 0x8000 + s.toNat * 0x400 + f.toNat * 0x40 + i.toNat * 0x1), none)
  | .xpose g d s => some (BitVec.ofNat 32 (0xA0100000 + g.toNat * 0x1000000 + d.toNat * 0x8000 + s.toNat * 0x400), none)
  | .xconv g d s f r x => some (BitVec.ofNat 32 (0xA0200000 + g.toNat * 0x1000000 + d.toNat * 0x8000 + s.toNat * 0x400 + f.toNat * 0x40 + r.toNat * 0x8 + x.toNat * 0x1), none)
  | .vconv g d s f r k => some (BitVec.ofNat 32 (0xA0300000 + g.toNat * 0x1000000 + d.toNat * 0x8000 + s.toNat * 0x400 + f.toNat * 0x40 + r.toNat * 0x8 + k.toNat * 0x1), none)
  | .xperm g d s b k => some (BitVec.ofNat 32 (0xA0400000 + g.toNat * 0x1000000 + d.toNat * 0x8000 + s.toNat * 0x400 + b.toNat * 0x20 + k.toNat * 0x1), none)
  | .xpack g d s i => some (BitVec.ofNat 32 (0xA0500000 + g.toNat * 0x1000000 + d.toNat * 0x8000 + s.toNat * 0x400 + i.toNat * 0x1), none)
  | .dfcfg g n f r z k => some (BitVec.ofNat 32 (0xB0000000 + g.toNat * 0x1000000 + n.toNat * 0x10000 + f.toNat * 0x1000 + r.toNat * 0x200 + z.toNat * 0x100 + k.toNat * 0x1), none)
  | .dfdstNone g => some (BitVec.ofNat 32 (0xB0100000 + g.toNat * 0x1000000), none)
  | .dfdstT g n => some (BitVec.ofNat 32 (0xB0140000 + g.toNat * 0x1000000 + n.toNat * 0x8000), none)
  | .dfdstH g h c => some (BitVec.ofNat 32 (0xB0180000 + g.toNat * 0x1000000 + h.toNat * 0x1000 + c.toNat * 0x40), none)
  | .dfscale g x b s v => some (BitVec.ofNat 32 (0xB0200000 + g.toNat * 0x1000000 + x.toNat * 0x80000 + b.toNat * 0x40000 + s.toNat * 0x2000 + v.toNat * 0x100), none)
  | .dfmask g h x q => some (BitVec.ofNat 32 (0xB0300000 + g.toNat * 0x1000000 + h.toNat * 0x4000 + x.toNat * 0x100 + q.toNat * 0x8), none)
  | .dfrow g m s x y => some (BitVec.ofNat 32 (0xB0400000 + g.toNat * 0x1000000 + m.toNat * 0x80000 + s.toNat * 0x40000 + x.toNat * 0x2000 + y.toNat * 0x100), none)
  | .dfmass g h x n => some (BitVec.ofNat 32 (0xB0500000 + g.toNat * 0x1000000 + h.toNat * 0x4000 + x.toNat * 0x100 + n.toNat * 0x40), none)
  | .dfv g d a b f => some (BitVec.ofNat 32 (0xB0600000 + g.toNat * 0x1000000 + d.toNat * 0x8000 + a.toNat * 0x400 + b.toNat * 0x20 + f.toNat * 0x1), none)
  | .dfstat g d w => some (BitVec.ofNat 32 (0xB0700000 + g.toNat * 0x1000000 + d.toNat * 0x4000 + w.toNat * 0x800), none)
  | .copy g q r s k m w => some (BitVec.ofNat 32 (0xC0000000 + g.toNat * 0x1000000 + q.toNat * 0x20000 + r.toNat * 0x10000 + s.toNat * 0x2000 + k.toNat * 0x80 + m.toNat * 0x2 + w.toNat * 0x1), none)
  | .copym g q r s k m w => some (BitVec.ofNat 32 (0xC0040000 + g.toNat * 0x1000000 + q.toNat * 0x20000 + r.toNat * 0x10000 + s.toNat * 0x2000 + k.toNat * 0x80 + m.toNat * 0x2 + w.toNat * 0x1), none)
  | .cexp g q r s k m w => some (BitVec.ofNat 32 (0xC0080000 + g.toNat * 0x1000000 + q.toNat * 0x20000 + r.toNat * 0x10000 + s.toNat * 0x2000 + k.toNat * 0x80 + m.toNat * 0x2 + w.toNat * 0x1), none)
  | .gath g v => some (BitVec.ofNat 32 (0xC00C0000 + g.toNat * 0x1000000 + v.toNat * 0x1), none)
  | .pool g q r s k m w => some (BitVec.ofNat 32 (0xC0100000 + g.toNat * 0x1000000 + q.toNat * 0x20000 + r.toNat * 0x10000 + s.toNat * 0x2000 + k.toNat * 0x80 + m.toNat * 0x2 + w.toNat * 0x1), none)
  | .sfork g q r s k m w => some (BitVec.ofNat 32 (0xC0140000 + g.toNat * 0x1000000 + q.toNat * 0x20000 + r.toNat * 0x10000 + s.toNat * 0x2000 + k.toNat * 0x80 + m.toNat * 0x2 + w.toNat * 0x1), none)
  | .sretire g q r s k m w => some (BitVec.ofNat 32 (0xC0180000 + g.toNat * 0x1000000 + q.toNat * 0x20000 + r.toNat * 0x10000 + s.toNat * 0x2000 + k.toNat * 0x80 + m.toNat * 0x2 + w.toNat * 0x1), none)
  | .stld g q r s k m w => some (BitVec.ofNat 32 (0xC01C0000 + g.toNat * 0x1000000 + q.toNat * 0x20000 + r.toNat * 0x10000 + s.toNat * 0x2000 + k.toNat * 0x80 + m.toNat * 0x2 + w.toNat * 0x1), none)
  | .stinv g q r s k m w => some (BitVec.ofNat 32 (0xC0200000 + g.toNat * 0x1000000 + q.toNat * 0x20000 + r.toNat * 0x10000 + s.toNat * 0x2000 + k.toNat * 0x80 + m.toNat * 0x2 + w.toNat * 0x1), none)
  | .ballast g q r s k m w => some (BitVec.ofNat 32 (0xC0240000 + g.toNat * 0x1000000 + q.toNat * 0x20000 + r.toNat * 0x10000 + s.toNat * 0x2000 + k.toNat * 0x80 + m.toNat * 0x2 + w.toNat * 0x1), none)
  | .fput g q r s k m w => some (BitVec.ofNat 32 (0xC0280000 + g.toNat * 0x1000000 + q.toNat * 0x20000 + r.toNat * 0x10000 + s.toNat * 0x2000 + k.toNat * 0x80 + m.toNat * 0x2 + w.toNat * 0x1), none)
  | .fget g q r s k m w => some (BitVec.ofNat 32 (0xC02C0000 + g.toNat * 0x1000000 + q.toNat * 0x20000 + r.toNat * 0x10000 + s.toNat * 0x2000 + k.toNat * 0x80 + m.toNat * 0x2 + w.toNat * 0x1), none)
  | .fred g q r s k m w => some (BitVec.ofNat 32 (0xC0300000 + g.toNat * 0x1000000 + q.toNat * 0x20000 + r.toNat * 0x10000 + s.toNat * 0x2000 + k.toNat * 0x80 + m.toNat * 0x2 + w.toNat * 0x1), none)
  | .launch g r s p => some (BitVec.ofNat 32 (0xC0340000 + g.toNat * 0x1000000 + r.toNat * 0x10000 + s.toNat * 0x2000 + p.toNat * 0x1), none)
  | .offload g q r s k h => some (BitVec.ofNat 32 (0xC0380000 + g.toNat * 0x1000000 + q.toNat * 0x20000 + r.toNat * 0x10000 + s.toNat * 0x2000 + k.toNat * 0x80 + h.toNat * 0x1), none)
  | .recall g q r s k h => some (BitVec.ofNat 32 (0xC03C0000 + g.toNat * 0x1000000 + q.toNat * 0x20000 + r.toNat * 0x10000 + s.toNat * 0x2000 + k.toNat * 0x80 + h.toNat * 0x1), none)
  | .cadd g o s a b => some (BitVec.ofNat 32 (0xD0000000 + g.toNat * 0x1000000 + o.toNat * 0x20000 + s.toNat * 0x4000 + a.toNat * 0x100 + b.toNat * 0x4), none)
  | .cwait g o s a b => some (BitVec.ofNat 32 (0xD0080000 + g.toNat * 0x1000000 + o.toNat * 0x20000 + s.toNat * 0x4000 + a.toNat * 0x100 + b.toNat * 0x4), none)
  | .cread g o s a b => some (BitVec.ofNat 32 (0xD0100000 + g.toNat * 0x1000000 + o.toNat * 0x20000 + s.toNat * 0x4000 + a.toNat * 0x100 + b.toNat * 0x4), none)
  | .craise g o s a b => some (BitVec.ofNat 32 (0xD0180000 + g.toNat * 0x1000000 + o.toNat * 0x20000 + s.toNat * 0x4000 + a.toNat * 0x100 + b.toNat * 0x4), none)
  | .aadd g d a b => some (BitVec.ofNat 32 (0xD0200000 + g.toNat * 0x1000000 + d.toNat * 0x2000 + a.toNat * 0x80 + b.toNat * 0x2), none)
  | .amin g d a b => some (BitVec.ofNat 32 (0xD0280000 + g.toNat * 0x1000000 + d.toNat * 0x2000 + a.toNat * 0x80 + b.toNat * 0x2), none)
  | .amax g d a b => some (BitVec.ofNat 32 (0xD0300000 + g.toNat * 0x1000000 + d.toNat * 0x2000 + a.toNat * 0x80 + b.toNat * 0x2), none)
  | .axchg g d a b => some (BitVec.ofNat 32 (0xD0380000 + g.toNat * 0x1000000 + d.toNat * 0x2000 + a.toNat * 0x80 + b.toNat * 0x2), none)
  | .acas g d a b => some (BitVec.ofNat 32 (0xD0400000 + g.toNat * 0x1000000 + d.toNat * 0x2000 + a.toNat * 0x80 + b.toNat * 0x2), none)
  | .aand g d a b => some (BitVec.ofNat 32 (0xD0480000 + g.toNat * 0x1000000 + d.toNat * 0x2000 + a.toNat * 0x80 + b.toNat * 0x2), none)
  | .aor g d a b => some (BitVec.ofNat 32 (0xD0500000 + g.toNat * 0x1000000 + d.toNat * 0x2000 + a.toNat * 0x80 + b.toNat * 0x2), none)
  | .sadd g d a b => some (BitVec.ofNat 32 (0xD0580000 + g.toNat * 0x1000000 + d.toNat * 0x2000 + a.toNat * 0x80 + b.toNat * 0x2), none)
  | .fbegin g f k s => some (BitVec.ofNat 32 (0xD0600000 + g.toNat * 0x1000000 + f.toNat * 0x10000 + k.toNat * 0x1000 + s.toNat * 0x200), none)
  | .fwait g f => some (BitVec.ofNat 32 (0xD0680000 + g.toNat * 0x1000000 + f.toNat * 0x10000), none)
  | .join g o s a => some (BitVec.ofNat 32 (0xD0700000 + g.toNat * 0x1000000 + o.toNat * 0x20000 + s.toNat * 0x4000 + a.toNat * 0x100), none)
  | .leave g o s a => some (BitVec.ofNat 32 (0xD0780000 + g.toNat * 0x1000000 + o.toNat * 0x20000 + s.toNat * 0x4000 + a.toNat * 0x100), none)
  | .tbar g o s a b => some (BitVec.ofNat 32 (0xD0800000 + g.toNat * 0x1000000 + o.toNat * 0x20000 + s.toNat * 0x4000 + a.toNat * 0x100 + b.toNat * 0x4), none)
  | .tarrive g o s a b => some (BitVec.ofNat 32 (0xD0880000 + g.toNat * 0x1000000 + o.toNat * 0x20000 + s.toNat * 0x4000 + a.toNat * 0x100 + b.toNat * 0x4), none)
  | .stepadv g b => some (BitVec.ofNat 32 (0xD094C000 + g.toNat * 0x1000000 + b.toNat * 0x4), none)
  | .srsv g d a b => some (BitVec.ofNat 32 (0xD0980000 + g.toNat * 0x1000000 + d.toNat * 0x2000 + a.toNat * 0x80 + b.toNat * 0x2), none)
  | .scmt g a b => some (BitVec.ofNat 32 (0xD0A00000 + g.toNat * 0x1000000 + a.toNat * 0x80 + b.toNat * 0x2), none)
  | .spin g d a b => some (BitVec.ofNat 32 (0xD0A80000 + g.toNat * 0x1000000 + d.toNat * 0x2000 + a.toNat * 0x80 + b.toNat * 0x2), none)
  | .sunpin g d a b => some (BitVec.ofNat 32 (0xD0B00000 + g.toNat * 0x1000000 + d.toNat * 0x2000 + a.toNat * 0x80 + b.toNat * 0x2), none)
  | .sqsnap g d a n => some (BitVec.ofNat 32 (0xD0B80000 + g.toNat * 0x1000000 + d.toNat * 0x2000 + a.toNat * 0x80 + n.toNat * 0x2), none)
  | .movs g d n => some (BitVec.ofNat 32 (0xE0000000 + g.toNat * 0x1000000 + d.toNat * 0x4000 + n.toNat * 0x10), none)
  | .movsw g a n => some (BitVec.ofNat 32 (0xE0100000 + g.toNat * 0x1000000 + a.toNat * 0x4000 + n.toNat * 0x10), none)
  | .setpri g a => some (BitVec.ofNat 32 (0xE0200000 + g.toNat * 0x1000000 + a.toNat * 0x4000), none)
  | .noisectlLive g => some (BitVec.ofNat 32 (0xE0300000 + g.toNat * 0x1000000), none)
  | .noisectlLog g a => some (BitVec.ofNat 32 (0xE0340000 + g.toNat * 0x1000000 + a.toNat * 0x1000), none)
  | .noisectlReplay g a b => some (BitVec.ofNat 32 (0xE0380000 + g.toNat * 0x1000000 + a.toNat * 0x1000 + b.toNat * 0x40), none)
  | .chkmode g o => some (BitVec.ofNat 32 (0xE0400000 + g.toNat * 0x1000000 + o.toNat * 0x80000), none)
  | .traprd g d n => some (BitVec.ofNat 32 (0xE0500000 + g.toNat * 0x1000000 + d.toNat * 0x4000 + n.toNat * 0x800), none)
  | .idle g a => some (BitVec.ofNat 32 (0xE0600000 + g.toNat * 0x1000000 + a.toNat * 0x4000), none)
  | .lend c b a => some (BitVec.ofNat 32 (0xF0000000 + c.toNat * 0x10000 + b.toNat * 0x100 + a.toNat * 0x1), none)
  | .rep n z y x => some (BitVec.ofNat 32 (0xF1000000 + n.toNat * 0x10000 + z.toNat * 0x4000 + y.toNat * 0x1000 + x.toNat * 0x400), none)
  | .resultLanding _ => none
  | .drainBeat _ => none
  | .massAddAnswer _ => none
  | .homeOperationPerformed _ => none
  | .counterWaitSatisfied _ => none
  | .teamBarrierRelease _ => none
  | .fencePerformed _ => none
  | .idleExpiry _ => none
  | .watchConditionMet _ => none
  | .strandPlacement _ => none
  | .recordCreationRetry _ => none
  | .preemption _ => none
  | .gangQuantumExpiry _ => none
  | .agingPeriodExpiry _ _ => none
  | .balancingTick _ => none
  | .triggerFire _ _ => none
  | .engineNodeFire _ _ => none
  | .pendingEntryFreed _ => none
  | .launchCompletion _ => none
  | .submissionConsume _ => none
  | .copyCompletion _ => none
  | .copymCompletion _ => none
  | .cexpCompletion _ => none
  | .poolCompletion _ => none
  | .sforkCompletion _ => none
  | .sretirePass _ => none
  | .stldCompletion _ => none
  | .stinvCompletion _ => none
  | .ballastPass _ => none
  | .fputCompletion _ => none
  | .fgetCompletion _ => none
  | .fredContribution _ _ _ _ => none
  | .fredAcknowledge _ => none
  | .reductionRoundTimeout _ => none
  | .reductionWindowAck _ => none
  | .offloadCompletion _ => none
  | .recallCompletion _ => none
  | .engineFailure _ _ => none
  | .stampSweep _ => none
  | .saffronBlock _ _ => none
  | .iestUpdate _ _ => none
  | .pllRelockDone _ => none
  | .generationPurgeDone _ => none
  | .eccWriteback _ => none
  | .bridleXoff _ _ => none
  | .bridleXon _ _ => none
  | .bridleReplayRequest _ _ => none
  | .linkTrainingDone _ => none
  | .linkTrainingTimeout _ => none
  | .portsemWrite _ _ => none
  | .islandWrite _ _ _ => none
  | .drawWrite _ _ => none
  | .w2baseWrite _ _ => none
  | .bar2Access _ _ _ => none
  | .qgoRegister _ => none
  | .qgoRetire _ => none
  | .qgoInvalid _ => none
  | .qappReserve _ _ => none
  | .qappCommit _ _ => none
  | .wgoArm _ => none
  | .watchStoreArm _ => none
  | .watchFire _ => none
  | .scmdSeal _ => none
  | .scmdVerify _ => none
  | .scmdAttest _ => none
  | .scmdLoadState _ => none
  | .securityCommandDone => none
  | .fwcmdFetchVerify _ => none
  | .fwcmdWriteFlash _ => none
  | .fwCommandDone => none
  | .fselfWrite _ _ => none
  | .fretrainWrite _ _ => none
  | .fredWindowSet _ _ _ => none
  | .fredWindowClear _ _ _ => none
  | .migrQuiesce _ _ => none
  | .migrRelease _ _ => none
  | .quiesceDone _ => none
  | .registerWrite _ _ _ => none
  | .portLinkDown _ => none
  | .hotReset => none
  | .keelPowerOn _ _ => none
  | .fieldPowerGood _ => none
  | .fieldPowerGoodTimeout _ => none
  | .fieldPllLock _ => none
  | .fieldPllLockTimeout _ => none
  | .fieldBistDone _ _ => none
  | .fieldBistTimeout _ => none
  | .crossingTrained _ _ => none
  | .crossingTrainTimeout _ _ => none
  | .crossingTrainingLoss _ _ => none
  | .illegalBundle _ _ => none
  | .fabricPortRequest _ _ _ => none
  | .hdmAccess _ _ _ => none
  | .cxlCacheSnoop _ => none

end Sys2Proof
end

