-- ==== Sys2Proof/Machine/Matrix.lean ====
section
/-!
DEFINITION. The matrix beat (R212 to R219): the stationary latch, pushes, working-bank set-up, the swap and the drain's issue.
-/

namespace Sys2Proof.Machine

/-- The moving operand of a push (R215): a T register, the gather latch or a pattern. -/
inductive Moving where
  | tile (n : Nat)
  | gather
  | pattern (n : Nat)
  deriving DecidableEq, Repr

/-- TRAPARG of the latched operand (R212). -/
def StatLatch.code : StatLatch → Nat
  | .empty => 0x228
  | .tile _ n => 0x220 + n
  | .gen _ _ n _ => 0x100 + n

/-- The tag that A carries, which gives a push its shape (R86), none where nothing gives one: a pattern takes the latched tile's, its descriptor
checked or not (R87). -/
def movingShape (st : Strand) (m : Moving) : Option Nat :=
  match m with
  | .tile n => some (st.t[n]?.getD zeroT).tag.toNat
  | .gather => st.glatch.map fun l => l.tag.toNat
  | .pattern _ => match st.slatch with
    | .tile t _ => some t.tag.toNat
    | _ => none

/-- The tag of A and the TRAPARG that names it, or the trap of a source that holds nothing or a bad descriptor (R215). -/
def movingTag (st : Strand) (m : Moving) : Except Trap (Nat × Nat) :=
  match m with
  | .tile n => .ok ((st.t[n]?.getD zeroT).tag.toNat, 0x220 + n)
  | .gather => match st.glatch with
    | none => .error (formatTrap 0x229)
    | some l => .ok (l.tag.toNat, 0x229)
  | .pattern n =>
    match st.slatch with
    | .tile t k => if patternOk (st.g[n]?.getD 0) then .ok (t.tag.toNat, 0x220 + k) else .error (formatTrap (0x100 + n))
    | _ => .error (formatTrap (0x100 + n))

/-- The V register that a descriptor binds, as the strand holds it now (R88). -/
def Strand.bound (st : Strand) (d : Word) : VReg := st.regs.v[patVreg d]?.getD zeroV

/-- Element (i, k) of A and the flags of generating it. -/
def movingElt (st : Strand) (m : Moving) (partner i k : Nat) : Elt × Flags :=
  match m with
  | .tile n => (some (tileVal (st.t[n]?.getD zeroT) i k), 0)
  | .gather => match st.glatch with
    | none => (none, 0)
    | some l => (gatherElt l i k, 0)
  | .pattern n => let d := st.g[n]?.getD 0; generate partner d (st.bound d) i k

/-- The checks of a push in the order of R215: the tags of A and B. r, h and t are its row and half fields. -/
def pushChecks (st : Strand) (a : Nat) (m : Moving) (r : Nat) (half : Bool) : Except Trap Nat :=
  match st.slatch with
  | .empty => .error (formatTrap 0x228)
  | l =>
    match movingTag st m with
    | .error t => .error t
    | .ok (ta, acode) =>
      let tb := match l with | .tile t _ => t.tag.toNat | _ => ta
      if !beatTag ta then .error (formatTrap acode)
      else if !(beatTag tb && (ta == tb || (isSq ta && isSq tb))) then .error (formatTrap l.code)
      else if 0 < st.regs.rep.getD 0 ∧ beatCount ta ≠ st.regs.repRows then
        .error (formatTrap (match m with | .pattern n => 0x100 + n | _ => acode))
      else if (st.aw[a]?.getD zeroBank).tag ≠ (if ta = 1 then 3 else 7) then .error (formatTrap (0x230 + a))
      else if r % beatCount ta ≠ 0 ∨ half ≠ (ta == 5 || ta == 6) then .error (illegalTrap 5)
      else
        let latched := match l with | .gen d v _ _ => boundTagOk d v.tag (some ta) | _ => true
        let moving := match m with | .pattern n => (let d := st.g[n]?.getD 0; boundTagOk d (st.bound d).tag (some tb)) | _ => true
        let vreg := match m with | .pattern n => patVreg (st.g[n]?.getD 0) | _ => 0
        if !moving then .error (formatTrap (0x210 + vreg))
        else if !latched then .error (formatTrap l.code)
        else .ok ta

/-- One beat (R86, R215): rows r to r + h - 1 of A against the latch, over the k range, landing at +6 with its flags. -/
def pushBeat (a : Nat) (m : Moving) (r : Nat) (half upper : Bool) (st : Strand) : Except Trap Strand :=
  match pushChecks st a m r half with
  | .error t => .error t
  | .ok ta =>
    let tb := match st.slatch with | .tile t _ => t.tag.toNat | _ => ta
    let ks := if half then (List.range 32).map (fun k => k + if upper then 32 else 0) else List.range 64
    let as := (List.range (beatCount ta)).map fun n => ks.map fun k => movingElt st m tb (r + n) k
    let used : Nat → Bool := fun n => as.any fun row => ((row[n]?.getD (none, 0)).1).isSome
    let bs := (List.range 64).map fun j => (ks.zip (List.range ks.length)).map fun (k, n) =>
      if used n then latchElt st.slatch ta k j else (none, 0)
    let fa := joinFlags (as.map fun row => joinFlags (row.map (·.2)))
    let fb := joinFlags (bs.map fun col => joinFlags (col.map (·.2)))
    .ok (st.land 6 (.beat a (ta == 1) r (as.map fun row => row.map (·.1)) (bs.map fun col => col.map (·.1)) (fa ||| fb)))

/-- MLOAD (R214): the T register, or its exact transpose, lands in the latch at +3. -/
def execMload (g : BitVec 4) (t : BitVec 3) (tr : BitVec 1) (s : State) : Out :=
  strandSlot g (fun st =>
    let r := st.tr t
    st.land 3 (.slatch (.tile (if tr = 1 then tileTranspose r else r) t.toNat))) s

/-- MLOADG (R214): the descriptor and its bound register land in the latch at +3; a failed check leaves the latch. -/
def execMloadg (g : BitVec 4) (n : BitVec 3) (tr : BitVec 1) (s : State) : Out :=
  checkedSlot g (fun st =>
    let d := st.gr n
    let v := st.bound d
    if !patternOk d then .error (formatTrap (0x100 + n.toNat))
    else if !boundTagOk d v.tag none then .error (formatTrap (0x210 + patVreg d))
    else .ok (st.land 3 (.slatch (.gen d (if patBound d then v else zeroV) n.toNat (tr == 1))))) s

/-- The slot of a push: a mark, then the beat (R212). -/
def pushSlot (g : BitVec 4) (a : BitVec 2) (m : Moving) (r : BitVec 6) (h t : BitVec 1) (s : State) : Out :=
  markSlot g (fun st s => match pushBeat a.toNat m r.toNat (h == 1) (t == 1) st with
    | .ok st => .ok (s.setStrand st)
    | .error e => .error e) s

/-- MPUSH (R215). -/
def execMpush (g : BitVec 4) (a : BitVec 2) (n : BitVec 3) (r : BitVec 6) (h t : BitVec 1) (s : State) : Out :=
  pushSlot g a (.tile n.toNat) r h t s
/-- MPUSHL (R215). -/
def execMpushl (g : BitVec 4) (a : BitVec 2) (r : BitVec 6) (h t : BitVec 1) (s : State) : Out := pushSlot g a .gather r h t s
/-- MPUSHG (R215). -/
def execMpushg (g : BitVec 4) (a : BitVec 2) (n : BitVec 3) (r : BitVec 6) (h t : BitVec 1) (s : State) : Out :=
  pushSlot g a (.pattern n.toNat) r h t s

/-- MZERO (R216). -/
def execMzero (g : BitVec 4) (a : BitVec 2) (f : BitVec 4) (s : State) : Out :=
  markSlot g (fun st s => .ok (s.setStrand (st.land 1 (.mzero a.toNat f)))) s

/-- A T register's elements as an accumulator bank (R90, R216), none for a tag that MINIT does not admit. -/
def bankOfTile (r : TReg) : Option Bank :=
  let t := r.tag.toNat
  if t = 1 ∨ t = 2 then some ⟨3, Vector.ofFn fun n : Fin 4096 => BitVec.ofInt 32 (signedOf (8 * elemBytes t) (tileBits r (n.val / 64) (n.val % 64)))⟩
  else if t = 5 ∨ t = 6 ∨ isSq t then some ⟨7, Vector.ofFn fun n : Fin 4096 => BitVec.ofNat 32 (rne32 (tileVal r (n.val / 64) (n.val % 64))).1⟩
  else none

/-- MINIT (R216). -/
def execMinit (g : BitVec 4) (a : BitVec 2) (n : BitVec 3) (s : State) : Out :=
  markSlot g (fun st s => match bankOfTile (st.tr n) with
    | some b => .ok (s.setStrand (st.land 1 (.minit a.toNat b)))
    | none => .error (formatTrap (0x220 + n.toNat))) s

/-- MSHIFT (R216): the bank as it stands at +2. -/
def execMshift (g : BitVec 4) (a : BitVec 2) (k : BitVec 7) (s : State) : Out :=
  markSlot g (fun st s =>
    let t := (st.work a).tag
    if t ≠ 7 ∧ t ≠ 3 then .error (formatTrap (0x230 + a.toNat))
    else .ok (s.setStrand (st.land 2 (.mshift a.toNat (signedOf 7 k.toNat))))) s

/-- MSWAP (R217): the seat waits until nothing is in flight on the working bank and no drain beat of the visible one is left, beside what another
slot of its bundle waits for. -/
def execMswap (g : BitVec 4) (a : BitVec 2) (s : State) : Out :=
  markSlot g (fun st s => .ok (s.setStrand { st with swap := some a.toNat })) s

/-- The noise words that a drain takes at its issue (R76, R81, notes/assumptions/10.md), a mark in LOG and REPLAY mode. -/
def drainNoise (s : State) (n : Nat) : Except Trap (List (BitVec 16) × State) :=
  if n = 0 then .ok ([], s)
  else match s.drawNoise n with
    | .error t => .error t
    | .ok (ws, s) => match s.noiseMark with
      | .error t => .error t
      | .ok s => .ok (ws, s)

/-- What keeps a bundle from a mass drain of n noise words, by SQLEN as it stands at its issue: a disabled source (R79), a log that refuses them
(R82), a replay that lacks them (R83). Its beats draw them (notes/assumptions/10.md). -/
def massRefused (s : State) (n : Nat) : Option Trap :=
  match s.drawNoise n with
  | .error t => some t
  | .ok (_, s) => match s.logNoise with
    | .error t => some t
    | .ok _ => none

/-- MDRAIN (R218, R235): the checks, the snapshot and the drain's beats, the first at its own step; a mark when the destination is
a local tensor or mass (R212). One whose noise words cannot be had does nothing (R79, R82, R83). -/
def execMdrain (g : BitVec 4) (a : BitVec 2) (r : BitVec 6) (m : BitVec 7) (s : State) : Out :=
  runSlot g (fun st s =>
    let c := st.regs.fcfg
    match s.startDrain st a.toNat r.toNat m.toNat with
    | .error t => .error t
    | .ok d =>
      match (if d.live then massRefused s (m.toNat * (massCols st c).length) else none) with
      | some t => .error t
      | none =>
      let s := s.touchKeys st
      match (if drainMarks c then s.mark else .ok s) with
      | .error t => .error t
      | .ok s =>
        match drainNoise s (s.drainWords st c r.toNat m.toNat d.destRow d.destCol) with
        | .error t => .error t
        | .ok (ws, s) => match s.strand with
          | none => .ok s
          | some st => .ok (s.setStrand { st with drains := st.drains ++ [{ d with words := ws }] })) s

end Sys2Proof.Machine
end

