-- ==== Sys2Proof/Machine/Legal.lean ====
section
/-!
DEFINITION. What makes a bundle illegal beyond its slots (R166, R168, R171 to R173, R193, R196, R131): destinations, the registers a
slot reads, the fields that REP advances, the unit inventory and placement; and the step ILLEGAL_BUNDLE.
-/

namespace Sys2Proof.Machine

/-- ILLEGAL_BUNDLE (R173): the bundle does nothing and raises illegal bundle with the slots at fault and the reason code. -/
def execIllegalBundle (mask : BitVec 4) (reason : BitVec 8) (s : State) : Out :=
  runSlot 0 (fun _ _ => .error { cause := 0x01, arg := mask.toNat + 256 * reason.toNat, reason := reason.toNat }) s

/-- The register files that a slot can name (R293); accumulator banks and spill slots are named as destinations (R166). -/
inductive RFile where
  | x | p | v | k | t | g | slatch | glatch | special | bank | spill
  deriving DecidableEq, Repr

/-- TRAPARG.FILE of R293. -/
def RFile.code : RFile → Nat
  | .x => 0 | .p => 1 | .v => 2 | .k => 3 | .t => 4 | .g => 5 | .slatch => 6 | .glatch => 7 | .special => 8 | .bank => 9 | .spill => 10

/-- A register by file and number. -/
abbrev Reg := RFile × Nat

/-- P2 to P15. -/
def predRegs : List Reg := (List.range 14).map fun k => (.p, k + 2)

/-- n staging registers from Zz on, as special registers (R177). -/
def zRegs (z n : Nat) : List Reg := (List.range n).map fun k => (.special, 0x40 + z + k)

/-- The registers of an arming pair, none for m = 0 (R249). -/
def armRegs (m : BitVec 6) : List Reg := if m = 0 then [] else [(.x, m.toNat), (.x, m.toNat + 1)]

/-- The V register that a descriptor binds. -/
def boundReg (d : Word) : List Reg := if patBound d then [(.v, patVreg d)] else []

/-- The V registers that MDRAIN takes into its snapshot (R218). -/
def drainRegs (c : Vector Word 5) : List Reg :=
  (if cfgSen c then [(.v, cfgField c 4 53 5)] else []) ++ (if cfgSen c && cfgBen c then [(.v, cfgField c 4 48 5)] else []) ++
    if cfgMen c then [(.v, cfgField c 4 43 5), (.v, cfgField c 4 43 5 + 1)] else []

/-- The registers that a slot writes, under their architectural numbers (R166); a drain's destinations are its beats'. -/
def Instr.dests : Instr → List Reg
  | .add _ d _ _ | .sub _ d _ _ | .mul _ d _ _ | .mulh _ d _ _ | .mulhn _ d _ _ | .div _ d _ _ | .divn _ d _ _
  | .rem _ d _ _ | .remn _ d _ _ | .and _ d _ _ | .or _ d _ _ | .xor _ d _ _ | .andn _ d _ _ | .shl _ d _ _
  | .shr _ d _ _ | .sra _ d _ _ | .min _ d _ _ | .max _ d _ _ | .minn _ d _ _ | .maxn _ d _ _ | .add32 _ d _ _
  | .sub32 _ d _ _ | .clz _ d _ | .ctz _ d _ | .popc _ d _ | .addi _ d _ _ _ | .andi _ d _ _ _ | .ori _ d _ _ _
  | .xori _ d _ _ _ | .shli _ d _ _ _ | .shri _ d _ _ _ | .srai _ d _ _ _ | .movi _ d _ _ | .movk _ d _ _ _
  | .ld8 _ _ d _ _ | .ld16 _ _ d _ _ | .ld32 _ _ d _ _ | .ld64 _ _ d _ _ | .ld8s _ _ d _ _ | .ld16s _ _ d _ _
  | .ld32s _ _ d _ _ | .lds _ _ d _ _ | .vext _ d _ _ | .vpopc _ d _ | .vfirst _ d _ | .vfmt _ d _ | .dfstat _ d _
  | .movs _ d _ | .traprd _ d _ | .srsv _ d _ _ | .spin _ d _ _ | .sunpin _ d _ _ | .aadd _ d _ _ | .amin _ d _ _
  | .amax _ d _ _ | .axchg _ d _ _ | .aand _ d _ _ | .aor _ d _ _ | .sadd _ d _ _ | .acas _ d _ _ => [(.x, d.toNat)]
  | .pstore _ x => [(.x, x.toNat)]
  | .spld _ r _ => [(.x, r.toNat)]
  | .tfmt _ _ x => [(.x, x.toNat)]
  | .cread _ _ _ _ b | .tbar _ _ _ _ b | .tarrive _ _ _ _ b | .stepadv _ b => [(.x, b.toNat)]
  | .sqsnap _ d _ n => [(.x, d.toNat), (.special, 0x20 + n.toNat)]
  | .cmpeq _ p _ _ | .cmpne _ p _ _ | .cmplt _ p _ _ | .cmple _ p _ _ | .cmpltn _ p _ _ | .cmplen _ p _ _
  | .cmpeqi _ p _ _ _ | .cmplti _ p _ _ _ | .cmplei _ p _ _ _ | .tbit _ p _ _ => [(.p, p.toNat), (.p, p.toNat + 1)]
  | .pand _ d _ _ | .por _ d _ _ | .pxor _ d _ _ | .pandn _ d _ _ | .pmov _ d _ | .pset _ d _ => [(.p, d.toNat)]
  | .pload _ _ => predRegs
  | .spldp _ r _ => if r.toNat = 8 then predRegs else [(.k, r.toNat)]
  | .launch _ _ _ p => [(.p, 2 * p.toNat), (.p, 2 * p.toNat + 1)]
  | .call _ _ _ | .callx _ _ => [(.x, 1)]
  | .loop _ _ _ _ _ => [(.special, 4), (.special, 5), (.p, 8)]
  | .ldv _ _ d _ _ | .ldvx _ _ d _ _ | .ldsv _ _ d _ _ | .vadd _ d _ _ _ | .vsub _ d _ _ _ | .vmul _ d _ _ _
  | .vand _ d _ _ _ | .vor _ d _ _ _ | .vxor _ d _ _ _ | .vshl _ d _ _ _ | .vshr _ d _ _ _ | .vsra _ d _ _ _
  | .vmin _ d _ _ _ | .vmax _ d _ _ _ | .vminn _ d _ _ _ | .vmaxn _ d _ _ _ | .vsel _ d _ _ _ | .vmov _ d _ _ _
  | .viota _ d _ | .vbcast _ d _ _ _ | .vins _ d _ _ | .vpack _ d _ _ | .vtag _ d _ | .vconv _ d _ _ _ _
  | .xperm _ d _ _ _ | .xpack _ d _ _ | .dfv _ d _ _ _ => [(.v, d.toNat)]
  | .tgetv _ _ v _ => [(.v, v.toNat)]
  | .spldv _ r _ => [(.v, r.toNat)]
  | .vcmpeq _ d _ _ _ | .vcmplt _ d _ _ _ | .vcmple _ d _ _ _ | .vcmpltn _ d _ _ _ => [(.k, d.toNat), (.k, d.toNat + 1)]
  | .kand _ d _ _ | .kor _ d _ _ | .kxor _ d _ _ | .kmov _ d _ => [(.k, d.toNat)]
  | .ldt _ _ d _ _ | .xpand _ d _ _ _ | .xpose _ d _ | .xconv _ d _ _ _ _ => [(.t, d.toNat)]
  | .tzero _ t _ | .tmove _ t _ | .tfill _ t _ _ | .tsetv _ t _ _ | .ttag _ t _ => [(.t, t.toNat)]
  | .gset _ t _ | .gidx _ t _ _ _ | .gdiag _ t _ _ | .gband _ t _ _ _ => [(.g, t.toNat)]
  | .mload _ _ _ | .mloadg _ _ _ => [(.slatch, 0)]
  | .gath _ _ => [(.glatch, 0)]
  | .mpush _ a _ _ _ _ | .mpushl _ a _ _ _ | .mpushg _ a _ _ _ _ | .mzero _ a _ | .minit _ a _ | .mshift _ a _
  | .mswap _ a => [(.bank, a.toNat)]
  | .spst _ _ s | .spstp _ _ s => [(.spill, s.toNat)]
  | .spstv _ _ s => (List.range 32).map fun j => (.spill, s.toNat + j)
  | .movsw _ _ n => [(.special, n.toNat)]
  | _ => []

/-- The registers that a slot reads besides its guard (R165, R293); rank gives the number of coordinates of a handle. -/
def Instr.sources (st : Strand) (rank : BitVec 6 → Nat) (i : Instr) : List Reg :=
  let coords : BitVec 6 → BitVec 6 → List Reg := fun h c => (List.range (rank h)).map fun d => (.x, c.toNat + d)
  match i with
  | .add _ _ a b | .sub _ _ a b | .mul _ _ a b | .mulh _ _ a b | .mulhn _ _ a b | .div _ _ a b | .divn _ _ a b
  | .rem _ _ a b | .remn _ _ a b | .and _ _ a b | .or _ _ a b | .xor _ _ a b | .andn _ _ a b | .shl _ _ a b
  | .shr _ _ a b | .sra _ _ a b | .min _ _ a b | .max _ _ a b | .minn _ _ a b | .maxn _ _ a b | .add32 _ _ a b
  | .sub32 _ _ a b | .cmpeq _ _ a b | .cmpne _ _ a b | .cmplt _ _ a b | .cmple _ _ a b | .cmpltn _ _ a b
  | .cmplen _ _ a b | .aadd _ _ a b | .amin _ _ a b | .amax _ _ a b | .axchg _ _ a b | .aand _ _ a b | .aor _ _ a b
  | .sadd _ _ a b | .cadd _ _ _ a b | .cwait _ _ _ a b | .craise _ _ _ a b | .srsv _ _ a b | .scmt _ a b
  | .spin _ _ a b | .sunpin _ _ a b | .noisectlReplay _ a b => [(.x, a.toNat), (.x, b.toNat)]
  | .acas _ d a b => [(.x, a.toNat), (.x, b.toNat), (.x, d.toNat)]
  | .clz _ _ a | .ctz _ _ a | .popc _ _ a | .addi _ _ a _ _ | .andi _ _ a _ _ | .ori _ _ a _ _ | .xori _ _ a _ _
  | .shli _ _ a _ _ | .shri _ _ a _ _ | .srai _ _ a _ _ | .cmpeqi _ _ a _ _ | .cmplti _ _ a _ _ | .cmplei _ _ a _ _
  | .tbit _ _ a _ | .jmp _ a | .callx _ a | .loop _ a _ _ _ | .cread _ _ _ a _ | .join _ _ _ a | .leave _ _ _ a
  | .tbar _ _ _ a _ | .tarrive _ _ _ a _ | .sqsnap _ _ a _ | .movsw _ a _ | .setpri _ a | .noisectlLog _ a | .idle _ a =>
    [(.x, a.toNat)]
  | .park _ a b => [(.x, a.toNat), (.x, b.toNat)]
  | .movk _ d _ _ _ => [(.x, d.toNat)]
  | .pload _ x | .gset _ _ x | .gband _ _ x _ _ | .tfill _ _ x _ | .dfmask _ _ x _ | .dfmass _ _ x _ => [(.x, x.toNat)]
  | .spst _ r _ => [(.x, r.toNat)]
  | .pand _ _ a b | .por _ _ a b | .pxor _ _ a b | .pandn _ _ a b => [(.p, a.toNat), (.p, b.toNat)]
  | .pmov _ _ a => [(.p, a.toNat)]
  | .pstore _ _ => predRegs
  | .ld8 _ h _ c _ | .ld16 _ h _ c _ | .ld32 _ h _ c _ | .ld64 _ h _ c _ | .ld8s _ h _ c _ | .ld16s _ h _ c _
  | .ld32s _ h _ c _ | .lds _ h _ c _ | .ldt _ h _ c _ => coords h c
  | .dfdstH _ h c => coords h c
  | .ldv _ h _ c x | .ldvx _ h _ c x | .ldsv _ h _ c x => (.k, (lendRow x).2) :: coords h c
  | .st8 _ h d c _ | .st16 _ h d c _ | .st32 _ h d c _ | .st64 _ h d c _ => (.x, d.toNat) :: coords h c
  | .stv _ h d c x | .stvx _ h d c x => (.v, d.toNat) :: (.k, (lendRow x).2) :: coords h c
  | .stt _ h d c _ => (.t, d.toNat) :: coords h c
  | .spstv _ r _ => [(.v, r.toNat)]
  | .spstp _ r _ => if r.toNat = 8 then predRegs else [(.k, r.toNat)]
  | .vadd _ _ a b k | .vsub _ _ a b k | .vmul _ _ a b k | .vand _ _ a b k | .vor _ _ a b k | .vxor _ _ a b k
  | .vshl _ _ a b k | .vshr _ _ a b k | .vsra _ _ a b k | .vmin _ _ a b k | .vmax _ _ a b k | .vminn _ _ a b k
  | .vmaxn _ _ a b k | .vsel _ _ a b k | .vcmpeq _ _ a b k | .vcmplt _ _ a b k | .vcmple _ _ a b k | .vcmpltn _ _ a b k =>
    [(.v, a.toNat), (.v, b.toNat), (.k, k.toNat)]
  | .vmov _ _ a _ k | .vpack _ _ a k => [(.v, a.toNat), (.k, k.toNat)]
  | .viota _ _ k | .vpopc _ _ k | .vfirst _ _ k => [(.k, k.toNat)]
  | .vbcast _ _ x _ k => [(.x, x.toNat), (.k, k.toNat)]
  | .vext _ _ a b => [(.v, a.toNat), (.x, b.toNat)]
  | .vins _ d a b => [(.v, d.toNat), (.x, a.toNat), (.x, b.toNat)]
  | .vfmt _ _ a => [(.v, a.toNat)]
  | .kand _ _ a b | .kor _ _ a b | .kxor _ _ a b => [(.k, a.toNat), (.k, b.toNat)]
  | .kmov _ _ a => [(.k, a.toNat)]
  | .mload _ s _ => [(.t, s.toNat)]
  | .minit _ _ s => [(.t, s.toNat)]
  | .mloadg _ s _ => (.g, s.toNat) :: boundReg (st.gr s)
  | .mpush _ _ s _ _ _ => [(.slatch, 0), (.t, s.toNat)]
  | .mpushl _ _ _ _ _ => [(.slatch, 0), (.glatch, 0)]
  | .mpushg _ _ s _ _ _ => (.slatch, 0) :: (.g, s.toNat) :: boundReg (st.gr s)
  | .mdrain _ _ _ _ => drainRegs st.regs.fcfg
  | .tmove _ _ a => [(.t, a.toNat)]
  | .tsetv _ d v _ => [(.v, v.toNat), (.t, d.toNat)]
  | .tgetv _ t _ _ | .ttag _ t _ | .tfmt _ t _ => [(.t, t.toNat)]
  | .xpand _ d s _ _ => [(.v, s.toNat), (.t, d.toNat)]
  | .xpose _ _ s | .xconv _ _ s _ _ _ | .xpack _ _ s _ => [(.t, s.toNat)]
  | .vconv _ _ s _ _ k => [(.v, s.toNat), (.k, k.toNat)]
  | .xperm _ _ s b k => [(.v, s.toNat), (.v, b.toNat), (.k, k.toNat)]
  | .dfv _ _ a b f => if f.toNat < 16 then [(.v, a.toNat)] else [(.v, a.toNat), (.v, b.toNat)]
  | .copy _ _ _ _ k m _ | .copym _ _ _ _ k m _ | .cexp _ _ _ _ k m _ => zRegs 0 8 ++ (.x, k.toNat) :: armRegs m
  | .pool _ _ _ _ k m _ => zRegs 8 8 ++ (.x, k.toNat) :: armRegs m
  | .sfork _ _ _ _ k m _ | .sretire _ _ _ _ k m _ | .stld _ _ _ _ k m _ | .stinv _ _ _ _ k m _ | .ballast _ _ _ _ k m _ =>
    zRegs 16 8 ++ (.x, k.toNat) :: armRegs m
  | .fput _ _ _ _ k m _ | .fget _ _ _ _ k m _ | .fred _ _ _ _ k m _ => zRegs 24 8 ++ (.x, k.toNat) :: armRegs m
  | .gath _ v => (.v, v.toNat) :: (.k, (st.zr 8).toNat / 2 ^ 16 % 8) :: zRegs 8 2
  | .launch _ _ _ _ => zRegs 16 8
  | .offload _ _ _ _ k _ | .recall _ _ _ _ k _ => (.x, k.toNat) :: zRegs 0 2
  | .movs _ _ n => [(.special, n.toNat)]
  | _ => []

/-- A register field that REP advances: the least selector that advances it, its low bit and width, the largest number it may name,
and the increment (R171). -/
structure Adv where
  sel : Nat
  lo : Nat
  len : Nat
  top : Nat
  inc : Nat
  deriving DecidableEq, Repr

/-- The fields of R171, with R207's for the ops of its layouts, whose xb no selector names; none for STALL, NOP and the slots that REP does not
admit. -/
def Instr.advances : Instr → List Adv
  | .add _ _ _ _ | .sub _ _ _ _ | .mul _ _ _ _ | .mulh _ _ _ _ | .mulhn _ _ _ _ | .div _ _ _ _ | .divn _ _ _ _
  | .rem _ _ _ _ | .remn _ _ _ _ | .and _ _ _ _ | .or _ _ _ _ | .xor _ _ _ _ | .andn _ _ _ _ | .shl _ _ _ _
  | .shr _ _ _ _ | .sra _ _ _ _ | .min _ _ _ _ | .max _ _ _ _ | .minn _ _ _ _ | .maxn _ _ _ _ | .add32 _ _ _ _
  | .sub32 _ _ _ _ => [⟨1, 12, 6, 63, 1⟩, ⟨2, 6, 6, 63, 1⟩, ⟨3, 0, 6, 63, 1⟩]
  | .clz _ _ _ | .ctz _ _ _ | .popc _ _ _ => [⟨1, 12, 6, 63, 1⟩, ⟨2, 6, 6, 63, 1⟩]
  | .addi _ _ _ _ _ | .andi _ _ _ _ _ | .ori _ _ _ _ _ | .xori _ _ _ _ _ | .shli _ _ _ _ _ | .shri _ _ _ _ _
  | .srai _ _ _ _ _ => [⟨1, 14, 6, 63, 1⟩, ⟨2, 8, 6, 63, 1⟩]
  | .movi _ _ _ _ | .movk _ _ _ _ _ => [⟨1, 14, 6, 63, 1⟩]
  | .ld8 _ _ _ _ _ | .ld16 _ _ _ _ _ | .ld32 _ _ _ _ _ | .ld64 _ _ _ _ _ | .ld8s _ _ _ _ _ | .ld16s _ _ _ _ _
  | .ld32s _ _ _ _ _ | .lds _ _ _ _ _ | .st8 _ _ _ _ _ | .st16 _ _ _ _ _ | .st32 _ _ _ _ _ | .st64 _ _ _ _ _ =>
    [⟨1, 7, 6, 63, 1⟩, ⟨2, 1, 6, 63, 1⟩]
  | .ldv _ _ _ _ _ | .ldvx _ _ _ _ _ | .ldsv _ _ _ _ _ | .stv _ _ _ _ _ | .stvx _ _ _ _ _ => [⟨1, 7, 5, 31, 1⟩, ⟨2, 1, 6, 63, 1⟩]
  | .ldt _ _ _ _ _ | .stt _ _ _ _ _ => [⟨1, 7, 3, 7, 1⟩, ⟨2, 1, 6, 63, 1⟩]
  | .spld _ _ _ | .spst _ _ _ => [⟨1, 15, 6, 63, 1⟩, ⟨2, 6, 9, 511, 1⟩]
  | .spldv _ _ _ | .spstv _ _ _ => [⟨1, 15, 5, 31, 1⟩, ⟨2, 6, 9, 480, 32⟩]
  | .spldp _ _ _ | .spstp _ _ _ => [⟨1, 15, 6, 8, 1⟩, ⟨2, 6, 9, 511, 1⟩]
  | .vadd _ _ _ _ _ | .vsub _ _ _ _ _ | .vmul _ _ _ _ _ | .vand _ _ _ _ _ | .vor _ _ _ _ _ | .vxor _ _ _ _ _
  | .vshl _ _ _ _ _ | .vshr _ _ _ _ _ | .vsra _ _ _ _ _ | .vmin _ _ _ _ _ | .vmax _ _ _ _ _ | .vminn _ _ _ _ _
  | .vmaxn _ _ _ _ _ | .vsel _ _ _ _ _ | .vmov _ _ _ _ _ => [⟨1, 13, 5, 31, 1⟩, ⟨2, 8, 5, 31, 1⟩, ⟨3, 3, 5, 31, 1⟩]
  | .vcmpeq _ _ _ _ _ | .vcmplt _ _ _ _ _ | .vcmple _ _ _ _ _ | .vcmpltn _ _ _ _ _ =>
    [⟨1, 13, 3, 6, 2⟩, ⟨2, 8, 5, 31, 1⟩, ⟨3, 3, 5, 31, 1⟩]
  | .viota _ _ _ | .vtag _ _ _ => [⟨1, 13, 5, 31, 1⟩]
  | .vbcast _ _ _ _ _ => [⟨1, 13, 5, 31, 1⟩, ⟨2, 7, 6, 63, 1⟩]
  | .vext _ _ _ _ => [⟨1, 12, 6, 63, 1⟩, ⟨2, 7, 5, 31, 1⟩]
  | .vins _ _ _ _ => [⟨1, 13, 5, 31, 1⟩, ⟨2, 7, 6, 63, 1⟩]
  | .vpopc _ _ _ | .vfirst _ _ _ => [⟨1, 12, 6, 63, 1⟩]
  | .vpack _ _ _ _ => [⟨1, 13, 5, 31, 1⟩, ⟨2, 8, 5, 31, 1⟩]
  | .kand _ _ _ _ | .kor _ _ _ _ | .kxor _ _ _ _ => [⟨1, 13, 3, 7, 1⟩, ⟨2, 8, 3, 7, 1⟩, ⟨3, 3, 3, 7, 1⟩]
  | .kmov _ _ _ => [⟨1, 13, 3, 7, 1⟩, ⟨2, 8, 3, 7, 1⟩]
  | .vfmt _ _ _ => [⟨1, 12, 6, 63, 1⟩, ⟨2, 7, 5, 31, 1⟩]
  | .mpush _ _ _ _ _ _ | .mpushg _ _ _ _ _ _ => [⟨1, 18, 2, 3, 1⟩, ⟨2, 15, 3, 7, 1⟩]
  | .mpushl _ _ _ _ _ | .mzero _ _ _ | .mshift _ _ _ => [⟨1, 18, 2, 3, 1⟩]
  | .gset _ _ _ | .gband _ _ _ _ _ | .tfill _ _ _ _ | .tfmt _ _ _ => [⟨1, 16, 3, 7, 1⟩, ⟨2, 10, 6, 63, 1⟩]
  | .gidx _ _ _ _ _ | .gdiag _ _ _ _ | .tsetv _ _ _ _ | .tgetv _ _ _ _ => [⟨1, 16, 3, 7, 1⟩, ⟨2, 10, 5, 31, 1⟩]
  | .tzero _ _ _ | .ttag _ _ _ => [⟨1, 16, 3, 7, 1⟩]
  | .tmove _ _ _ => [⟨1, 16, 3, 7, 1⟩, ⟨2, 10, 3, 7, 1⟩]
  | .xpand _ _ _ _ _ => [⟨1, 15, 3, 7, 1⟩, ⟨2, 10, 5, 31, 1⟩]
  | .xpose _ _ _ | .xconv _ _ _ _ _ _ => [⟨1, 15, 3, 7, 1⟩, ⟨2, 10, 3, 7, 1⟩]
  | .vconv _ _ _ _ _ _ | .xperm _ _ _ _ _ => [⟨1, 15, 5, 31, 1⟩, ⟨2, 10, 5, 31, 1⟩]
  | .xpack _ _ _ _ => [⟨1, 15, 5, 31, 1⟩, ⟨2, 10, 3, 7, 1⟩]
  | _ => []

/-- A write to X0, P0, P1 or K0 is discarded and is no duplicate (R166). -/
def discarded (r : Reg) : Bool := r == (.x, 0) || r == (.p, 0) || r == (.p, 1) || r == (.k, 0)

/-- The class of a slot word (R163). -/
def wordClass (w : BitVec 32) : Nat := fieldAt w 28 4

/-- A word with a field advanced, none when it passes the end of its file (R171, R172). -/
def advanceField (j : Nat) (w : BitVec 32) (a : Adv) : Option (BitVec 32) :=
  if fieldAt w a.lo a.len + j * a.inc ≤ a.top then some (w + BitVec.ofNat 32 (2 ^ a.lo * (j * a.inc))) else none

/-- The word of repetition j under a stride selector (R171). -/
def repWord (i : Instr) (sel j : Nat) (w : BitVec 32) : Option (BitVec 32) :=
  ((Instr.advances i).filter fun a => decide (a.sel ≤ sel)).foldl (fun r a => r.bind fun w => advanceField j w a) (some w)

/-- The row field of a push advanced by rows (R86). -/
def advanceRow (rows : Nat) (w : BitVec 32) : BitVec 32 := w + BitVec.ofNat 32 (2 ^ 9 * ((fieldAt w 9 6 + rows) % 64)) - BitVec.ofNat 32 (2 ^ 9 * fieldAt w 9 6)

/-- Whether a slot is a push, and its moving operand (R86, R215). -/
def pushOf : Instr → Option Moving
  | .mpush _ _ n _ _ _ => some (.tile n.toNat)
  | .mpushl _ _ _ _ _ => some .gather
  | .mpushg _ _ n _ _ _ => some (.pattern n.toNat)
  | _ => none

/-- The count and the strides of slots 0 to 3 of a REP header (R171). -/
def repHeader : List Slot → Option (Nat × List Nat)
  | .ok (.rep n z y x) :: _ => some (n.toNat, [0, x.toNat, y.toNat, z.toNat])
  | _ => none

/-- The slots of a bundle with their words and places. -/
abbrev Placed := List (Nat × BitVec 32 × Slot)

/-- The four slots of a bundle's bytes (R163). -/
def placedSlots (bs : List Byte) : Placed :=
  let ws := (List.range 4).map (bundleWord bs)
  (List.range 4).zip (ws.zip (decodeWords (ws.getD 0 0) (ws.getD 1 0) (ws.getD 2 0) (ws.getD 3 0)))

/-- The instruction of a place in repetition j of a REP, none when it names a register beyond its file (R172). -/
def repSlot (sel j : Nat) (p : Nat × BitVec 32 × Slot) : Option Instr :=
  match p.2.2 with
  | .ok i => if j = 0 then some i else match repWord i sel j p.2.1 with
    | some w => (match decodeSlot p.1 w none with | .ok i => some i | .bad _ => none)
    | none => none
  | .bad _ => none

/-- Reason 3 (R168): the bundle asks for more units of the word's class than the tile holds. -/
def overUnits (ws : List (BitVec 32)) (c : Nat) : Bool :=
  let n := (ws.filter fun w => wordClass w == c || (c == 1 && wordClass w == 2) || (c == 2 && wordClass w == 1)).length
  if c = 1 ∨ c = 2 then decide (2 < n) else c != 0 && c != 6 && c != 15 && decide (1 < n)

/-- Reason 6 (R168, R171, R172): a slot that REP does not admit, or a stride on class 0x0. -/
def repRefuses (sel : Nat) (w : BitVec 32) : Slot → Bool
  | .ok (.nop _) => sel != 0
  | .ok (.mpush _ _ _ _ _ _) => false
  | .ok (.mpushl _ _ _ _ _) => false
  | .ok (.mpushg _ _ _ _ _ _) => false
  | .ok (.mzero _ _ _) => false
  | .ok (.mshift _ _ _) => false
  | _ =>
    let c := wordClass w
    c == 0 || c == 3 || c == 4 || c == 8 || decide (11 ≤ c)

/-- Reason 8 (R166): the instruction at a place shares a destination with another one. -/
def clashes (is : List (Nat × Instr)) (pos : Nat) : Bool :=
  let mine := ((is.filter fun p => p.1 == pos).map fun p => Instr.dests p.2).flatten.filter fun r => !discarded r
  is.any fun p => p.1 != pos && (Instr.dests p.2).any fun r => mine.contains r

/-- Reason 11: class 0x4 in a delay bundle (R193), and the control slots that a LOOP body (R196) or a Spool template (R131) excludes. -/
def misplaced (delay body nest : Bool) (w : BitVec 32) : Slot → Bool
  | .ok (.loop _ _ _ _ _) => delay || body || nest
  | .ok (.br _ _ _) => delay || body || nest
  | .ok (.call _ _ _) => delay || body || nest
  | .ok (.jmp _ _) => delay || body || nest
  | .ok (.callx _ _) => delay || body || nest
  | .ok (.park _ _ _) => delay || body || nest
  | .ok (.exit _) => delay || body || nest
  | .ok (.spool _ _ _) => delay || body || nest
  | .ok (.eret _) => delay || body || nest
  | _ => delay && wordClass w == 4

/-- The reason codes for which the slot at a place is at fault (R173), guards aside. -/
def slotReasons (delay body nest : Bool) (ps : Placed) (p : Nat × BitVec 32 × Slot) : List Nat :=
  let ws := ps.map fun p => p.2.1
  let rep := repHeader (ps.map fun p => p.2.2)
  let (n, strides) := rep.getD (1, [0, 0, 0, 0])
  let reps := (List.range n).map fun j => (ps.drop (if rep.isSome then 1 else 0)).map fun q => (q.1, repSlot (strides.getD q.1 0) j q)
  let own := match p.2.2 with
    | .bad r => [r]
    | .ok i => i.reason.toList
  own ++ (if overUnits ws (wordClass p.2.1) then [3] else []) ++
    (if rep.isSome && p.1 != 0 && own.isEmpty && repRefuses (strides.getD p.1 0) p.2.1 p.2.2 then [6] else []) ++
    (if reps.any fun is => clashes (is.filterMap fun (k, i) => i.map fun i => (k, i)) p.1 then [8] else []) ++
    (if own.isEmpty && reps.any fun is => is.any fun (k, i) => k == p.1 && i.isNone then [9] else []) ++
    (if misplaced delay body nest p.2.1 p.2.2 then [11] else [])

/-- The slots at fault and the least reason code of the lowest-numbered one, from the reason codes of each place; none without one (R173). -/
def faultOf (rs : List (Nat × List Nat)) : Option (BitVec 4 × BitVec 8) :=
  match rs.find? fun r => !r.2.isEmpty with
  | none => none
  | some (_, l) =>
    some (BitVec.ofNat 4 ((rs.filter fun r => !r.2.isEmpty).map fun r => 2 ^ r.1).sum, BitVec.ofNat 8 (l.foldl min 255))

/-- The reason codes of each place of a bundle at its decoding (R173). -/
def placeFaults (delay body nest : Bool) (ps : Placed) : List (Nat × List Nat) := ps.map fun p => (p.1, slotReasons delay body nest ps p)

/-- What makes a bundle illegal at its decoding (R173); none for a legal one. -/
def bundleFault (delay body nest : Bool) (ps : Placed) : Option (BitVec 4 × BitVec 8) := faultOf (placeFaults delay body nest ps)

/-! ### What is judged at the issue step (R173) -/

/-- The moving operand, row and half select of a push (R86). -/
def pushFields : Instr → Option (Moving × Nat × Bool)
  | .mpush _ _ n r h _ => some (.tile n.toNat, r.toNat, h == 1)
  | .mpushl _ _ r h _ => some (.gather, r.toNat, h == 1)
  | .mpushg _ _ n r h _ => some (.pattern n.toNat, r.toNat, h == 1)
  | _ => none

/-- The handle of a slot that takes coordinates, and the X register of the first (R239, R230). -/
def Instr.coordinates : Instr → Option (BitVec 6 × Nat)
  | .ld8 _ h _ c _ | .ld16 _ h _ c _ | .ld32 _ h _ c _ | .ld64 _ h _ c _ | .ld8s _ h _ c _ | .ld16s _ h _ c _ | .ld32s _ h _ c _
  | .lds _ h _ c _ | .ldsv _ h _ c _ | .ldv _ h _ c _ | .ldvx _ h _ c _ | .ldt _ h _ c _ | .st8 _ h _ c _ | .st16 _ h _ c _
  | .st32 _ h _ c _ | .st64 _ h _ c _ | .stv _ h _ c _ | .stvx _ h _ c _ | .stt _ h _ c _ | .dfdstH _ h c => some (h, c.toNat)
  | _ => none

/-- Whether a slot's coordinates pass X63 (R239, R230). -/
def pastFile (s : State) (st : Strand) (i : Instr) : Bool :=
  match Instr.coordinates i with
  | some (h, c) => (match s.entryOf st.launch h.toNat with | some e => decide (63 < c + e.rank - 1) | none => false)
  | none => false

/-- The level that a SPOOL's check refuses (R129). -/
def nestLevel (s : State) (st : Strand) : Instr → Option Nat
  | .spool _ n l => badLevel (s.templates st) n.toNat 6 l.toNat
  | _ => none

/-- The reason codes for which a slot is at fault once tags, the tensor table and the state are known, guards aside (R173): the row and half
select of a push against the tag of A (R86), where a repetition's A keeps the row count; coordinates past X63 (R239, R230); a level that SPOOL
refuses (R129), for which 5 is the model's choice (notes/assumptions/79.md); SPBRK without its level (R132) and PARK in handler mode (R341). -/
def judge (s : State) (st : Strand) (i : Instr) : List Nat :=
  let push : Bool := match pushFields i with
    | none => false
    | some (m, row, half) => match movingShape st m with
      | none => false
      | some t => beatTag t && !(decide (0 < st.regs.rep.getD 0) && beatCount t != st.regs.repRows) &&
          (row % beatCount t != 0 || half != (t == 5 || t == 6))
  let place : Bool := match i with
    | .spbrk _ l => !(match st.regs.spool with | some sp => sp.canBreak l.toNat | none => false)
    | .park _ _ _ => st.handler.isSome
    | _ => false
  (if push || pastFile s st i || (nestLevel s st i).isSome then [5] else []) ++ if place then [11] else []

end Sys2Proof.Machine
end

