-- ==== Sys2Proof/Machine/Pattern.lean ====
section
/-!
DEFINITION. Pattern and tile set-up (R220, R221): class 0x9.
-/

namespace Sys2Proof.Machine

/-- A descriptor from its fields (R93): kind, REXT, CEXT, K, HI, VREG. -/
def makePattern (kind rext cext k hi vreg : Nat) : Word :=
  BitVec.ofNat 64 (kind + rext * 2 ^ 4 + cext * 2 ^ 11 + k * 2 ^ 18 + hi * 2 ^ 26 + vreg * 2 ^ 34)

/-- GSET (R220). -/
def execGset (g : BitVec 4) (d : BitVec 3) (a : BitVec 6) (s : State) : Out :=
  strandSlot g (fun st => st.land 1 (.g d.toNat (st.xr a))) s
/-- GIDX (R220): ONEHOT (k = 0) or PERM. -/
def execGidx (g : BitVec 4) (d : BitVec 3) (v : BitVec 5) (k : BitVec 1) (e : BitVec 7) (s : State) : Out :=
  strandSlot g (fun st => st.land 1 (.g d.toNat
    (if k = 0 then makePattern 8 e.toNat 64 0 0 v.toNat else makePattern 7 64 e.toNat 0 0 v.toNat))) s
/-- GDIAG (R220). -/
def execGdiag (g : BitVec 4) (d : BitVec 3) (v : BitVec 5) (e : BitVec 7) (s : State) : Out :=
  strandSlot g (fun st => st.land 1 (.g d.toNat (makePattern 9 e.toNat e.toNat 0 0 v.toNat))) s
/-- GBAND (R220): BAND (k = 0) or BANDV. -/
def execGband (g : BitVec 4) (d : BitVec 3) (a : BitVec 6) (k : BitVec 1) (v : BitVec 5) (s : State) : Out :=
  strandSlot g (fun st =>
    let x := st.xr a
    st.land 1 (.g d.toNat (makePattern (5 + k.toNat) (fieldAt x 16 7) (fieldAt x 23 7) (fieldAt x 0 8) (fieldAt x 8 8)
      (if k = 0 then 0 else v.toNat)))) s

/-- The zero tile of a tag (R221): SQ blocks have fields 0, micro byte 0xFF and E = 0. -/
def zeroTile (fmt : Nat) : TReg :=
  if isSq fmt then tileOfBlocks fmt (List.replicate 256 (255 * 2 ^ (8 * (sqBytes fmt - 2))))
  else ⟨BitVec.ofNat 4 fmt, Vector.replicate 8192 0⟩

/-- A tile whose row i is given by the low bits of 64 elements; the other rows are the old ones when the tag is kept, else +0
(R221, R227). -/
def tileWithRow (old : TReg) (fmt i : Nat) (xs : List Nat) : TReg :=
  let w := elemBytes fmt
  let bytes := ((xs.map (leBytes w)).flatten).toArray
  let keep := old.tag.toNat == fmt
  ⟨BitVec.ofNat 4 fmt, Vector.ofFn fun n : Fin 8192 =>
    if n.val / (64 * w) = i then bytes.getD (n.val % (64 * w)) 0 else if keep then old.bytes[n.val]?.getD 0 else 0⟩

/-- The tags of a row that a V register can hold (R221): I8, I16, FP16, BF16. -/
def rowTag (t : Nat) : Bool := t == 1 || t == 2 || t == 5 || t == 6

/-- TZERO (R221). -/
def execTzero (g : BitVec 4) (d : BitVec 3) (f : BitVec 4) (s : State) : Out :=
  strandSlot g (fun st => st.land 2 (.t d.toNat (zeroTile f.toNat))) s
/-- TMOVE (R221). -/
def execTmove (g : BitVec 4) (d a : BitVec 3) (s : State) : Out := strandSlot g (fun st => st.land 2 (.t d.toNat (st.tr a))) s
/-- TFILL (R221). -/
def execTfill (g : BitVec 4) (d : BitVec 3) (a : BitVec 6) (f : BitVec 4) (s : State) : Out :=
  strandSlot g (fun st =>
    let w := elemBytes f.toNat
    let v := (st.xr a).toNat
    st.land 2 (.t d.toNat ⟨f, Vector.ofFn fun n : Fin 8192 =>
      if n.val < 4096 * w then BitVec.ofNat 8 (v / 256 ^ (n.val % w)) else 0⟩)) s
/-- TSETV (R221). -/
def execTsetv (g : BitVec 4) (d : BitVec 3) (v : BitVec 5) (i : BitVec 6) (s : State) : Out :=
  checkedSlot g (fun st =>
    let va := st.vr v
    if !rowTag va.tag.toNat then .error (formatTrap (0x210 + v.toNat))
    else .ok (st.land 2 (.t d.toNat (tileWithRow (st.tr d) va.tag.toNat i.toNat ((List.range 64).map fun l => (va.lane l).toNat))))) s
/-- TGETV (R221). -/
def execTgetv (g : BitVec 4) (a : BitVec 3) (d : BitVec 5) (i : BitVec 6) (s : State) : Out :=
  checkedSlot g (fun st =>
    let r := st.tr a
    if !rowTag r.tag.toNat then .error (formatTrap (0x220 + a.toNat))
    else .ok (st.landV 2 d r.tag (-1) (lanesOf fun l => laneOf r.tag.toNat (tileBits r i.toNat l)))) s
/-- TTAG (R221): among I16, FP16 and BF16. -/
def execTtag (g : BitVec 4) (d : BitVec 3) (f : BitVec 4) (s : State) : Out :=
  checkedSlot g (fun st =>
    let t := (st.tr d).tag
    if t ≠ 2 ∧ t ≠ 5 ∧ t ≠ 6 then .error (formatTrap (0x220 + d.toNat)) else .ok (st.land 1 (.ttag d.toNat f))) s
/-- TFMT (R221). -/
def execTfmt (g : BitVec 4) (a : BitVec 3) (d : BitVec 6) (s : State) : Out :=
  strandSlot g (fun st => st.landX 1 d ((st.tr a).tag.setWidth 64)) s

end Sys2Proof.Machine
end

