-- ==== Sys2Proof/Machine/Scalar.lean ====
section
/-!
DEFINITION. NOP, STALL and the headers (R170 to R172, R184), the scalar instructions (R185 to R188), compares and predicate
operations (R189 to R191).
-/

namespace Sys2Proof.Machine

/-- NOP (R184). -/
def execNop (g : BitVec 4) (s : State) : Out := strandSlot g (fun st => st) s

/-- STALL n (R184): the bundle occupies n steps, the largest count of its STALL slots. -/
def execStall (g : BitVec 4) (n : BitVec 8) (x : Option (BitVec 8)) (s : State) : Out :=
  strandSlot g (fun st => { st with stall := max st.stall ((x.getD 0).toNat * 256 + n.toNat) }) s

/-- LEND (R170): a header takes no effect of its own; its bytes are read with the slots they extend. -/
def execLend (_c _b _a : BitVec 8) (s : State) : Out := runSlot 0 (fun _ s => .ok s) s

/-- REP (R171, R172): REPIDX counts from 0 to n; the step issues the other slots once for each repetition. n = 0 repeats nothing. -/
def execRep (n : BitVec 8) (_z _y _x : BitVec 2) (s : State) : Out :=
  strandSlot 0 (fun st => if n = 0 then st
    else { st with regs := { st.regs with rep := some (st.regs.rep.getD 0), repN := n.toNat } }) s

/-- A scalar result of two registers (R185): f of Xa and Xb lands in Xd. -/
def xrSlot (l : Nat) (f : Word → Word → Word) (g : BitVec 4) (d a b : BitVec 6) (s : State) : Out :=
  strandSlot g (fun st => st.landX l d (f (st.xr a) (st.xr b))) s

/-- Signed quotient of R186: truncated, all ones for b = 0, -2^63 for -2^63 / -1. -/
def divSigned (a b : Word) : Word := if b = 0 then -1 else a.sdiv b
/-- Signed remainder of R186: a for b = 0, the sign of a. -/
def remSigned (a b : Word) : Word := if b = 0 then a else a.srem b
/-- Unsigned quotient of R186. -/
def divUnsigned (a b : Word) : Word := if b = 0 then -1 else a / b
/-- Unsigned remainder of R186. -/
def remUnsigned (a b : Word) : Word := if b = 0 then a else a % b

/-- ADD (R185). -/
def execAdd (g : BitVec 4) (d a b : BitVec 6) (s : State) : Out := xrSlot 1 (fun x y => x + y) g d a b s
/-- SUB (R185). -/
def execSub (g : BitVec 4) (d a b : BitVec 6) (s : State) : Out := xrSlot 1 (fun x y => x - y) g d a b s
/-- MUL (R185): low 64 bits, landing after 3 steps. -/
def execMul (g : BitVec 4) (d a b : BitVec 6) (s : State) : Out := xrSlot 3 (fun x y => x * y) g d a b s
/-- MULH (R185): bits [127:64] of the signed product. -/
def execMulh (g : BitVec 4) (d a b : BitVec 6) (s : State) : Out :=
  xrSlot 3 (fun x y => BitVec.ofInt 64 (x.toInt * y.toInt / 2 ^ 64)) g d a b s
/-- MULHN (R185): bits [127:64] of the unsigned product. -/
def execMulhn (g : BitVec 4) (d a b : BitVec 6) (s : State) : Out :=
  xrSlot 3 (fun x y => BitVec.ofNat 64 (x.toNat * y.toNat / 2 ^ 64)) g d a b s
/-- DIV (R186). -/
def execDiv (g : BitVec 4) (d a b : BitVec 6) (s : State) : Out := xrSlot 12 divSigned g d a b s
/-- DIVN (R186). -/
def execDivn (g : BitVec 4) (d a b : BitVec 6) (s : State) : Out := xrSlot 12 divUnsigned g d a b s
/-- REM (R186). -/
def execRem (g : BitVec 4) (d a b : BitVec 6) (s : State) : Out := xrSlot 12 remSigned g d a b s
/-- REMN (R186). -/
def execRemn (g : BitVec 4) (d a b : BitVec 6) (s : State) : Out := xrSlot 12 remUnsigned g d a b s
/-- AND (R185). -/
def execAnd (g : BitVec 4) (d a b : BitVec 6) (s : State) : Out := xrSlot 1 (fun x y => x &&& y) g d a b s
/-- OR (R185). -/
def execOr (g : BitVec 4) (d a b : BitVec 6) (s : State) : Out := xrSlot 1 (fun x y => x ||| y) g d a b s
/-- XOR (R185). -/
def execXor (g : BitVec 4) (d a b : BitVec 6) (s : State) : Out := xrSlot 1 (fun x y => x ^^^ y) g d a b s
/-- ANDN (R185). -/
def execAndn (g : BitVec 4) (d a b : BitVec 6) (s : State) : Out := xrSlot 1 (fun x y => x &&& ~~~y) g d a b s
/-- SHL (R185): by b[5:0]. -/
def execShl (g : BitVec 4) (d a b : BitVec 6) (s : State) : Out := xrSlot 1 (fun x y => x <<< (y.toNat % 64)) g d a b s
/-- SHR (R185). -/
def execShr (g : BitVec 4) (d a b : BitVec 6) (s : State) : Out := xrSlot 1 (fun x y => x >>> (y.toNat % 64)) g d a b s
/-- SRA (R185). -/
def execSra (g : BitVec 4) (d a b : BitVec 6) (s : State) : Out := xrSlot 1 (fun x y => x.sshiftRight (y.toNat % 64)) g d a b s
/-- MIN (R185). -/
def execMin (g : BitVec 4) (d a b : BitVec 6) (s : State) : Out := xrSlot 1 (fun x y => if x.slt y then x else y) g d a b s
/-- MAX (R185). -/
def execMax (g : BitVec 4) (d a b : BitVec 6) (s : State) : Out := xrSlot 1 (fun x y => if x.slt y then y else x) g d a b s
/-- MINN (R185). -/
def execMinn (g : BitVec 4) (d a b : BitVec 6) (s : State) : Out := xrSlot 1 (fun x y => if x < y then x else y) g d a b s
/-- MAXN (R185). -/
def execMaxn (g : BitVec 4) (d a b : BitVec 6) (s : State) : Out := xrSlot 1 (fun x y => if x < y then y else x) g d a b s
/-- Leading zero bits, 64 for 0 (R185). -/
def leadingZeros (x : Word) : Nat := if x = 0 then 64 else 63 - Nat.log2 x.toNat
/-- CLZ (R185). -/
def execClz (g : BitVec 4) (d a : BitVec 6) (s : State) : Out := xrSlot 1 (fun x _ => BitVec.ofNat 64 (leadingZeros x)) g d a 0 s
/-- CTZ (R185). -/
def execCtz (g : BitVec 4) (d a : BitVec 6) (s : State) : Out := xrSlot 1 (fun x _ => BitVec.ofNat 64 (lowestSet 64 x.toNat)) g d a 0 s
/-- POPC (R185). -/
def execPopc (g : BitVec 4) (d a : BitVec 6) (s : State) : Out := xrSlot 1 (fun x _ => BitVec.ofNat 64 (popCount 64 x.toNat)) g d a 0 s
/-- ADD32 (R185). -/
def execAdd32 (g : BitVec 4) (d a b : BitVec 6) (s : State) : Out := xrSlot 1 (fun x y => sext ((x + y).setWidth 32)) g d a b s
/-- SUB32 (R185). -/
def execSub32 (g : BitVec 4) (d a b : BitVec 6) (s : State) : Out := xrSlot 1 (fun x y => sext ((x - y).setWidth 32)) g d a b s

/-- A scalar result of a register and an immediate (R187). -/
def xiSlot (f : Word → Word) (g : BitVec 4) (d a : BitVec 6) (s : State) : Out :=
  strandSlot g (fun st => st.landX 1 d (f (st.xr a))) s

/-- ADDI (R187). -/
def execAddi (g : BitVec 4) (d a : BitVec 6) (i : BitVec 8) (x : Option (BitVec 8)) (s : State) : Out := xiSlot (fun v => v + immXi x i) g d a s
/-- ANDI (R187). -/
def execAndi (g : BitVec 4) (d a : BitVec 6) (i : BitVec 8) (x : Option (BitVec 8)) (s : State) : Out := xiSlot (fun v => v &&& immXi x i) g d a s
/-- ORI (R187). -/
def execOri (g : BitVec 4) (d a : BitVec 6) (i : BitVec 8) (x : Option (BitVec 8)) (s : State) : Out := xiSlot (fun v => v ||| immXi x i) g d a s
/-- XORI (R187). -/
def execXori (g : BitVec 4) (d a : BitVec 6) (i : BitVec 8) (x : Option (BitVec 8)) (s : State) : Out := xiSlot (fun v => v ^^^ immXi x i) g d a s
/-- SHLI (R187). -/
def execShli (g : BitVec 4) (d a n : BitVec 6) (_x : Option (BitVec 8)) (s : State) : Out := xiSlot (fun v => v <<< n.toNat) g d a s
/-- SHRI (R187). -/
def execShri (g : BitVec 4) (d a n : BitVec 6) (_x : Option (BitVec 8)) (s : State) : Out := xiSlot (fun v => v >>> n.toNat) g d a s
/-- SRAI (R187). -/
def execSrai (g : BitVec 4) (d a n : BitVec 6) (_x : Option (BitVec 8)) (s : State) : Out := xiSlot (fun v => v.sshiftRight n.toNat) g d a s
/-- MOVI (R187). -/
def execMovi (g : BitVec 4) (d : BitVec 6) (i : BitVec 8) (x : Option (BitVec 8)) (s : State) : Out := xiSlot (fun _ => immXi x i) g d 0 s
/-- MOVK (R188): the 16-bit value inserted at 16·sh, the other bits of Xd kept. -/
def execMovk (g : BitVec 4) (d : BitVec 6) (h : BitVec 2) (i : BitVec 8) (x : Option (BitVec 8)) (s : State) : Out :=
  xiSlot (fun v => (v &&& ~~~(0xFFFF#64 <<< (16 * h.toNat))) ||| (zext (immMovk x i) <<< (16 * h.toNat))) g d d s

/-- A compare (R189): the condition lands in Ppd and its complement in Ppd+1. -/
def cmpSlot (f : Word → Word → Bool) (g p : BitVec 4) (a b : BitVec 6) (s : State) : Out :=
  strandSlot g (fun st => st.landPair 1 p.toNat (f (st.xr a) (st.xr b))) s
/-- A compare with an immediate (R189). -/
def cmpiSlot (f : Word → Word → Bool) (g p : BitVec 4) (a : BitVec 6) (i : Word) (s : State) : Out :=
  strandSlot g (fun st => st.landPair 1 p.toNat (f (st.xr a) i)) s

/-- CMPEQ (R189). -/
def execCmpeq (g p : BitVec 4) (a b : BitVec 6) (s : State) : Out := cmpSlot (fun x y => x == y) g p a b s
/-- CMPNE (R189). -/
def execCmpne (g p : BitVec 4) (a b : BitVec 6) (s : State) : Out := cmpSlot (fun x y => x != y) g p a b s
/-- CMPLT (R189). -/
def execCmplt (g p : BitVec 4) (a b : BitVec 6) (s : State) : Out := cmpSlot (fun x y => x.slt y) g p a b s
/-- CMPLE (R189). -/
def execCmple (g p : BitVec 4) (a b : BitVec 6) (s : State) : Out := cmpSlot (fun x y => x.sle y) g p a b s
/-- CMPLTN (R189). -/
def execCmpltn (g p : BitVec 4) (a b : BitVec 6) (s : State) : Out := cmpSlot (fun x y => x.ult y) g p a b s
/-- CMPLEN (R189). -/
def execCmplen (g p : BitVec 4) (a b : BitVec 6) (s : State) : Out := cmpSlot (fun x y => x.ule y) g p a b s
/-- CMPEQI (R189). -/
def execCmpeqi (g p : BitVec 4) (a : BitVec 6) (i : BitVec 9) (x : Option (BitVec 8)) (s : State) : Out :=
  cmpiSlot (fun v w => v == w) g p a (immPc x i) s
/-- CMPLTI (R189). -/
def execCmplti (g p : BitVec 4) (a : BitVec 6) (i : BitVec 9) (x : Option (BitVec 8)) (s : State) : Out :=
  cmpiSlot (fun v w => v.slt w) g p a (immPc x i) s
/-- CMPLEI (R189). -/
def execCmplei (g p : BitVec 4) (a : BitVec 6) (i : BitVec 9) (x : Option (BitVec 8)) (s : State) : Out :=
  cmpiSlot (fun v w => v.sle w) g p a (immPc x i) s
/-- TBIT (R189). -/
def execTbit (g p : BitVec 4) (a n : BitVec 6) (s : State) : Out := cmpiSlot (fun v _ => v.getLsbD n.toNat) g p a 0 s

/-- A predicate operation (R190). -/
def predSlot (f : Bool → Bool → Bool) (g d a b : BitVec 4) (s : State) : Out :=
  strandSlot g (fun st => st.landP 1 d.toNat (f (st.pr a) (st.pr b))) s

/-- PAND (R190). -/
def execPand (g d a b : BitVec 4) (s : State) : Out := predSlot (fun x y => x && y) g d a b s
/-- POR (R190). -/
def execPor (g d a b : BitVec 4) (s : State) : Out := predSlot (fun x y => x || y) g d a b s
/-- PXOR (R190). -/
def execPxor (g d a b : BitVec 4) (s : State) : Out := predSlot (fun x y => x ^^ y) g d a b s
/-- PANDN (R190). -/
def execPandn (g d a b : BitVec 4) (s : State) : Out := predSlot (fun x y => x && !y) g d a b s
/-- PMOV (R190). -/
def execPmov (g d a : BitVec 4) (s : State) : Out := predSlot (fun x _ => x) g d a 0 s
/-- PSET (R190). -/
def execPset (g d : BitVec 4) (v : BitVec 4) (s : State) : Out := predSlot (fun _ _ => v.getLsbD 0) g d 0 0 s
/-- PLOAD (R191): P2 to P15 from Xa[15:2]. -/
def execPload (g : BitVec 4) (a : BitVec 6) (s : State) : Out := strandSlot g (fun st => st.landPreds 1 (st.xr a)) s
/-- PSTORE (R191): Xd receives the predicate word. -/
def execPstore (g : BitVec 4) (d : BitVec 6) (s : State) : Out := strandSlot g (fun st => st.landX 1 d st.predWord) s

end Sys2Proof.Machine
end

