-- ==== Sys2Proof/Machine/SpillOps.lean ====
section
/-!
DEFINITION. Spill (R202, R203): class 0x6, latency 1, on the seat's 512 slots and their tags.
-/

namespace Sys2Proof.Machine

/-- Spill slot i. -/
def Strand.slotAt (st : Strand) (i : Nat) : Word := st.regs.spill[i]?.getD 0

/-- SPLD (R202). -/
def execSpld (g : BitVec 4) (r : BitVec 6) (i : BitVec 9) (s : State) : Out := strandSlot g (fun st => st.landX 1 r (st.slotAt i.toNat)) s
/-- SPST (R202): the slot's tag becomes RAW. -/
def execSpst (g : BitVec 4) (r : BitVec 6) (i : BitVec 9) (s : State) : Out :=
  strandSlot g (fun st => st.land 1 (.spill i.toNat (st.xr r) 0)) s
/-- SPLDV (R202): lanes 2j and 2j+1 from slot s + j, the tag of slot s. -/
def execSpldv (g : BitVec 4) (r : BitVec 5) (i : BitVec 9) (s : State) : Out :=
  strandSlot g (fun st => st.landV 1 r (st.regs.spillTag[i.toNat]?.getD 0) (-1)
    (lanesOf fun l => bitsAt (st.slotAt (i.toNat + l / 2)) (32 * (l % 2)) 32)) s
/-- SPSTV (R202). -/
def execSpstv (g : BitVec 4) (r : BitVec 5) (i : BitVec 9) (s : State) : Out :=
  strandSlot g (fun st =>
    let v := st.vr r
    (List.range 32).foldl (fun st j => st.land 1 (.spill (i.toNat + j) (v.lane (2 * j + 1) ++ v.lane (2 * j)) v.tag)) st) s
/-- SPLDP (R202): Kd, or the predicate word for code 8. -/
def execSpldp (g : BitVec 4) (r : BitVec 6) (i : BitVec 9) (s : State) : Out :=
  strandSlot g (fun st => if r.toNat = 8 then st.landPreds 1 (st.slotAt i.toNat) else st.landK 1 r.toNat (st.slotAt i.toNat)) s
/-- SPSTP (R202). -/
def execSpstp (g : BitVec 4) (r : BitVec 6) (i : BitVec 9) (s : State) : Out :=
  strandSlot g (fun st => st.land 1 (.spill i.toNat (if r.toNat = 8 then st.predWord else st.kr r) 0)) s

end Sys2Proof.Machine
end

