-- ==== Sys2Proof/Machine/System.lean ====
section
/-!
DEFINITION. System instructions (R208 to R211): the special registers R177, SETPRI R43, NOISECTL R80, CHKMODE, TRAPRD, IDLE.
-/

namespace Sys2Proof.Machine

/-- NOISESTAT (R84). -/
def noiseStat (s : State) (st : Strand) : Word :=
  BitVec.ofNat 64 (st.noise.consumed * 2 ^ 32 + (if st.noise.mode = 2 then st.noise.word else 0) * 8 +
    (if s.noiseOff (fieldOf s.cur.tile) then 4 else 0) + st.noise.mode)

/-- The value of special register n at the issue step (R177, R208). -/
def specialRead (s : State) (st : Strand) (n : Nat) : Word :=
  if n = 0x000 then BitVec.ofNat 64 (s.stepOf st.asid)
  else if n = 0x001 then BitVec.ofNat 64 st.clk
  else if n = 0x002 then BitVec.ofNat 64 st.regs.xrot
  else if n = 0x003 then BitVec.ofNat 64 st.regs.prot
  else if n = 0x004 then BitVec.ofNat 64 st.regs.lc
  else if n = 0x005 then BitVec.ofNat 64 st.regs.ec
  else if n = 0x006 then BitVec.ofNat 64 (st.regs.rep.getD 0)
  else if n = 0x007 then flagsWord st.regs.flags
  else if n = 0x008 then st.trapRec[0]?.getD 0
  else if n = 0x009 then st.trapRec[1]?.getD 0
  else if n = 0x00A then st.trapRec[2]?.getD 0
  else if n = 0x00B then BitVec.ofNat 64 (st.recAddr / 64)
  else if n = 0x00C then BitVec.ofNat 64 st.team
  else if n = 0x00D then BitVec.ofNat 64 st.asid
  else if n = 0x00E then BitVec.ofNat 64 st.pri
  else if n = 0x00F then (if st.chk then 1 else 0)
  else if n = 0x010 then noiseStat s st
  else if n = 0x011 then BitVec.ofNat 64 s.cur.tile
  else if n = 0x012 then (if st.noise.mode = 2 then BitVec.ofNat 64 st.noise.slot else 0)
  else if 0x020 ≤ n ∧ n ≤ 0x023 then st.regs.sqlen[n - 0x020]?.getD 0
  else if 0x030 ≤ n ∧ n ≤ 0x035 then st.regs.spcfg (n - 0x030)
  else st.zr (n - 0x040)

/-- The result that a MOVSW of v to special register n queues; none for a register marked RO (R177, R196, R208). -/
def specialWrite (n : Nat) (v : Word) : Option Res :=
  if n = 0x002 then some (.xrot (v.toNat % 32))
  else if n = 0x003 then some (.prot (v.toNat % 8))
  else if n = 0x004 then some (.lcMove (v.toNat % 2 ^ 32))
  else if n = 0x005 then some (.ecMove (v.toNat % 16))
  else if n = 0x007 then some (.flagsMove (flagsOfWord v))
  else if 0x020 ≤ n ∧ n ≤ 0x023 then some (.sqlen (n - 0x020) v)
  else if 0x040 ≤ n ∧ n ≤ 0x05F then some (.z (n - 0x040) v)
  else none

/-- MOVS (R208). -/
def execMovs (g : BitVec 4) (d : BitVec 6) (n : BitVec 10) (s : State) : Out :=
  runSlot g (fun st s => .ok (s.setStrand (st.landX 1 d (specialRead s st n.toNat)))) s
/-- MOVSW (R208). -/
def execMovsw (g : BitVec 4) (a : BitVec 6) (n : BitVec 10) (s : State) : Out :=
  strandSlot g (fun st => match specialWrite n.toNat (st.xr a) with | some r => st.land 1 r | none => st) s
/-- SETPRI (R43): a value above PRI raises privilege unless SERVICE is set. -/
def execSetpri (g : BitVec 4) (a : BitVec 6) (s : State) : Out :=
  checkedSlot g (fun st =>
    let v := (st.xr a).toNat % 256
    if st.pri < v && !st.service then .error (privilegeTrap 0) else .ok (st.land 1 (.pri v))) s
/-- NOISECTL LIVE (R80). -/
def execNoisectlLive (g : BitVec 4) (s : State) : Out := strandSlot g (fun st => st.land 1 (.noise 0 0 0)) s
/-- NOISECTL LOG (R80). -/
def execNoisectlLog (g : BitVec 4) (a : BitVec 6) (s : State) : Out := strandSlot g (fun st => st.land 1 (.noise 1 (st.xr a).toNat 0)) s
/-- NOISECTL REPLAY (R80). -/
def execNoisectlReplay (g : BitVec 4) (a b : BitVec 6) (s : State) : Out :=
  strandSlot g (fun st => st.land 1 (.noise 2 (st.xr a).toNat (st.xr b).toNat)) s
/-- CHKMODE (R209). -/
def execChkmode (g : BitVec 4) (o : BitVec 1) (s : State) : Out := strandSlot g (fun st => st.land 1 (.chk (o == 1))) s
/-- TRAPRD (R210): outside handler mode it raises privilege. -/
def execTraprd (g : BitVec 4) (d : BitVec 6) (n : BitVec 3) (s : State) : Out :=
  checkedSlot g (fun st => if st.handler.isSome then .ok (st.landX 1 d (st.trapRec[n.toNat]?.getD 0)) else .error (privilegeTrap 0)) s
/-- IDLE (R211): the seat freezes for Xa[31:0] cycles. -/
def execIdle (g : BitVec 4) (a : BitVec 6) (s : State) : Out :=
  strandSlot g (fun st => let n := (st.xr a).toNat % 2 ^ 32; if n = 0 then st else { st with idle := some n }) s

end Sys2Proof.Machine
end

