-- ==== Sys2Proof/Machine/Transform.lean ====
section
/-!
DEFINITION. Transform (R222 to R227): class 0xA.
-/

namespace Sys2Proof.Machine

/-- A slot that draws n noise words (R76) and, in LOG and REPLAY mode, makes its bundle a mark (R81). One that draws none makes no mark: the
model's choice (notes/assumptions/66.md). -/
def noiseSlot (g : BitVec 4) (count : Strand → Except Trap Nat) (act : Strand → (Nat → Nat) → Strand) (s : State) : Out :=
  runSlot g (fun st s =>
    match count st with
    | .error t => .error t
    | .ok n =>
      match s.drawNoise n with
      | .error t => .error t
      | .ok (ws, s) =>
        match (if n = 0 then .ok s else s.noiseMark) with
        | .error t => .error t
        | .ok s =>
          let a := ws.toArray
          match s.strand with
          | none => .ok s
          | some st => .ok (s.setStrand (act st fun k => (a.getD k 0).toNat))) s

/-- The bytes of a V register: lane l holds bytes 4l to 4l + 3 (R227). -/
def VReg.byte (v : VReg) (k : Nat) : Byte := BitVec.ofNat 8 ((v.lane (k / 4)).toNat / 256 ^ (k % 4))

/-- XPAND (R227): an element that the bitmap names is written as it stands, a −0 too. -/
def execXpand (g : BitVec 4) (d : BitVec 3) (a : BitVec 5) (f : BitVec 4) (i : BitVec 6) (s : State) : Out :=
  checkedSlot g (fun st =>
    let va := st.vr a
    if va.tag ≠ 0 then .error (formatTrap (0x210 + a.toNat))
    else
      let row := (packedRow f.toNat va.byte 0).1
      .ok (st.land 6 (.t d.toNat (tileWithRow (st.tr d) f.toNat i.toNat row)))) s

/-- XPOSE (R223). -/
def execXpose (g : BitVec 4) (d a : BitVec 3) (s : State) : Out := strandSlot g (fun st => st.land 4 (.t d.toNat (tileTranspose (st.tr a)))) s

/-- The tags that XCONV converts between (R224). -/
def convTag (t : Nat) : Bool := rowTag t || isSq t

/-- XCONV (R224). -/
def execXconv (g : BitVec 4) (d a : BitVec 3) (f : BitVec 4) (r : BitVec 3) (x : BitVec 1) (s : State) : Out :=
  noiseSlot g (fun st =>
    let t := (st.tr a).tag.toNat
    if !convTag t then .error (formatTrap (0x220 + a.toNat))
    else .ok (if t ≠ f.toNat ∧ r = 6 then 4096 else 0))
    (fun st word =>
      let src := st.tr a
      let t := src.tag.toNat
      if t = f.toNat then st.land 3 (.t d.toNat (if x = 1 then tileTranspose src else src))
      else
        let y : Nat → Nat → Val := fun i j => if x = 1 then tileVal src j i else tileVal src i j
        let (bs, fl) := convertRows f.toNat r.toNat (t == 1 || t == 2) 64 y word
        (st.land 3 (.t d.toNat (tileOf f bs))).landFlags 3 fl) s

/-- The lanes of a run converted in order under a mask (R225): lane, bits; the carried error passes over unconverted lanes, and
every 16th lane begins a group. -/
def convertLanes (src fmt mode : Nat) (v : VReg) (mask : Word) (word : Nat → Nat) : List Nat → Nat → Val → List (Nat × Nat) × Flags
  | [], _, _ => ([], 0)
  | l :: ls, n, e =>
    let e := if l % 16 = 0 then .num false 0 0 else e
    if !mask.getLsbD l then convertLanes src fmt mode v mask word ls n e
    else
      let x := valueOf src (v.lane l).toNat
      let ints := isIntTag src
      let ((y, f), e') := if mode = 5 then convertFed fmt ints e x else (convertOne fmt mode (word n) ints x, e)
      let (rest, f') := convertLanes src fmt mode v mask word ls (n + 1) e'
      ((l, y) :: rest, f ||| f')

/-- The tags that VCONV converts between (R225): I8 to FP32. -/
def laneTag (t : Nat) : Bool := 1 ≤ t && t ≤ 7

/-- VCONV (R225). -/
def execVconv (g : BitVec 4) (d a : BitVec 5) (f : BitVec 4) (r : BitVec 3) (k : BitVec 3) (s : State) : Out :=
  noiseSlot g (fun st =>
    if !laneTag (st.vr a).tag.toNat then .error (formatTrap (0x210 + a.toNat))
    else .ok (if r = 6 then popCount 64 (st.kr k).toNat else 0))
    (fun st word =>
      let va := st.vr a
      let mask := st.kr k
      let (zs, fl) := convertLanes va.tag.toNat f.toNat r.toNat va mask word (List.range 64) 0 (.num false 0 0)
      let out := lanesOf fun l => match zs.find? fun z => z.1 == l with | some z => laneOf f.toNat z.2 | none => 0
      (st.landV 2 d f mask out).landFlags 2 fl) s

/-- The index of lane l of an index vector, none outside 0 to 63 (R226). -/
def laneIndex (v : VReg) (l : Nat) : Option Nat :=
  let x := laneInt v.tag.toNat (v.lane l)
  if x < 0 ∨ 63 < x then none else some x.toNat

/-- XPERM (R226). -/
def execXperm (g : BitVec 4) (d a b : BitVec 5) (k : BitVec 3) (s : State) : Out :=
  checkedSlot g (fun st =>
    let va := st.vr a
    let vb := st.vr b
    if vb.tag ≠ 3 ∧ vb.tag ≠ 4 then .error (formatTrap (0x210 + b.toNat))
    else
      let mask := st.kr k
      let out := lanesOf fun l => match laneIndex vb l with | some i => va.lane i | none => 0
      let bad := (List.range 64).any fun l => mask.getLsbD l && (laneIndex vb l).isNone
      .ok ((st.landV 2 d va.tag mask out).landFlags 2 (if bad then flOOR else 0))) s

/-- XPACK (R227): lane 63 holds the packed length. -/
def execXpack (g : BitVec 4) (d : BitVec 5) (a : BitVec 3) (i : BitVec 6) (s : State) : Out :=
  checkedSlot g (fun st =>
    let r := st.tr a
    let t := r.tag.toNat
    if !rowTag t then .error (formatTrap (0x220 + a.toNat))
    else
      let bs := (packRow t ((List.range 64).map (tileBits r i.toNat))).toArray
      .ok (st.landV 6 d 0 (-1) (lanesOf fun l =>
        if l = 63 then BitVec.ofNat 32 bs.size else BitVec.ofNat 32 (leNat ((List.range 4).map fun k => bs.getD (4 * l + k) 0))))) s

end Sys2Proof.Machine
end

