-- ==== Sys2Proof/Machine/VectorOps.lean ====
section
/-!
DEFINITION. Vector lanes (R204 to R207): class 0x7, latency 2.
-/

namespace Sys2Proof.Machine

/-- The tag check of R204 on one source: format 0x210 + v unless it holds an integer tag. -/
def needInt (n : Nat) (v : VReg) : Option Trap := if isIntTag v.tag.toNat then none else some (formatTrap (0x210 + n))

/-- The tag check of a two-source instruction (R204): va first, then vb, which must carry va's tag. -/
def needInts (na nb : Nat) (a b : VReg) : Option Trap :=
  match needInt na a with
  | some t => some t
  | none => if isIntTag b.tag.toNat && a.tag == b.tag then none else some (formatTrap (0x210 + nb))

/-- A two-source lane operation under a mask (R206): f takes the element width, the tag and the low bits of both elements. -/
def vvSlot (f : Nat → Nat → Nat → Nat → Nat) (g : BitVec 4) (d a b : BitVec 5) (k : BitVec 3) (s : State) : Out :=
  checkedSlot g (fun st =>
    let va := st.vr a
    let vb := st.vr b
    match needInts a.toNat b.toNat va vb with
    | some t => .error t
    | none =>
      let t := va.tag.toNat
      let w := laneBits t
      .ok (st.landV 2 d va.tag (st.kr k) (lanesOf fun l => laneOf t (f w t ((va.lane l).toNat % 2 ^ w) ((vb.lane l).toNat % 2 ^ w))))) s

/-- A shift count: the low log2 w bits of b (R206). -/
def laneShift (w b : Nat) : Nat := b % w

/-- VADD (R206). -/
def execVadd (g : BitVec 4) (d a b : BitVec 5) (k : BitVec 3) (s : State) : Out := vvSlot (fun _ _ x y => x + y) g d a b k s
/-- VSUB (R206). -/
def execVsub (g : BitVec 4) (d a b : BitVec 5) (k : BitVec 3) (s : State) : Out := vvSlot (fun w _ x y => x + (2 ^ w - y)) g d a b k s
/-- VMUL (R206). -/
def execVmul (g : BitVec 4) (d a b : BitVec 5) (k : BitVec 3) (s : State) : Out := vvSlot (fun _ _ x y => x * y) g d a b k s
/-- VAND (R206). -/
def execVand (g : BitVec 4) (d a b : BitVec 5) (k : BitVec 3) (s : State) : Out := vvSlot (fun _ _ x y => x &&& y) g d a b k s
/-- VOR (R206). -/
def execVor (g : BitVec 4) (d a b : BitVec 5) (k : BitVec 3) (s : State) : Out := vvSlot (fun _ _ x y => x ||| y) g d a b k s
/-- VXOR (R206). -/
def execVxor (g : BitVec 4) (d a b : BitVec 5) (k : BitVec 3) (s : State) : Out := vvSlot (fun _ _ x y => x ^^^ y) g d a b k s
/-- VSHL (R206). -/
def execVshl (g : BitVec 4) (d a b : BitVec 5) (k : BitVec 3) (s : State) : Out := vvSlot (fun w _ x y => x * 2 ^ laneShift w y) g d a b k s
/-- VSHR (R206). -/
def execVshr (g : BitVec 4) (d a b : BitVec 5) (k : BitVec 3) (s : State) : Out := vvSlot (fun w _ x y => x / 2 ^ laneShift w y) g d a b k s
/-- VSRA (R206): sign fill within w bits. -/
def execVsra (g : BitVec 4) (d a b : BitVec 5) (k : BitVec 3) (s : State) : Out :=
  vvSlot (fun w _ x y => lowBits w (signedOf w x / 2 ^ laneShift w y)) g d a b k s
/-- VMIN (R206): signed on w bits. -/
def execVmin (g : BitVec 4) (d a b : BitVec 5) (k : BitVec 3) (s : State) : Out :=
  vvSlot (fun w _ x y => if signedOf w x < signedOf w y then x else y) g d a b k s
/-- VMAX (R206). -/
def execVmax (g : BitVec 4) (d a b : BitVec 5) (k : BitVec 3) (s : State) : Out :=
  vvSlot (fun w _ x y => if signedOf w x < signedOf w y then y else x) g d a b k s
/-- VMINN (R206): unsigned on w bits. -/
def execVminn (g : BitVec 4) (d a b : BitVec 5) (k : BitVec 3) (s : State) : Out := vvSlot (fun _ _ x y => if x < y then x else y) g d a b k s
/-- VMAXN (R206). -/
def execVmaxn (g : BitVec 4) (d a b : BitVec 5) (k : BitVec 3) (s : State) : Out := vvSlot (fun _ _ x y => if x < y then y else x) g d a b k s

/-- VSEL (R206): a where the mask bit is 1, else b; every lane is written. -/
def execVsel (g : BitVec 4) (d a b : BitVec 5) (k : BitVec 3) (s : State) : Out :=
  checkedSlot g (fun st =>
    let va := st.vr a
    let vb := st.vr b
    match needInts a.toNat b.toNat va vb with
    | some t => .error t
    | none => .ok (st.landV 2 d va.tag (-1) (lanesOf fun l =>
        laneOf va.tag.toNat ((if (st.kr k).getLsbD l then va.lane l else vb.lane l).toNat % 2 ^ laneBits va.tag.toNat)))) s

/-- A vector compare (R207): Kd the condition, Kd+1 the complement, both 0 in lanes off in Kk. -/
def vcmpSlot (f : Nat → Nat → Nat → Bool) (g : BitVec 4) (d : BitVec 3) (a b : BitVec 5) (k : BitVec 3) (s : State) : Out :=
  checkedSlot g (fun st =>
    let va := st.vr a
    let vb := st.vr b
    match needInts a.toNat b.toNat va vb with
    | some t => .error t
    | none =>
      let w := laneBits va.tag.toNat
      let c : Nat → Bool := fun l => f w ((va.lane l).toNat % 2 ^ w) ((vb.lane l).toNat % 2 ^ w)
      let word : Bool → Word := fun b => BitVec.ofNat 64 (((List.range 64).map fun l => if (st.kr k).getLsbD l && (c l == b) then 2 ^ l else 0).sum)
      .ok ((st.landK 2 d.toNat (word true)).landK 2 (d.toNat + 1) (word false))) s

/-- VCMPEQ (R206, R207). -/
def execVcmpeq (g : BitVec 4) (d : BitVec 3) (a b : BitVec 5) (k : BitVec 3) (s : State) : Out := vcmpSlot (fun _ x y => x == y) g d a b k s
/-- VCMPLT. -/
def execVcmplt (g : BitVec 4) (d : BitVec 3) (a b : BitVec 5) (k : BitVec 3) (s : State) : Out :=
  vcmpSlot (fun w x y => decide (signedOf w x < signedOf w y)) g d a b k s
/-- VCMPLE. -/
def execVcmple (g : BitVec 4) (d : BitVec 3) (a b : BitVec 5) (k : BitVec 3) (s : State) : Out :=
  vcmpSlot (fun w x y => decide (signedOf w x ≤ signedOf w y)) g d a b k s
/-- VCMPLTN. -/
def execVcmpltn (g : BitVec 4) (d : BitVec 3) (a b : BitVec 5) (k : BitVec 3) (s : State) : Out := vcmpSlot (fun _ x y => decide (x < y)) g d a b k s

/-- VIOTA (R206): set bits of Kk below the lane, tag N32. -/
def execViota (g : BitVec 4) (d : BitVec 5) (k : BitVec 3) (s : State) : Out :=
  strandSlot g (fun st => st.landV 2 d 4 (-1) (lanesOf fun l => BitVec.ofNat 32 (popCount l (st.kr k).toNat))) s
/-- VBCAST (R207). -/
def execVbcast (g : BitVec 4) (d : BitVec 5) (x : BitVec 6) (t : BitVec 4) (k : BitVec 3) (s : State) : Out :=
  strandSlot g (fun st => st.landV 2 d t (st.kr k) (lanesOf fun _ => laneOf t.toNat ((st.xr x).toNat % 2 ^ laneBits t.toNat))) s
/-- VEXT (R207): the element of lane Xb[5:0]. -/
def execVext (g : BitVec 4) (d : BitVec 6) (a : BitVec 5) (b : BitVec 6) (s : State) : Out :=
  checkedSlot g (fun st => match needInt a.toNat (st.vr a) with
    | some t => .error t
    | none => .ok (st.landX 2 d (BitVec.ofInt 64 (laneInt (st.vr a).tag.toNat ((st.vr a).lane ((st.xr b).toNat % 64)))))) s
/-- VINS (R207): the whole register lands; Vd must hold an integer tag. -/
def execVins (g : BitVec 4) (d : BitVec 5) (a b : BitVec 6) (s : State) : Out :=
  checkedSlot g (fun st => match needInt d.toNat (st.vr d) with
    | some t => .error t
    | none =>
      let v := st.vr d
      .ok (st.landV 2 d v.tag (-1) (lanesOf fun l =>
        if l = (st.xr b).toNat % 64 then laneOf v.tag.toNat ((st.xr a).toNat % 2 ^ laneBits v.tag.toNat) else v.lane l))) s
/-- VPOPC (R207). -/
def execVpopc (g : BitVec 4) (d : BitVec 6) (k : BitVec 3) (s : State) : Out :=
  strandSlot g (fun st => st.landX 2 d (BitVec.ofNat 64 (popCount 64 (st.kr k).toNat))) s
/-- VFIRST (R207): the lowest set bit, 64 for none. -/
def execVfirst (g : BitVec 4) (d : BitVec 6) (k : BitVec 3) (s : State) : Out :=
  strandSlot g (fun st => st.landX 2 d (BitVec.ofNat 64 (lowestSet 64 (st.kr k).toNat))) s
/-- VPACK (R206): the selected lanes packed, the rest 0. -/
def execVpack (g : BitVec 4) (d a : BitVec 5) (k : BitVec 3) (s : State) : Out :=
  checkedSlot g (fun st => match needInt a.toNat (st.vr a) with
    | some t => .error t
    | none =>
      let v := st.vr a
      let sel := (setBits 64 (st.kr k).toNat).map fun l => laneOf v.tag.toNat ((v.lane l).toNat % 2 ^ laneBits v.tag.toNat)
      .ok (st.landV 2 d v.tag (-1) (lanesOf fun l => sel.getD l 0))) s

/-- A mask operation (R206). -/
def kSlot (f : Word → Word → Word) (g : BitVec 4) (d a b : BitVec 3) (s : State) : Out :=
  strandSlot g (fun st => st.landK 2 d.toNat (f (st.kr a) (st.kr b))) s
/-- KAND. -/
def execKand (g : BitVec 4) (d a b : BitVec 3) (s : State) : Out := kSlot (fun x y => x &&& y) g d a b s
/-- KOR. -/
def execKor (g : BitVec 4) (d a b : BitVec 3) (s : State) : Out := kSlot (fun x y => x ||| y) g d a b s
/-- KXOR. -/
def execKxor (g : BitVec 4) (d a b : BitVec 3) (s : State) : Out := kSlot (fun x y => x ^^^ y) g d a b s
/-- KMOV. -/
def execKmov (g : BitVec 4) (d a : BitVec 3) (s : State) : Out := kSlot (fun x _ => x) g d a 0 s
/-- VMOV (R206): the lane bits of Va under the mask, any tag. -/
def execVmov (g : BitVec 4) (d a _b : BitVec 5) (k : BitVec 3) (s : State) : Out :=
  strandSlot g (fun st => st.landV 2 d (st.vr a).tag (st.kr k) (st.vr a).lanes) s
/-- VTAG (R207): the tag set, the lanes unchanged. -/
def execVtag (g : BitVec 4) (d : BitVec 5) (t : BitVec 4) (s : State) : Out := strandSlot g (fun st => st.land 2 (.vtag d.toNat t)) s
/-- VFMT (R207). -/
def execVfmt (g : BitVec 4) (d : BitVec 6) (a : BitVec 5) (s : State) : Out := strandSlot g (fun st => st.landX 2 d (zext (st.vr a).tag)) s

end Sys2Proof.Machine
end

