-- ==== Sys2Proof/Machine/Dispatch.lean ====
section
/-!
DEFINITION. The dispatch: one arm for each row of the opcode table, each a direct call of its meaning.
-/

namespace Sys2Proof.Machine

def exec (i : Instr) (s : State) : Host.Outcome State Fault Refusal :=
  match i with
  | .nop g => Sys2Proof.Machine.execNop g s
  | .stall g n x => Sys2Proof.Machine.execStall g n x s
  | .add g d a b => Sys2Proof.Machine.execAdd g d a b s
  | .sub g d a b => Sys2Proof.Machine.execSub g d a b s
  | .mul g d a b => Sys2Proof.Machine.execMul g d a b s
  | .mulh g d a b => Sys2Proof.Machine.execMulh g d a b s
  | .mulhn g d a b => Sys2Proof.Machine.execMulhn g d a b s
  | .div g d a b => Sys2Proof.Machine.execDiv g d a b s
  | .divn g d a b => Sys2Proof.Machine.execDivn g d a b s
  | .rem g d a b => Sys2Proof.Machine.execRem g d a b s
  | .remn g d a b => Sys2Proof.Machine.execRemn g d a b s
  | .and g d a b => Sys2Proof.Machine.execAnd g d a b s
  | .or g d a b => Sys2Proof.Machine.execOr g d a b s
  | .xor g d a b => Sys2Proof.Machine.execXor g d a b s
  | .andn g d a b => Sys2Proof.Machine.execAndn g d a b s
  | .shl g d a b => Sys2Proof.Machine.execShl g d a b s
  | .shr g d a b => Sys2Proof.Machine.execShr g d a b s
  | .sra g d a b => Sys2Proof.Machine.execSra g d a b s
  | .min g d a b => Sys2Proof.Machine.execMin g d a b s
  | .max g d a b => Sys2Proof.Machine.execMax g d a b s
  | .minn g d a b => Sys2Proof.Machine.execMinn g d a b s
  | .maxn g d a b => Sys2Proof.Machine.execMaxn g d a b s
  | .clz g d a => Sys2Proof.Machine.execClz g d a s
  | .ctz g d a => Sys2Proof.Machine.execCtz g d a s
  | .popc g d a => Sys2Proof.Machine.execPopc g d a s
  | .add32 g d a b => Sys2Proof.Machine.execAdd32 g d a b s
  | .sub32 g d a b => Sys2Proof.Machine.execSub32 g d a b s
  | .addi g d a i_ x => Sys2Proof.Machine.execAddi g d a i_ x s
  | .andi g d a i_ x => Sys2Proof.Machine.execAndi g d a i_ x s
  | .ori g d a i_ x => Sys2Proof.Machine.execOri g d a i_ x s
  | .xori g d a i_ x => Sys2Proof.Machine.execXori g d a i_ x s
  | .shli g d a s_ x => Sys2Proof.Machine.execShli g d a s_ x s
  | .shri g d a s_ x => Sys2Proof.Machine.execShri g d a s_ x s
  | .srai g d a s_ x => Sys2Proof.Machine.execSrai g d a s_ x s
  | .movi g d i_ x => Sys2Proof.Machine.execMovi g d i_ x s
  | .movk g d h i_ x => Sys2Proof.Machine.execMovk g d h i_ x s
  | .cmpeq g p a b => Sys2Proof.Machine.execCmpeq g p a b s
  | .cmpne g p a b => Sys2Proof.Machine.execCmpne g p a b s
  | .cmplt g p a b => Sys2Proof.Machine.execCmplt g p a b s
  | .cmple g p a b => Sys2Proof.Machine.execCmple g p a b s
  | .cmpltn g p a b => Sys2Proof.Machine.execCmpltn g p a b s
  | .cmplen g p a b => Sys2Proof.Machine.execCmplen g p a b s
  | .cmpeqi g p a i_ x => Sys2Proof.Machine.execCmpeqi g p a i_ x s
  | .cmplti g p a i_ x => Sys2Proof.Machine.execCmplti g p a i_ x s
  | .cmplei g p a i_ x => Sys2Proof.Machine.execCmplei g p a i_ x s
  | .tbit g p a n => Sys2Proof.Machine.execTbit g p a n s
  | .pand g d a b => Sys2Proof.Machine.execPand g d a b s
  | .por g d a b => Sys2Proof.Machine.execPor g d a b s
  | .pxor g d a b => Sys2Proof.Machine.execPxor g d a b s
  | .pandn g d a b => Sys2Proof.Machine.execPandn g d a b s
  | .pmov g d a => Sys2Proof.Machine.execPmov g d a s
  | .pset g d v => Sys2Proof.Machine.execPset g d v s
  | .pload g x => Sys2Proof.Machine.execPload g x s
  | .pstore g x => Sys2Proof.Machine.execPstore g x s
  | .br g o x => Sys2Proof.Machine.execBr g o x s
  | .call g o x => Sys2Proof.Machine.execCall g o x s
  | .jmp g a => Sys2Proof.Machine.execJmp g a s
  | .callx g a => Sys2Proof.Machine.execCallx g a s
  | .loop g a e l x => Sys2Proof.Machine.execLoop g a e l x s
  | .mark g => Sys2Proof.Machine.execMark g s
  | .park g a b => Sys2Proof.Machine.execPark g a b s
  | .exit g => Sys2Proof.Machine.execExit g s
  | .trap g c => Sys2Proof.Machine.execTrap g c s
  | .spool g n l => Sys2Proof.Machine.execSpool g n l s
  | .spbrk g l => Sys2Proof.Machine.execSpbrk g l s
  | .eret g => Sys2Proof.Machine.execEret g s
  | .ld8 g h d c x => Sys2Proof.Machine.execLd8 g h d c x s
  | .ld16 g h d c x => Sys2Proof.Machine.execLd16 g h d c x s
  | .ld32 g h d c x => Sys2Proof.Machine.execLd32 g h d c x s
  | .ld64 g h d c x => Sys2Proof.Machine.execLd64 g h d c x s
  | .ld8s g h d c x => Sys2Proof.Machine.execLd8s g h d c x s
  | .ld16s g h d c x => Sys2Proof.Machine.execLd16s g h d c x s
  | .ld32s g h d c x => Sys2Proof.Machine.execLd32s g h d c x s
  | .st8 g h d c x => Sys2Proof.Machine.execSt8 g h d c x s
  | .st16 g h d c x => Sys2Proof.Machine.execSt16 g h d c x s
  | .st32 g h d c x => Sys2Proof.Machine.execSt32 g h d c x s
  | .st64 g h d c x => Sys2Proof.Machine.execSt64 g h d c x s
  | .ldv g h d c x => Sys2Proof.Machine.execLdv g h d c x s
  | .stv g h d c x => Sys2Proof.Machine.execStv g h d c x s
  | .ldvx g h d c x => Sys2Proof.Machine.execLdvx g h d c x s
  | .stvx g h d c x => Sys2Proof.Machine.execStvx g h d c x s
  | .ldt g h d c x => Sys2Proof.Machine.execLdt g h d c x s
  | .stt g h d c x => Sys2Proof.Machine.execStt g h d c x s
  | .lds g h d c x => Sys2Proof.Machine.execLds g h d c x s
  | .ldsv g h d c x => Sys2Proof.Machine.execLdsv g h d c x s
  | .spld g r s_ => Sys2Proof.Machine.execSpld g r s_ s
  | .spst g r s_ => Sys2Proof.Machine.execSpst g r s_ s
  | .spldv g r s_ => Sys2Proof.Machine.execSpldv g r s_ s
  | .spstv g r s_ => Sys2Proof.Machine.execSpstv g r s_ s
  | .spldp g r s_ => Sys2Proof.Machine.execSpldp g r s_ s
  | .spstp g r s_ => Sys2Proof.Machine.execSpstp g r s_ s
  | .vadd g d a b k => Sys2Proof.Machine.execVadd g d a b k s
  | .vsub g d a b k => Sys2Proof.Machine.execVsub g d a b k s
  | .vmul g d a b k => Sys2Proof.Machine.execVmul g d a b k s
  | .vand g d a b k => Sys2Proof.Machine.execVand g d a b k s
  | .vor g d a b k => Sys2Proof.Machine.execVor g d a b k s
  | .vxor g d a b k => Sys2Proof.Machine.execVxor g d a b k s
  | .vshl g d a b k => Sys2Proof.Machine.execVshl g d a b k s
  | .vshr g d a b k => Sys2Proof.Machine.execVshr g d a b k s
  | .vsra g d a b k => Sys2Proof.Machine.execVsra g d a b k s
  | .vmin g d a b k => Sys2Proof.Machine.execVmin g d a b k s
  | .vmax g d a b k => Sys2Proof.Machine.execVmax g d a b k s
  | .vminn g d a b k => Sys2Proof.Machine.execVminn g d a b k s
  | .vmaxn g d a b k => Sys2Proof.Machine.execVmaxn g d a b k s
  | .vsel g d a b k => Sys2Proof.Machine.execVsel g d a b k s
  | .vcmpeq g d a b k => Sys2Proof.Machine.execVcmpeq g d a b k s
  | .vcmplt g d a b k => Sys2Proof.Machine.execVcmplt g d a b k s
  | .vcmple g d a b k => Sys2Proof.Machine.execVcmple g d a b k s
  | .vcmpltn g d a b k => Sys2Proof.Machine.execVcmpltn g d a b k s
  | .viota g d k => Sys2Proof.Machine.execViota g d k s
  | .vbcast g d x t k => Sys2Proof.Machine.execVbcast g d x t k s
  | .vext g d a b => Sys2Proof.Machine.execVext g d a b s
  | .vins g d a b => Sys2Proof.Machine.execVins g d a b s
  | .vpopc g d k => Sys2Proof.Machine.execVpopc g d k s
  | .vfirst g d k => Sys2Proof.Machine.execVfirst g d k s
  | .vpack g d a k => Sys2Proof.Machine.execVpack g d a k s
  | .kand g d a b => Sys2Proof.Machine.execKand g d a b s
  | .kor g d a b => Sys2Proof.Machine.execKor g d a b s
  | .kxor g d a b => Sys2Proof.Machine.execKxor g d a b s
  | .kmov g d a => Sys2Proof.Machine.execKmov g d a s
  | .vmov g d a b k => Sys2Proof.Machine.execVmov g d a b k s
  | .vtag g d t => Sys2Proof.Machine.execVtag g d t s
  | .vfmt g d a => Sys2Proof.Machine.execVfmt g d a s
  | .mload g s_ t => Sys2Proof.Machine.execMload g s_ t s
  | .mloadg g s_ t => Sys2Proof.Machine.execMloadg g s_ t s
  | .mpush g a s_ r h t => Sys2Proof.Machine.execMpush g a s_ r h t s
  | .mpushl g a r h t => Sys2Proof.Machine.execMpushl g a r h t s
  | .mpushg g a s_ r h t => Sys2Proof.Machine.execMpushg g a s_ r h t s
  | .mzero g a f => Sys2Proof.Machine.execMzero g a f s
  | .minit g a s_ => Sys2Proof.Machine.execMinit g a s_ s
  | .mshift g a k => Sys2Proof.Machine.execMshift g a k s
  | .mswap g a => Sys2Proof.Machine.execMswap g a s
  | .mdrain g a r m => Sys2Proof.Machine.execMdrain g a r m s
  | .gset g t x => Sys2Proof.Machine.execGset g t x s
  | .gidx g t v k e => Sys2Proof.Machine.execGidx g t v k e s
  | .gdiag g t v e => Sys2Proof.Machine.execGdiag g t v e s
  | .gband g t x k v => Sys2Proof.Machine.execGband g t x k v s
  | .tzero g t f => Sys2Proof.Machine.execTzero g t f s
  | .tmove g t a => Sys2Proof.Machine.execTmove g t a s
  | .tfill g t x f => Sys2Proof.Machine.execTfill g t x f s
  | .tsetv g t v i_ => Sys2Proof.Machine.execTsetv g t v i_ s
  | .tgetv g t v i_ => Sys2Proof.Machine.execTgetv g t v i_ s
  | .ttag g t f => Sys2Proof.Machine.execTtag g t f s
  | .tfmt g t x => Sys2Proof.Machine.execTfmt g t x s
  | .xpand g d s_ f i_ => Sys2Proof.Machine.execXpand g d s_ f i_ s
  | .xpose g d s_ => Sys2Proof.Machine.execXpose g d s_ s
  | .xconv g d s_ f r x => Sys2Proof.Machine.execXconv g d s_ f r x s
  | .vconv g d s_ f r k => Sys2Proof.Machine.execVconv g d s_ f r k s
  | .xperm g d s_ b k => Sys2Proof.Machine.execXperm g d s_ b k s
  | .xpack g d s_ i_ => Sys2Proof.Machine.execXpack g d s_ i_ s
  | .dfcfg g n f r z k => Sys2Proof.Machine.execDfcfg g n f r z k s
  | .dfdstNone g => Sys2Proof.Machine.execDfdstNone g s
  | .dfdstT g n => Sys2Proof.Machine.execDfdstT g n s
  | .dfdstH g h c => Sys2Proof.Machine.execDfdstH g h c s
  | .dfscale g x b s_ v => Sys2Proof.Machine.execDfscale g x b s_ v s
  | .dfmask g h x q => Sys2Proof.Machine.execDfmask g h x q s
  | .dfrow g m s_ x y => Sys2Proof.Machine.execDfrow g m s_ x y s
  | .dfmass g h x n => Sys2Proof.Machine.execDfmass g h x n s
  | .dfv g d a b f => Sys2Proof.Machine.execDfv g d a b f s
  | .dfstat g d w => Sys2Proof.Machine.execDfstat g d w s
  | .copy g q r s_ k m w => Sys2Proof.Machine.execCopy g q r s_ k m w s
  | .copym g q r s_ k m w => Sys2Proof.Machine.execCopym g q r s_ k m w s
  | .cexp g q r s_ k m w => Sys2Proof.Machine.execCexp g q r s_ k m w s
  | .gath g v => Sys2Proof.Machine.execGath g v s
  | .pool g q r s_ k m w => Sys2Proof.Machine.execPool g q r s_ k m w s
  | .sfork g q r s_ k m w => Sys2Proof.Machine.execSfork g q r s_ k m w s
  | .sretire g q r s_ k m w => Sys2Proof.Machine.execSretire g q r s_ k m w s
  | .stld g q r s_ k m w => Sys2Proof.Machine.execStld g q r s_ k m w s
  | .stinv g q r s_ k m w => Sys2Proof.Machine.execStinv g q r s_ k m w s
  | .ballast g q r s_ k m w => Sys2Proof.Machine.execBallast g q r s_ k m w s
  | .fput g q r s_ k m w => Sys2Proof.Machine.execFput g q r s_ k m w s
  | .fget g q r s_ k m w => Sys2Proof.Machine.execFget g q r s_ k m w s
  | .fred g q r s_ k m w => Sys2Proof.Machine.execFred g q r s_ k m w s
  | .launch g r s_ p => Sys2Proof.Machine.execLaunch g r s_ p s
  | .offload g q r s_ k h => Sys2Proof.Machine.execOffload g q r s_ k h s
  | .recall g q r s_ k h => Sys2Proof.Machine.execRecall g q r s_ k h s
  | .cadd g o s_ a b => Sys2Proof.Machine.execCadd g o s_ a b s
  | .cwait g o s_ a b => Sys2Proof.Machine.execCwait g o s_ a b s
  | .cread g o s_ a b => Sys2Proof.Machine.execCread g o s_ a b s
  | .craise g o s_ a b => Sys2Proof.Machine.execCraise g o s_ a b s
  | .aadd g d a b => Sys2Proof.Machine.execAadd g d a b s
  | .amin g d a b => Sys2Proof.Machine.execAmin g d a b s
  | .amax g d a b => Sys2Proof.Machine.execAmax g d a b s
  | .axchg g d a b => Sys2Proof.Machine.execAxchg g d a b s
  | .acas g d a b => Sys2Proof.Machine.execAcas g d a b s
  | .aand g d a b => Sys2Proof.Machine.execAand g d a b s
  | .aor g d a b => Sys2Proof.Machine.execAor g d a b s
  | .sadd g d a b => Sys2Proof.Machine.execSadd g d a b s
  | .fbegin g f k s_ => Sys2Proof.Machine.execFbegin g f k s_ s
  | .fwait g f => Sys2Proof.Machine.execFwait g f s
  | .join g o s_ a => Sys2Proof.Machine.execJoin g o s_ a s
  | .leave g o s_ a => Sys2Proof.Machine.execLeave g o s_ a s
  | .tbar g o s_ a b => Sys2Proof.Machine.execTbar g o s_ a b s
  | .tarrive g o s_ a b => Sys2Proof.Machine.execTarrive g o s_ a b s
  | .stepadv g b => Sys2Proof.Machine.execStepadv g b s
  | .srsv g d a b => Sys2Proof.Machine.execSrsv g d a b s
  | .scmt g a b => Sys2Proof.Machine.execScmt g a b s
  | .spin g d a b => Sys2Proof.Machine.execSpin g d a b s
  | .sunpin g d a b => Sys2Proof.Machine.execSunpin g d a b s
  | .sqsnap g d a n => Sys2Proof.Machine.execSqsnap g d a n s
  | .movs g d n => Sys2Proof.Machine.execMovs g d n s
  | .movsw g a n => Sys2Proof.Machine.execMovsw g a n s
  | .setpri g a => Sys2Proof.Machine.execSetpri g a s
  | .noisectlLive g => Sys2Proof.Machine.execNoisectlLive g s
  | .noisectlLog g a => Sys2Proof.Machine.execNoisectlLog g a s
  | .noisectlReplay g a b => Sys2Proof.Machine.execNoisectlReplay g a b s
  | .chkmode g o => Sys2Proof.Machine.execChkmode g o s
  | .traprd g d n => Sys2Proof.Machine.execTraprd g d n s
  | .idle g a => Sys2Proof.Machine.execIdle g a s
  | .lend c b a => Sys2Proof.Machine.execLend c b a s
  | .rep n z y x => Sys2Proof.Machine.execRep n z y x s
  | .resultLanding q => Sys2Proof.Machine.execResultLanding q s
  | .drainBeat q => Sys2Proof.Machine.execDrainBeat q s
  | .massAddAnswer q => Sys2Proof.Machine.execMassAddAnswer q s
  | .homeOperationPerformed n => Sys2Proof.Machine.execHomeOperationPerformed n s
  | .counterWaitSatisfied q => Sys2Proof.Machine.execCounterWaitSatisfied q s
  | .teamBarrierRelease q => Sys2Proof.Machine.execTeamBarrierRelease q s
  | .fencePerformed q => Sys2Proof.Machine.execFencePerformed q s
  | .idleExpiry q => Sys2Proof.Machine.execIdleExpiry q s
  | .watchConditionMet n => Sys2Proof.Machine.execWatchConditionMet n s
  | .strandPlacement f => Sys2Proof.Machine.execStrandPlacement f s
  | .recordCreationRetry f => Sys2Proof.Machine.execRecordCreationRetry f s
  | .preemption q => Sys2Proof.Machine.execPreemption q s
  | .gangQuantumExpiry f => Sys2Proof.Machine.execGangQuantumExpiry f s
  | .agingPeriodExpiry f n => Sys2Proof.Machine.execAgingPeriodExpiry f n s
  | .balancingTick f => Sys2Proof.Machine.execBalancingTick f s
  | .triggerFire f n => Sys2Proof.Machine.execTriggerFire f n s
  | .engineNodeFire f n => Sys2Proof.Machine.execEngineNodeFire f n s
  | .pendingEntryFreed f => Sys2Proof.Machine.execPendingEntryFreed f s
  | .launchCompletion l => Sys2Proof.Machine.execLaunchCompletion l s
  | .submissionConsume f => Sys2Proof.Machine.execSubmissionConsume f s
  | .copyCompletion c => Sys2Proof.Machine.execCopyCompletion c s
  | .copymCompletion c => Sys2Proof.Machine.execCopymCompletion c s
  | .cexpCompletion c => Sys2Proof.Machine.execCexpCompletion c s
  | .poolCompletion c => Sys2Proof.Machine.execPoolCompletion c s
  | .sforkCompletion c => Sys2Proof.Machine.execSforkCompletion c s
  | .sretirePass c => Sys2Proof.Machine.execSretirePass c s
  | .stldCompletion c => Sys2Proof.Machine.execStldCompletion c s
  | .stinvCompletion c => Sys2Proof.Machine.execStinvCompletion c s
  | .ballastPass c => Sys2Proof.Machine.execBallastPass c s
  | .fputCompletion c => Sys2Proof.Machine.execFputCompletion c s
  | .fgetCompletion c => Sys2Proof.Machine.execFgetCompletion c s
  | .fredContribution w port c data => Sys2Proof.Machine.execFredContribution w port c data s
  | .fredAcknowledge c => Sys2Proof.Machine.execFredAcknowledge c s
  | .reductionRoundTimeout w => Sys2Proof.Machine.execReductionRoundTimeout w s
  | .reductionWindowAck w => Sys2Proof.Machine.execReductionWindowAck w s
  | .offloadCompletion c => Sys2Proof.Machine.execOffloadCompletion c s
  | .recallCompletion c => Sys2Proof.Machine.execRecallCompletion c s
  | .engineFailure c code => Sys2Proof.Machine.execEngineFailure c code s
  | .stampSweep asid => Sys2Proof.Machine.execStampSweep asid s
  | .saffronBlock f pass => Sys2Proof.Machine.execSaffronBlock f pass s
  | .iestUpdate f amps => Sys2Proof.Machine.execIestUpdate f amps s
  | .pllRelockDone f => Sys2Proof.Machine.execPllRelockDone f s
  | .generationPurgeDone asid => Sys2Proof.Machine.execGenerationPurgeDone asid s
  | .eccWriteback addr => Sys2Proof.Machine.execEccWriteback addr s
  | .bridleXoff link lane => Sys2Proof.Machine.execBridleXoff link lane s
  | .bridleXon link lane => Sys2Proof.Machine.execBridleXon link lane s
  | .bridleReplayRequest link ok => Sys2Proof.Machine.execBridleReplayRequest link ok s
  | .linkTrainingDone link => Sys2Proof.Machine.execLinkTrainingDone link s
  | .linkTrainingTimeout link => Sys2Proof.Machine.execLinkTrainingTimeout link s
  | .portsemWrite port v => Sys2Proof.Machine.execPortsemWrite port v s
  | .islandWrite port f v => Sys2Proof.Machine.execIslandWrite port f v s
  | .drawWrite port v => Sys2Proof.Machine.execDrawWrite port v s
  | .w2baseWrite port v => Sys2Proof.Machine.execW2baseWrite port v s
  | .bar2Access port off w => Sys2Proof.Machine.execBar2Access port off w s
  | .qgoRegister port => Sys2Proof.Machine.execQgoRegister port s
  | .qgoRetire port => Sys2Proof.Machine.execQgoRetire port s
  | .qgoInvalid port => Sys2Proof.Machine.execQgoInvalid port s
  | .qappReserve port v => Sys2Proof.Machine.execQappReserve port v s
  | .qappCommit port v => Sys2Proof.Machine.execQappCommit port v s
  | .wgoArm port => Sys2Proof.Machine.execWgoArm port s
  | .watchStoreArm port => Sys2Proof.Machine.execWatchStoreArm port s
  | .watchFire n => Sys2Proof.Machine.execWatchFire n s
  | .scmdSeal port => Sys2Proof.Machine.execScmdSeal port s
  | .scmdVerify port => Sys2Proof.Machine.execScmdVerify port s
  | .scmdAttest port => Sys2Proof.Machine.execScmdAttest port s
  | .scmdLoadState port => Sys2Proof.Machine.execScmdLoadState port s
  | .securityCommandDone => Sys2Proof.Machine.execSecurityCommandDone s
  | .fwcmdFetchVerify port => Sys2Proof.Machine.execFwcmdFetchVerify port s
  | .fwcmdWriteFlash port => Sys2Proof.Machine.execFwcmdWriteFlash port s
  | .fwCommandDone => Sys2Proof.Machine.execFwCommandDone s
  | .fselfWrite port v => Sys2Proof.Machine.execFselfWrite port v s
  | .fretrainWrite port v => Sys2Proof.Machine.execFretrainWrite port v s
  | .fredWindowSet port w v => Sys2Proof.Machine.execFredWindowSet port w v s
  | .fredWindowClear port w v => Sys2Proof.Machine.execFredWindowClear port w v s
  | .migrQuiesce port asid => Sys2Proof.Machine.execMigrQuiesce port asid s
  | .migrRelease port asid => Sys2Proof.Machine.execMigrRelease port asid s
  | .quiesceDone asid => Sys2Proof.Machine.execQuiesceDone asid s
  | .registerWrite port off v => Sys2Proof.Machine.execRegisterWrite port off v s
  | .portLinkDown port => Sys2Proof.Machine.execPortLinkDown port s
  | .hotReset => Sys2Proof.Machine.execHotReset s
  | .keelPowerOn image failed => Sys2Proof.Machine.execKeelPowerOn image failed s
  | .fieldPowerGood f => Sys2Proof.Machine.execFieldPowerGood f s
  | .fieldPowerGoodTimeout f => Sys2Proof.Machine.execFieldPowerGoodTimeout f s
  | .fieldPllLock f => Sys2Proof.Machine.execFieldPllLock f s
  | .fieldPllLockTimeout f => Sys2Proof.Machine.execFieldPllLockTimeout f s
  | .fieldBistDone f failed => Sys2Proof.Machine.execFieldBistDone f failed s
  | .fieldBistTimeout f => Sys2Proof.Machine.execFieldBistTimeout f s
  | .crossingTrained f g => Sys2Proof.Machine.execCrossingTrained f g s
  | .crossingTrainTimeout f g => Sys2Proof.Machine.execCrossingTrainTimeout f g s
  | .crossingTrainingLoss f g => Sys2Proof.Machine.execCrossingTrainingLoss f g s
  | .illegalBundle mask reason => Sys2Proof.Machine.execIllegalBundle mask reason s
  | .fabricPortRequest asid addr op => Sys2Proof.Machine.execFabricPortRequest asid addr op s
  | .hdmAccess port off w => Sys2Proof.Machine.execHdmAccess port off w s
  | .cxlCacheSnoop addr => Sys2Proof.Machine.execCxlCacheSnoop addr s

end Sys2Proof.Machine
end

