-- ==== Sys2Proof/Machine/Issue.lean ====
section
/-!
DEFINITION. A seat's turn (R163 to R174, R194, R289): the fetch of its bundle, the checking scoreboard (R293), the slots' actions in
order, and the steps of a seat that issues no bundle.
-/

namespace Sys2Proof.Machine

/-! ### Fetch (R129, R194) -/

/-- The 16 bytes of the bundle that a strand issues next: from its launch's template store inside a nest, from the handler image in
handler mode, else from its launch's code; none outside the image (R194, R341). What a tile's one code store and one template store hold when a
CODE section is larger or two images share the tile is not said: each launch runs from its own image (notes/assumptions/81.md). -/
def State.fetch (s : State) (st : Strand) : Option (List Byte) :=
  match st.regs.spool with
  | some sp => some (memReads (s.templates st) (sp.bundleAt (s.templates st)) 16)
  | none =>
    let pc := st.regs.pc
    match st.handler with
    | some _ =>
      let hb := s.idRecord st.asid 2
      let base := (s.wordGlobal 0 st.asid hb).getD 0
      let size := (s.wordGlobal 0 st.asid (hb + 8)).getD 0
      if base ≤ pc ∧ pc + 16 ≤ base + size then
        match s.imageAt pc with
        | some i => some (memReads i.code (pc - i.base) 16)
        | none => s.readGlobal (fieldOf s.cur.tile) st.asid pc 16
      else none
    | none => match s.imageOf st.launch with
      | some i => if i.base ≤ pc ∧ pc + 16 ≤ i.base + i.size then some (memReads i.code (pc - i.base) 16) else none
      | none => none

/-- The poisoned word of the current tile's code store that the bundle at the strand's program counter holds, by its code address; a template
is not fetched from the code store, and a repetition is not fetched again (R9, R343, notes/assumptions/53.md). -/
def State.codeError (s : State) (st : Strand) : Option Nat :=
  if st.regs.spool.isSome || st.regs.rep.isSome then none
  else (s.codePoison.find? fun p => p.1 == s.cur.tile && meets p.2 8 st.regs.pc 16).map (·.2)

/-! ### The checking scoreboard (R293) -/

/-- A register named by its physical number (R176). -/
def Regs.physReg (r : Regs) (n : Reg) : Reg :=
  match n with
  | (.x, k) => (.x, physX r.xrot k)
  | (.p, k) => (.p, physP r.prot k)
  | n => n

/-- The architectural name of a physical register (R176), as TRAPARG.NUM gives it. -/
def Regs.archNum (r : Regs) (n : Reg) : Nat :=
  match n with
  | (.x, k) => if k < 32 then k else 32 + (k - 32 + (32 - r.xrot % 32)) % 32
  | (.p, k) => if k < 8 then k else 8 + (k - 8 + (8 - r.prot % 8)) % 8
  | (_, k) => k

/-- The register that a result writes; flags that a result raises add to FLAGS and invert no earlier write (R85, R293). -/
def Res.reg : Res → Option Reg
  | .x n _ => some (.x, n)
  | .p n _ => some (.p, n)
  | .v n _ _ _ => some (.v, n)
  | .vtag n _ => some (.v, n)
  | .k n _ => some (.k, n)
  | .t n _ => some (.t, n)
  | .ttag n _ => some (.t, n)
  | .tpart n _ _ => some (.t, n)
  | .g n _ => some (.g, n)
  | .z n _ => some (.special, 0x40 + n)
  | .slatch _ => some (.slatch, 0)
  | .glatch _ => some (.glatch, 0)
  | .xrot _ => some (.special, 0x002)
  | .prot _ => some (.special, 0x003)
  | .lc _ => some (.special, 0x004)
  | .lcMove _ => some (.special, 0x004)
  | .ec _ => some (.special, 0x005)
  | .ecMove _ => some (.special, 0x005)
  | .flagsMove _ => some (.special, 0x007)
  | .pri _ => some (.special, 0x00E)
  | .chk _ => some (.special, 0x00F)
  | .noise _ _ _ => some (.special, 0x010)
  | .sqlen n _ => some (.special, 0x020 + n)
  | _ => none

/-- Whether a result raises flags, so that it leaves a pending write of FLAGS (R85, R293, notes/assumptions/55.md). -/
def Res.raisesFlags : Res → Bool
  | .flags _ => true
  | .beat _ _ _ _ _ _ => true
  | _ => false

/-- The registers that a drain's beats write: a T register, the row side outputs (R218, R232). -/
def drainDests (d : Drain) : List Reg :=
  (if cfgKind d.fcfg = 1 then [(.t, cfgDt d.fcfg)] else []) ++ (if cfgMaxen d.fcfg then [(.v, cfgField d.fcfg 4 38 5)] else []) ++
    if cfgSumen d.fcfg then [(.v, cfgField d.fcfg 4 33 5)] else []

/-- The pending writes of the bundles that p selects, with the steps at which the last of each lands; FLAGS is special register 0x007. -/
def Strand.pendingWrites (st : Strand) (p : Nat → Bool) : List (Reg × Nat) :=
  let pend := st.pend.filter fun q => p q.order
  (pend.filterMap fun q => (Res.reg q.res).map fun r => (r, q.due)) ++
    ((pend.filter fun q => q.res.raisesFlags).map fun q => ((.special, 0x007), q.due)) ++
    ((st.drains.filter fun d => p d.order).map fun d =>
      ((.special, 0x007) :: drainDests d).map fun r => (r, d.issue + (d.count / 8 - 1) + 10)).flatten

/-- The last pending write among those of a register, by its landing step. -/
def lastWrite (ws : List (Reg × Nat)) (r : Reg) : Option Nat := ((ws.filter fun w => w.1 == r).map (·.2)).max?

/-- The trap of R293: cause 0x03 early read or 0x04 landing inversion. -/
def boardTrap (st : Strand) (cause : Nat) (r : Reg) (due : Nat) : Trap :=
  { cause := cause, arg := min (due - st.clk) 255 * 2 ^ 24 + r.1.code * 2 ^ 16 + st.regs.archNum r % 1024 }

/-- The guard of a slot (R164); a header has none. -/
def guardOf (w : BitVec 32) : BitVec 4 := if wordClass w = 15 then 0 else bitsAt w 24 4

/-- The checks of one slot against the pending writes of earlier bundles (R293): its guard and sources, then the landings of its
results. A slot with a false guard is not checked. -/
def slotBoard (s : State) (st : Strand) (w : BitVec 32) (i : Instr) : Option Trap :=
  let old := st.pendingWrites fun o => decide (o < st.order)
  let rank : BitVec 6 → Nat := fun h => match s.entryOf st.launch h.toNat with | some e => e.rank | none => 0
  let g := guardOf w
  let reads : List Reg := (if g = 0 then [] else [(.p, g.toNat)]) ++ Instr.sources st rank i
  if !st.pr g then none
  else match reads.findSome? fun r => (lastWrite old (st.regs.physReg r)).map fun d => (st.regs.physReg r, d) with
  | some (r, d) => some (boardTrap st 0x03 r d)
  | none =>
    let new : List (Reg × Nat) := match exec i { s with inBundle := true } with
      | .next s' => (match s'.strand with
        | some st' =>
          ((st'.pend.filter fun q => q.order == st.order).filterMap fun q => (Res.reg q.res).map fun r => (r, q.due)) ++
            ((st'.drains.filter fun d => d.order == st.order).map fun d => (drainDests d).map fun r => (r, d.issue + 10)).flatten
        | none => [])
      | _ => []
    (new.findSome? fun (r, due) => (lastWrite old r).bind fun d => if due < d then some (r, d) else none).map fun (r, d) =>
      boardTrap st 0x04 r d

/-- The scoreboard's trap of the lowest-numbered slot at fault; none with check mode off (R209, R293). -/
def boardCheck (s : State) (st : Strand) (is : List (Nat × BitVec 32 × Instr)) : Option Trap :=
  if st.chk then is.findSome? fun (_, w, i) => slotBoard s st w i else none

/-! ### A bundle -/

/-- The order in which the slots of a bundle act (R142, R167): the header, the local access, the register slots, the engine command,
the sync and matrix slots, the control slot. Of two slots that draw noise words the transform slot therefore draws first: the model's choice
(notes/assumptions/66.md). -/
def actOrder (w : BitVec 32) : Nat :=
  match wordClass w with
  | 15 => 0
  | 5 => 1
  | 12 => 3
  | 13 => 4
  | 8 => 4
  | 4 => 5
  | _ => 2

/-- Slots in the order in which they act, by their numbers within one rank. -/
def inOrder (is : List (Nat × BitVec 32 × Instr)) : List (Nat × BitVec 32 × Instr) :=
  ((List.range 6).map fun k => is.filter fun p => actOrder p.2.1 == k).flatten

/-- What became of a bundle's slots: all acted, with the trap to take after the bundle, if any; one trapped, in the state that those before it
left; or one has no meaning. -/
inductive Acted where
  | done (s : State) (after : Option Trap)
  | trap (t : Trap) (s : State)
  | stop (o : Out)

/-- The slots of a bundle acted one after the other (R165, R174): registers read at the issue step, since results land later. -/
def actAll : List (Nat × BitVec 32 × Instr) → State → Option Trap → Acted
  | [], s, after => .done s after
  | (pos, _, i) :: is, s, after =>
    match exec i { s with raised := none } with
    | .next s' => match s'.raised with
      | none => actAll is s' after
      | some t => if t.after then actAll is { s' with raised := none } (after <|> s.strand.map fun st => (t.atSlot pos).sited st) else .trap (t.atSlot pos) s
    | o => .stop o

/-- The state before a bundle that traps: the words that its slots had drawn are discarded (R81). -/
def State.undone (s0 s : State) : State := { s0 with streams := s.streams }

/-- The end of a bundle whose slots have acted: the noise log, the step, the traps left, the return from a handler (R82, R165, R200). A trap that a
bundle with an ERET leaves is a trap of handler mode and ends both strands (R335, R341): the model's choice (notes/assumptions/55.md). -/
def endBundle (s0 s : State) (after : Option Trap) : State :=
  match s.logBeatsFirst.logNoise with
  | .error t => takeTrap t (s0.undone s)
  | .ok s =>
    let eret : Bool := match s.strand with | some st => st.ctl == .eret | none => false
    let s := { finishBundle s with inBundle := false }
    if eret && after.isNone && s.raised.isNone then returnFromTrap s else takeLeft after s

/-- The trap of the lowest-numbered slot that raises one at the issue step (notes/assumptions/16.md). -/
def lowestTrap (is : List (Nat × BitVec 32 × Instr)) (s : State) : Option Trap :=
  is.findSome? fun (pos, _, i) =>
    match exec i s with
    | .next s' => s'.raised.bind fun t => if t.after then none else some (t.atSlot pos)
    | _ => none

/-- Whether a slot makes its bundle a mark (R197, R212, R247, R262, R81). -/
def slotMarks (s : State) (st : Strand) (w : BitVec 32) (i : Instr) : Bool :=
  st.pr (guardOf w) && (match i with
    | .mark _ => true
    | .fbegin _ _ _ _ => false
    | .fwait _ _ => false
    | .mload _ _ _ => false
    | .mloadg _ _ _ => false
    | .mdrain _ _ _ _ => drainMarks st.regs.fcfg || (cfgMode st.regs.fcfg == 6 && st.noise.mode != 0)
    | _ => wordClass w == 12 || wordClass w == 13 || wordClass w == 8 || (wordClass w == 10 && st.noise.mode != 0 &&
        (match exec i s with | .next s' => (match s'.strand with | some st' => st'.marked | none => false) | _ => false)))

/-- The gate buffer as a bundle that makes a mark finds it: performed before the bundle's own slots take effect (R59, R244). -/
def gateFirst (is : List (Nat × BitVec 32 × Instr)) (s : State) : Except Trap State :=
  match s.strand with
  | none => .ok s
  | some st => if !st.gate.isEmpty && is.any (fun (_, w, i) => slotMarks s st w i) then s.flushGate else .ok s

/-- The slots of a legal bundle act, or the bundle does nothing and its trap is taken (R174). -/
def runSlots (is : List (Nat × BitVec 32 × Instr)) (s : State) : Out :=
  match gateFirst is { s with inBundle := true, raised := none } with
  | .error t => .next (takeTrap t s)
  | .ok s1 => match actAll (inOrder is) s1 none with
    | .stop o => o
    | .trap t s' => .next (takeTrap ((lowestTrap is s1).getD t) (s.undone s'))
    | .done s' after => .next (endBundle s s' after)

/-- The slots of repetition j under REP (R171, R86): fields advanced, push rows by j times the rows of the first beat. -/
def repInstrs (strides : List Nat) (j rows : Nat) (ps : Placed) : List (Nat × BitVec 32 × Instr) :=
  ps.filterMap fun p =>
    if p.1 = 0 then (match p.2.2 with | .ok i => some (0, p.2.1, i) | .bad _ => none)
    else
      match p.2.2 with
      | .bad _ => none
      | .ok i => match repWord i (strides.getD p.1 0) j p.2.1 with
        | none => none
        | some w =>
          let w := if (pushOf i).isSome then advanceRow (j * rows) w else w
          match decodeSlot p.1 w none with
          | .ok i => some (p.1, w, i)
          | .bad _ => none

/-- The rows of the first beat of a REP's push (R86), 1 without one. -/
def pushRows (st : Strand) (ps : Placed) : Nat :=
  (ps.findSome? fun p => match p.2.2 with
    | .ok i => (pushOf i).map fun m => match movingShape st m with | some t => beatCount t | none => 1
    | .bad _ => none).getD 1

/-- The reason codes of a place judged at the first step of a REP of n repetitions (R172, R173): those of its first repetition, a push whose rows
pass 63 in a later one, and coordinates that pass X63 in a later one (notes/assumptions/18.md). -/
def judgeRep (s : State) (st : Strand) (n : Nat) (strides : List Nat) (rows : Nat) (p : Nat × BitVec 32 × Slot) : List Nat :=
  match p.2.2 with
  | .bad _ => []
  | .ok i =>
    let row : Bool := match pushFields i with | some (_, r, _) => decide (63 < r + (n - 1) * rows) | none => false
    let later : Bool := (Instr.coordinates i).isSome && (List.range n).any fun j => match repSlot (strides.getD p.1 0) j p with
      | some i => pastFile s st i
      | none => false
    judge s st i ++ if row || later then [9] else []

/-- What a seat is to issue: nothing, its address lying outside its code image (R194); a bundle of a poisoned code-store line (R343); a bundle that
is illegal at the fault given (R173) or for a level that its SPOOL refuses (R129); or slots that act, on the strand as it stands then. -/
inductive Issue where
  | outside
  | poisoned (addr : Nat)
  | illegal (mask : BitVec 4) (reason : BitVec 8)
  | badNest (level : Nat)
  | slots (st : Strand) (is : List (Nat × BitVec 32 × Instr))

/-- What makes a bundle illegal (R173), from the reason codes of each place at its decoding and those of its issue step. SPOOL's own TRAPARG counts
when its slot is the lowest-numbered one at fault and has no other fault: the model's choice (notes/assumptions/79.md). -/
def State.issueFault (s : State) (st : Strand) (decoding : List (Nat × List Nat)) (issuing : Nat → List Nat)
    (is : List (Nat × BitVec 32 × Instr)) : Option Issue :=
  let rs := decoding.map fun (k, l) => (k, l ++ issuing k)
  (faultOf rs).map fun (mask, reason) =>
    let least := (rs.find? fun r => !r.2.isEmpty).map (·.1)
    match is.findSome? fun (k, _, i) => (nestLevel s st i).map fun b => (k, b) with
    | some (k, b) => if least == some k && decoding.contains (k, []) then .badNest b else .illegal mask reason
    | none => .illegal mask reason

/-- The reason codes of a place judged at the issue step, from the slots that it issues (R173). -/
def State.judged (s : State) (st : Strand) (is : List (Nat × BitVec 32 × Instr)) (k : Nat) : List Nat :=
  match is.find? fun q => q.1 == k with | some (_, _, i) => judge s st i | none => []

/-- The slots of a bundle under REP (R171, R172): its next repetition; with n = 0 only the header acts. -/
def repIssue (n : Nat) (strides : List Nat) (ps : Placed) (decoding : List (Nat × List Nat)) (st : Strand) (s : State) : Issue :=
  let j := st.regs.rep.getD 0
  let rows := if j = 0 then pushRows st ps else st.regs.repRows
  let is := repInstrs strides j rows (if n = 0 then ps.take 1 else ps)
  let issuing : Nat → List Nat := fun k =>
    if n = 0 then []
    else if j = 0 then (match ps.find? fun p => p.1 == k with | some p => judgeRep s st n strides rows p | none => [])
    else s.judged st is k
  (s.issueFault st decoding issuing []).getD
    (.slots { st with regs := { st.regs with repRows := rows, rep := if n = 0 then none else some j, repN := n } } is)

/-- A bundle of the current seat, from its bytes (R163, R173): checked at its decoding and at its issue step. -/
def bundleIssue (bs : List Byte) (st : Strand) (s : State) : Issue :=
  let ps := placedSlots bs
  let body : Bool := match st.regs.loop with
    | some l => decide (l.start ≤ st.regs.pc) && decide (st.regs.pc < l.start + 16 * l.length)
    | none => false
  let decoding := placeFaults st.regs.branch.isSome body st.regs.spool.isSome ps
  match repHeader (ps.map fun p => p.2.2) with
  | some (n, strides) => repIssue n strides ps decoding st s
  | none =>
    let is := ps.filterMap fun p => match p.2.2 with | .ok i => some (p.1, p.2.1, i) | .bad _ => none
    (s.issueFault st decoding (s.judged st is) is).getD (.slots st is)

/-- What the current seat issues next (R163, R194, R343). -/
def State.issue (s : State) (st : Strand) : Issue :=
  match s.fetch st, s.codeError st with
  | none, _ => .outside
  | some _, some a => .poisoned a
  | some bs, none => bundleIssue bs st s

/-! ### Freezes before a bundle issues (R290) -/

/-- The noise words that the drain beats that p picks take from the stream themselves (R81, R236): none of a drain that replays. -/
def Strand.beatsDraw (st : Strand) (p : Drain → Bool) : Nat :=
  ((st.drains.filter fun d => p d && (d.noise st).mode != 2).map fun d => d.beatWords st).sum

/-- Whether the current seat's stream lacks words of n that it needs now (R79). -/
def State.streamShort (s : State) (n : Nat) : Bool := decide (((assocFind (SeatId.key s.cur) s.streams).getD []).length < n)

/-- Whether a drain beat of those that p picks lacks its words: it waits until they arrive, of a source disabled since its bundle too (R79). -/
def State.beatsShort (s : State) (st : Strand) (p : Drain → Bool) : Bool := st.beatsDraw p != 0 && s.streamShort (st.beatsDraw p)

/-- Whether a drain beat due now lacks its words (R79). -/
def State.beatShort (s : State) (st : Strand) : Bool := s.beatsShort st (Drain.beatDue st.clk)

/-- Whether a mass add that must be answered before the current seat's next step ends waits for a pass: the seat is frozen (R135, R138, R290). -/
def State.addShort (s : State) (st : Strand) : Bool := st.adds.any fun m => decide (m.due ≤ st.clk + 1) && s.massHeld m

/-- Whether a slot may draw noise words (R76). -/
def drawsNoise (st : Strand) : Instr → Bool
  | .xconv _ _ _ _ _ _ => true
  | .vconv _ _ _ _ _ _ => true
  | .mdrain _ _ _ _ => cfgMode st.regs.fcfg == 6
  | _ => false

/-- The words that a bundle's slots and the drain beats of its step draw, other than in a replay (R79, R81). -/
def State.wordsNeeded (s : State) (st : Strand) (is : List (Nat × BitVec 32 × Instr)) : Nat :=
  let st0 := { st with noise := { st.noise with consumed := 0 } }
  if st.noise.mode = 2 || !(is.any fun (_, _, i) => drawsNoise st i) then 0
  else match actAll (inOrder is) { s.setStrand st0 with inBundle := true, raised := none } none with
    | .done s' _ => (match s'.strand with | some st' => st'.noise.consumed + st'.beatsDraw (Drain.beatDue st'.clk) | none => 0)
    | _ => 0

/-- Whether a drain of a seat has a beat still to make. -/
def State.pathHeld (s : State) (q : SeatId) : Bool := match s.strandAt q with | some o => o.drains.any Drain.beatLeft | none => false

/-- Whether a result is the landing of a gather, with its latch or with its trap (R254). -/
def Res.ofGather : Res → Bool
  | .glatch _ => true
  | .gtrap _ => true
  | _ => false

/-- Whether what a slot of the current seat needs is held: the tile's one drain path, while a drain of either seat has a beat to make (R218); the
gather unit, until the other seat's latch lands (R254); the identifier's step, until a sweep that the advance owes is done (R118). -/
def State.unitHeld (s : State) (st : Strand) : Instr → Bool
  | .mdrain _ _ _ _ => s.pathHeld s.cur || s.pathHeld ⟨s.cur.tile, 1 - s.cur.seat⟩
  | .gath _ _ => (match s.strandAt ⟨s.cur.tile, 1 - s.cur.seat⟩ with
    | some o => o.pend.any fun p => p.res.ofGather
    | none => false)
  | .stepadv _ _ => s.sweepOwed st.asid
  | _ => false

/-- Whether the current seat is frozen before slots that it is to issue (R290): a unit or the step is held, or noise words are missing. -/
def State.heldBack (s : State) (st : Strand) (is : List (Nat × BitVec 32 × Instr)) : Bool :=
  is.any (fun (_, w, i) => st.pr (guardOf w) && s.unitHeld st i) ||
    (let n := s.wordsNeeded st is
     n != 0 && !s.noiseOff (fieldOf s.cur.tile) && s.streamShort n)

/-- Whether a frozen seat waits for beats of its own, which it makes one by one while it is frozen (R218, notes/assumptions/10.md). -/
def State.ownBeats (s : State) (st : Strand) (is : List (Nat × BitVec 32 × Instr)) : Bool :=
  is.any (fun (_, w, i) => st.pr (guardOf w) && (match i with | .mdrain _ _ _ _ => true | _ => false)) && s.pathHeld s.cur &&
    !s.beatsShort st Drain.beatLeft

/-- A frozen seat before its slots: a beat of its own is made where it waits for it; nothing else moves. -/
def frozenTurn (st : Strand) (is : List (Nat × BitVec 32 × Instr)) (s : State) : State :=
  if s.ownBeats st is then drainBeats s.cur Drain.beatLeft s else s

/-- Whether the bundle that the current seat issues next is held back, and no beat of its own can be made meanwhile. -/
def State.issueHeld (s : State) (st : Strand) : Bool :=
  match s.issue st with
  | .slots st is => (s.setStrand st).heldBack st is && !s.ownBeats st is
  | _ => false

/-- The issue step of the current seat (R163, R173, R194). -/
def issueBundle (st : Strand) (s : State) : Out :=
  match s.issue st with
  | .outside => .next (takeTrap (privilegeTrap 1) s)
  | .poisoned a => .next (takeTrap { cause := 0x0E, arg := a % 2 ^ 32, faddr := a } s)
  | .illegal mask reason => execIllegalBundle mask reason s
  | .badNest b => .next (takeTrap { cause := 0x01, arg := b, reason := 5 } s)
  | .slots st is =>
    let s' := s.setStrand st
    if s'.heldBack st is then .next (frozenTurn st is s)
    else match boardCheck s' st is with
      | some t => .next (takeTrap t s')
      | none => runSlots is s'

/-! ### A seat's turn -/

/-- A step without a bundle, and the trap that a landing raised (R289, R246). -/
def idleTurn (s : State) : Out := .next (takeLeft none (idleStep s))

/-- Whether results, beats or adds of a strand are still to come, or an exchange of banks (R27, R29, R217). -/
def Strand.landing (st : Strand) : Bool := !st.pend.isEmpty || !st.drains.isEmpty || !st.adds.isEmpty || st.swap.isSome

/-- A strand leaves its seat by PARK or EXIT (R27, R29): after its landing wait its gated stores are performed; one that
fails is a trap of the bundle that left (R59). -/
def leaveTurn (q : SeatId) (leave : Strand → State → State) (s : State) : Out :=
  match s.strand with
  | none => .next s
  | some st =>
    if st.landing then idleTurn s
    else match s.flushGate with
      | .error t => .next (takeTrap { t with site := some (st.regs.pc - 16, st.issued, 0) } s)
      | .ok s => match s.strandAt q with
        | none => .next s
        | some st => .next (leave st s)

/-- A strand that waits for nothing takes its next step: of a STALL, of a PARK or EXIT whose bundle waited for something else, of an
empty Spool iteration, or a bundle (R184, R27, R29, R130); a nest level that a rollback left to be started starts first. -/
def goTurn (st : Strand) (s : State) : Out :=
  let st := { st with regs := if st.stall = 0 then st.regs.nestStart (s.templates st) else st.regs }
  let s := s.setStrand st
  let empty : Bool := match st.regs.spool with | some sp => sp.empty | none => false
  if 0 < st.stall then idleTurn s
  else match st.ctl with
    | .park a t => .next (s.setStrand { st with ctl := .none, wait := .park a t })
    | .exit => .next (s.setStrand { st with ctl := .none, wait := .exit })
    | _ => if empty then idleTurn s else issueBundle st s

/-- Whether a field's seats issue (R326): its clock neither relocks nor is stretched. -/
def State.clockRuns (s : State) (f : Nat) : Bool := match s.fields[f]? with | some d => !d.relock && !d.stretch | none => false

/-- The turn of a seat that nothing freezes: a step of an MSWAP's landing wait (R217), or its strand's next step. -/
def freeTurn (st : Strand) (s : State) : Out := if st.swap.isSome then idleTurn (s.setStrand st) else goTurn st s

/-- One turn of a seat: the step it takes now. A frozen seat and an idle one take none (R290). -/
def seatTurn (q : SeatId) (s : State) : Out :=
  let s := { s with cur := q, raised := none, inBundle := false }
  match s.strand with
  | none => .next s
  | some st =>
    if !s.clockRuns (fieldOf q.tile) || s.beatShort st || s.addShort st || st.idle.isSome || !s.heldOver st then .next s
    else match st.wait with
      | .none =>
        let st := { st with held := none }
        freeTurn st (s.setStrand st)
      | .park a t => leaveTurn q (fun st s => (parkLeave q st a t s).getD s) s
      | .exit => leaveTurn q (fun st s => exitLeave q st s) s
      | _ => .next s

/-- Whether a strand that waits for nothing has a step to take: its next bundle is not held back. -/
def State.canGo (s : State) (st : Strand) : Bool :=
  let st := { st with regs := if st.stall = 0 then st.regs.nestStart (s.templates st) else st.regs }
  let empty : Bool := match st.regs.spool with | some sp => sp.empty | none => false
  decide (0 < st.stall) || empty || (match st.ctl with | .park _ _ => true | .exit => true | _ => false) ||
    !(s.setStrand st).issueHeld st

/-- Whether a seat has a step to take. -/
def State.canTurn (s : State) (k : Nat) (st : Strand) : Bool :=
  let s := { s with cur := ⟨k / 2, k % 2⟩, raised := none, inBundle := false }
  s.clockRuns (fieldOf (k / 2)) && !s.beatShort st && !s.addShort st && st.idle.isNone && s.heldOver st &&
    match st.wait with
    | .none => st.swap.isSome || s.canGo st
    | .park a t => st.landing || (parkLeave ⟨k / 2, k % 2⟩ st a t s).isSome
    | .exit => true
    | _ => false

end Sys2Proof.Machine
end

