-- ==== Sys2Proof/Machine/Policy.lean ====
section
/-!
DEFINITION. What moves when no input names it (notes/assumptions/4.md): the first step of an agent that is possible, else the next
seat in turn; and where an instruction is put for the next step to run it (notes/assumptions/3.md).
-/

namespace Sys2Proof.Machine

/-- The end of a seat's wait, if it is over. -/
def State.waitEvent (s : State) (k : Nat) (st : Strand) : Option Out :=
  let q : SeatId := ⟨k / 2, k % 2⟩
  if st.idle.isSome then some (execIdleExpiry q s)
  else if !s.waitOver st then none
  else match st.wait with
    | .counter _ _ _ => some (execCounterWaitSatisfied q s)
    | .team _ _ => some (execTeamBarrierRelease q s)
    | .join _ _ _ _ _ => some (execTeamBarrierRelease q s)
    | .fence _ => some (execFencePerformed q s)
    | _ => none

/-- Whether a pass has a step to make (R136, R138): it is its turn, and it has a page to ask about or nothing to wait for. -/
def State.passReady (s : State) (c : Cmd) : Bool := s.passTurn c && (!(s.passFinds c).isEmpty || !s.passWaits c)

/-- The step by which a command ends, or a pass goes on, when it can now. -/
def State.cmdEvent (s : State) (c : Cmd) : Option Out :=
  if c.phase = 4 then some (execFredAcknowledge c.id s)
  else if c.phase < 2 then none
  else match c.op with
    | 0 => some (execCopyCompletion c.id s)
    | 1 => some (execCopymCompletion c.id s)
    | 2 => some (execCexpCompletion c.id s)
    | 4 => some (execPoolCompletion c.id s)
    | 5 => some (execSforkCompletion c.id s)
    | 6 => if s.passReady c then some (execSretirePass c.id s) else none
    | 7 => if s.stldWaits c then none else some (execStldCompletion c.id s)
    | 8 => some (execStinvCompletion c.id s)
    | 9 => if s.passReady c then some (execBallastPass c.id s) else none
    | 10 => if s.laneStopped c 0 then none else some (execFputCompletion c.id s)
    | 11 => if s.laneStopped c 0 then none else some (execFgetCompletion c.id s)
    | 14 => match s.entryOf c.launch c.handle with
      | some e => if s.drainsInto (sliceAddr c.seat.tile (s.pageState e c.seat.tile (c.zf 0 0 32)).2) e.tileSize then none
          else some (execOffloadCompletion c.id s)
      | none => some (execOffloadCompletion c.id s)
    | 15 => some (execRecallCompletion c.id s)
    | _ => none

/-- The end of a watch whose counter has reached its target (R28, R325). -/
def State.watchEvent (s : State) (w : Watch) : Option Out :=
  if !s.watchMet w then none
  else match w.waiter with
    | .strand _ _ => some (execWatchConditionMet w.id s)
    | .host _ _ => some (execWatchFire w.id s)

/-- The step of field f's scheduler that is possible (R25, R321, R328, R331). -/
def State.fieldEvent (s : State) (f : Nat) : Option Out :=
  if (s.placement f).isSome then some (execStrandPlacement f s)
  else if s.launches.any fun l => l.field == f && s.retryOk l then some (execRecordCreationRetry f s)
  else if (s.nextQueue f).isSome then some (execSubmissionConsume f s)
  else if (s.balance f).isSome then some (execBalancingTick f s)
  else none

/-- The first step of another agent that is possible; those that take their time or their data from outside come as inputs only. The
mass adds of a seat that has no step of its own to take are answered last of all. -/
def State.nextEvent (s : State) : Option Out :=
  ((s.flight.find? s.homeTurn).map fun o => execHomeOperationPerformed o.id s) <|>
  (s.seats.findSome? fun (k, st) => s.waitEvent k st) <|>
  ((s.seats.find? fun (k, st) => s.wantedNow k st).map fun (k, _) => execPreemption ⟨k / 2, k % 2⟩ s) <|>
  (s.watches.findSome? s.watchEvent) <|>
  ([0, 1].findSome? fun p => if (s.storeReady p).isSome then some (execWatchStoreArm p s) else none) <|>
  ((s.launches.find? s.canFire).map fun l => execTriggerFire l.field l.id s) <|>
  ((s.cmds.find? s.nodeReady).map fun c => execEngineNodeFire c.field c.id s) <|>
  (s.cmds.findSome? s.cmdEvent) <|>
  ((s.launches.find? s.launchDone).map fun l => execLaunchCompletion l.id s) <|>
  ((s.seats.find? fun (_, st) => s.sweepOwed st.asid && s.sweepReady st.asid).map
    fun (_, st) => execStampSweep (BitVec.ofNat 16 st.asid) s) <|>
  ((List.range 6).findSome? s.fieldEvent) <|>
  ((s.seats.find? fun (k, st) => (s.firstAdd st).isSome && !s.canTurn k st).map fun (k, _) => execMassAddAnswer ⟨k / 2, k % 2⟩ s)

/-- The next seat in turn with a step to take: the first after cur, else from the start (R169). -/
def State.nextSeat (s : State) : Option SeatId :=
  let can := (s.seats.filter fun (k, st) => s.canTurn k st).map (·.1)
  ((can.find? fun k => decide (SeatId.key s.cur < k)) <|> can.head?).map fun k => ⟨k / 2, k % 2⟩

/-- The current seat's strand, put on tile 0 seat 0 in a launch of its own when the seat is idle: a strand at its start (R26) at the first
bundle of an image at address 0, in a field that is up. -/
def withStrand (s : State) : State :=
  match s.strand with
  | some _ => s
  | none =>
    let l : Launch := { id := s.nextId, field := 0, words := Vector.replicate 8 0, asid := 0, pri := 0, issuer := .queue 0, phase := .open_,
                        created := 1, exited := 0, lost := false, args := none, tiles := [], agePeriod := 0, ceiling := 0, short := false, since := 0 }
    let i : Image := { base := 0, size := 4096, code := [], template := [], table := [], data := [] }
    { s with cur := ⟨0, 0⟩, images := assocPut 0 i s.images, launches := l :: s.launches, nextId := s.nextId + 1,
             fields := s.fields.set 0 { (s.fields[0]) with phase := .up, relock := false, stretch := false },
             seats := assocPut 0 { zeroStrand with launch := s.nextId } s.seats }

/-- The image that a list of images gives for an address, with bytes of its code replaced. -/
def patchCode (addr : Nat) (bs : List Byte) : Assoc Image → Assoc Image
  | [] => []
  | (k, i) :: t =>
    if i.base ≤ addr ∧ addr < i.base + i.size then (k, { i with code := memWrites i.code (addr - i.base) bs }) :: t
    else (k, i) :: patchCode addr bs t

end Sys2Proof.Machine
end

