-- ==== Sys2Proof/Machine/Step.lean ====
section
/-!
DEFINITION. One step of the machine: the agent or the seat that the oldest input names moves, and without an input the one that the
default order gives (notes/assumptions/4.md).
-/

namespace Sys2Proof.Machine

/-- One step. An input that names a slot's instruction is no step of an agent and is dropped. -/
def step (s : State) : Host.Outcome State Fault Refusal :=
  match s.inputs with
  | .seat q :: t => seatTurn q { s with inputs := t }
  | .event i :: t => if i.isSlot then .next { s with inputs := t } else exec i { s with inputs := t }
  | .engine id n :: t => engineTurn id n { s with inputs := t }
  | .host op :: t => hostTurn op { s with inputs := t }
  | .error e :: t => errorTurn e { s with inputs := t }
  | [] => match s.nextEvent with
    | some o => o
    | none => match s.nextSeat with
      | some q => seatTurn q s
      | none => .next s

/-- The instruction of a word of the opcode table placed for the next step (notes/assumptions/3.md): in slot 0 of the bundle that the
current seat issues next, the other slots NOP, and the seat's turn next. An idle seat gets a strand first. -/
def State.withFetchWord (s : State) (_nbits w : Nat) : State :=
  let s := withStrand s
  match s.strand with
  | none => s
  | some st =>
    let st := { st with wait := .none, idle := none, held := none, stall := 0, ctl := .none, regs := { st.regs with spool := none, rep := none } }
    { s with images := patchCode st.regs.pc (tableBundle w) s.images, inputs := [.seat s.cur],
             codePoison := s.codePoison.filter fun p => p.1 != s.cur.tile,
             seats := assocPut (SeatId.key s.cur) st s.seats }

end Sys2Proof.Machine
end

