-- ==== Sys2Proof/Safety.lean ====
section
/-!
DEFINITION. What the statements call a sound state and a safe run: memory in its canonical form, the seats listed once each in rising
order, and steps that answer a next state.
-/

namespace Sys2Proof.Machine

/-- The keys of sparse data rise strictly, from above lo. -/
def risingFrom {α : Type} : Option Nat → Assoc α → Bool
  | _, [] => true
  | lo, (k, _) :: t => (match lo with | none => true | some l => decide (l < k)) && risingFrom (some k) t

/-- Sparse data in canonical form: keys strictly rising. -/
def rising {α : Type} (m : Assoc α) : Bool := risingFrom none m

/-- Memory is in its canonical form (notes/assumptions/1.md). -/
def State.memoryCanonical (s : State) : Prop := Memory.wf s.mem = true

/-- k steps from s all answer a next state, the last of them t. -/
def Reaches (s : State) : Nat → State → Prop
  | 0, t => t = s
  | k + 1, t => ∃ u, Reaches s k u ∧ step u = .next t

/-- A state that a run from power-on can reach. -/
def Reachable (t : State) : Prop := ∃ k, Reaches State.reset k t

end Sys2Proof.Machine
end

