-- ==== Sys2Proof/Certificates/Slice0/Obligations.lean ====
section
/-!
DEFINITION. The statements about this model, each from the numbered rules of spec/ that it cites; before them the words they are stated in.
A statement about what a slot does says the whole next state: what it does not name is unchanged.
-/

namespace Sys2Proof.Spec

open Sys2Proof.Machine

/-- A slot acts (R164): the seat whose turn it is holds strand st, the slot's guard is true, and no trap has been raised. -/
structure Acts (s : State) (st : Strand) (g : BitVec 4) : Prop where
  seat : s.strand = some st
  guard : st.pr g = true
  quiet : s.raised = none

/-- A slot acts within a bundle (R174): a trap that it raises is taken when the bundle has been looked at as a whole. -/
structure ActsInBundle (s : State) (st : Strand) (g : BitVec 4) : Prop extends Acts s st g where
  bundle : s.inBundle = true

/-- What a slot answers: the next state. -/
abbrev gives (i : Instr) (s t : State) : Prop := exec i s = .next t

/-- A slot that changes the strand only: registers in flight, waits, modes; memory and everything else stay. -/
def becomes (i : Instr) (s : State) (st : Strand) : Prop := exec i s = .next (s.setStrand st)

/-- A slot that raises a trap at its issue step and changes nothing (R174). -/
def traps (i : Instr) (s : State) (t : Trap) : Prop := exec i s = .next { s with raised := some t }

/-- Results that will land l steps after the issue step (R165). -/
def lands (st : Strand) (l : Nat) (rs : List Res) : Strand :=
  { st with pend := st.pend ++ rs.map fun r => ⟨st.clk + l, st.order, r⟩ }

/-- A write of Xd under its physical number; X0 discards it (R175, R176). -/
def toX (st : Strand) (d : BitVec 6) (v : Word) : List Res :=
  if d.toNat = 0 then [] else [.x (if d.toNat < 32 then d.toNat else 32 + (d.toNat - 32 + st.regs.xrot) % 32) v]

/-- A write of Pn; P0 and P1 discard it (R175, R176). -/
def toP (st : Strand) (n : Nat) (b : Bool) : List Res :=
  if n = 0 ∨ n = 1 then [] else [.p (if n < 8 then n else 8 + (n - 8 + st.regs.prot) % 8) b]

/-- A compare's pair (R189): the condition and its complement; with pd = 0 both are discarded. -/
def toPair (st : Strand) (p : BitVec 4) (b : Bool) : List Res := toP st p.toNat b ++ toP st (p.toNat + 1) (!b)

/-- A write of Kd; K0 discards it (R175). -/
def toK (n : Nat) (v : Word) : List Res := if n = 0 then [] else [.k n v]

/-- The predicate word (R191): P2 to P15 in bits 2 to 15. -/
def predicateWord (st : Strand) : Word :=
  (List.range 14).foldl (fun w k => if st.pr (BitVec.ofNat 4 (k + 2)) then w ||| (1#64 <<< (k + 2)) else w) 0

/-- Writes of P2 to P15 from bits 2 to 15 of a word (R191). -/
def toPreds (st : Strand) (v : Word) : List Res := ((List.range 14).map fun k => toP st (k + 2) (v.getLsbD (k + 2))).flatten

/-- Leading zero bits, 64 for 0 (R185). -/
def leading (x : Word) : Nat := ((List.range 64).find? fun k => x.getLsbD (63 - k)).getD 64
/-- Trailing zero bits, 64 for 0 (R185). -/
def trailing (x : Word) : Nat := ((List.range 64).find? fun k => x.getLsbD k).getD 64
/-- Set bits (R185). -/
def setCount (x : Word) : Nat := ((List.range 64).filter fun k => x.getLsbD k).length

/-- The immediate of an XI slot: imm8, or {byte, imm8} under LEND, sign-extended (R170, R187). -/
def xiValue (x : Option (BitVec 8)) (i : BitVec 8) : Word :=
  match x with
  | none => BitVec.ofInt 64 i.toInt
  | some b => BitVec.ofInt 64 (b ++ i).toInt

end Sys2Proof.Spec

open Sys2Proof Sys2Proof.Machine Sys2Proof.Spec

/-! ### Decoding, encoding and the step -/

/-- Words that spec/ writes out decode to the instructions it writes them for (R184 to R192, R199, R201, R208 to R211 and others). -/
def Obligations.SpecWordsDecode : Prop :=
  decodeTableWord 32 0x0000000D = some (.stall 0 13 none) ∧ decodeTableWord 32 0x101491C8 = some (.div 0 9 7 8) ∧
  decodeTableWord 32 0x20610503 = some (.srai 0 4 5 3 none) ∧ decodeTableWord 32 0x30020A30 = some (.cmpeq 0 4 5 6) ∧
  decodeTableWord 32 0x3049123F = some (.tbit 0 2 9 63) ∧ decodeTableWord 32 0x30520430 = some (.pand 0 4 2 6) ∧
  decodeTableWord 32 0x400FFFFE = some (.br 0 (-2) none) ∧ decodeTableWord 32 0x4031C000 = some (.callx 0 7) ∧
  decodeTableWord 32 0x40A60000 = some (.spbrk 0 3) ∧ decodeTableWord 32 0x90005000 = some (.gset 0 0 20) ∧
  decodeTableWord 32 0xB065A992 = some (.dfv 0 11 10 12 18) ∧ decodeTableWord 32 0xD020EA10 = some (.aadd 0 7 20 8) ∧
  decodeTableWord 32 0xE0168420 = some (.movsw 0 26 0x042) ∧ decodeTableWord 32 0xE0515000 = some (.traprd 0 5 2) ∧
  decodeTableWord 32 0xF1040400 = some (.rep 4 0 0 1) ∧ decodeTableWord 32 0x07000000 = some (.nop 7)

/-- For every well-formed instruction that a slot holds, decoding its word gives it back, with every operand at every value that the
encoding admits; a header stands in slot 0 (R163, R169, R179, R180). -/
def Obligations.EncodeThenDecode : Prop :=
  ∀ (i : Instr) (w : BitVec 32) (x : Option (BitVec 8)) (pos : Nat), i.wf = true → encode i = some (w, x) →
    (wordClass w = 15 → pos = 0) → decodeSlot pos w x = .ok i

/-- A slot whose guard is false changes nothing (R164): every slot but the headers, which have no guard, and the branches, whose delay
bundle stands whatever the guard (R193). The guard is bits [27:24] of the slot's word. -/
def Obligations.FalseGuardChangesNothing : Prop :=
  ∀ (i : Instr) (w : BitVec 32) (x : Option (BitVec 8)) (s : State) (st : Strand), encode i = some (w, x) → wordClass w ≠ 15 →
    (wordClass w = 4 → 4 ≤ fieldAt w 20 4) → s.strand = some st → st.pr (bitsAt w 24 4) = false → gives i s s

/-- What a read of a register gives (R175, R176): X0 reads 0, P0 true, P1 false and K0 all ones; X32 to X63 and P8 to P15 are the physical
registers that XROT and PROT map them to. -/
def Obligations.RegisterReads : Prop :=
  ∀ (st : Strand), st.xr (0#6) = 0 ∧ st.pr (0#4) = true ∧ st.pr (1#4) = false ∧ st.kr (0#3) = BitVec.allOnes 64 ∧
    (∀ n : BitVec 6, 1 ≤ n.toNat → n.toNat < 32 → st.xr n = st.regs.x[n.toNat]?.getD 0) ∧
    (∀ n : BitVec 6, 32 ≤ n.toNat → st.xr n = st.regs.x[32 + (n.toNat - 32 + st.regs.xrot) % 32]?.getD 0) ∧
    (∀ n : BitVec 4, 2 ≤ n.toNat → n.toNat < 8 → st.pr n = st.regs.p.getLsbD n.toNat) ∧
    (∀ n : BitVec 4, 8 ≤ n.toNat → st.pr n = st.regs.p.getLsbD (8 + (n.toNat - 8 + st.regs.prot) % 8)) ∧
    (∀ n : BitVec 3, 1 ≤ n.toNat → st.kr n = st.regs.k[n.toNat]?.getD 0)

/-! ### Scalar, predicate and control instructions -/

/-- Scalar register form (R185): each result lands in Xd after its latency; division never traps (R186). Scalar immediate form (R187, R188):
each result lands in Xd after one step; a shift count is the six bits of its field. -/
def Obligations.ScalarResults : Prop :=
  (∀ (s : State) (st : Strand) (g : BitVec 4) (d a b : BitVec 6), Acts s st g →
     let A := st.xr a
     let B := st.xr b
     let is : Instr → Nat → Word → Prop := fun i l v => becomes i s (lands st l (toX st d v))
     is (.add g d a b) 1 (BitVec.ofNat 64 (A.toNat + B.toNat)) ∧
     is (.sub g d a b) 1 (BitVec.ofInt 64 (A.toInt - B.toInt)) ∧
     is (.mul g d a b) 3 (BitVec.ofNat 64 (A.toNat * B.toNat)) ∧
     is (.mulh g d a b) 3 (BitVec.ofInt 64 (A.toInt * B.toInt / 2 ^ 64)) ∧
     is (.mulhn g d a b) 3 (BitVec.ofNat 64 (A.toNat * B.toNat / 2 ^ 64)) ∧
     is (.div g d a b) 12 (if B = 0 then BitVec.allOnes 64 else BitVec.ofInt 64 (A.toInt.tdiv B.toInt)) ∧
     is (.divn g d a b) 12 (if B = 0 then BitVec.allOnes 64 else BitVec.ofNat 64 (A.toNat / B.toNat)) ∧
     is (.rem g d a b) 12 (if B = 0 then A else BitVec.ofInt 64 (A.toInt - B.toInt * A.toInt.tdiv B.toInt)) ∧
     is (.remn g d a b) 12 (if B = 0 then A else BitVec.ofNat 64 (A.toNat - B.toNat * (A.toNat / B.toNat))) ∧
     is (.and g d a b) 1 (A &&& B) ∧ is (.or g d a b) 1 (A ||| B) ∧ is (.xor g d a b) 1 (A ^^^ B) ∧ is (.andn g d a b) 1 (A &&& ~~~B) ∧
     is (.shl g d a b) 1 (A <<< (bitsAt B 0 6).toNat) ∧ is (.shr g d a b) 1 (A >>> (bitsAt B 0 6).toNat) ∧
     is (.sra g d a b) 1 (BitVec.ofInt 64 (A.toInt / 2 ^ (bitsAt B 0 6).toNat)) ∧
     is (.min g d a b) 1 (BitVec.ofInt 64 (min A.toInt B.toInt)) ∧ is (.max g d a b) 1 (BitVec.ofInt 64 (max A.toInt B.toInt)) ∧
     is (.minn g d a b) 1 (BitVec.ofNat 64 (min A.toNat B.toNat)) ∧ is (.maxn g d a b) 1 (BitVec.ofNat 64 (max A.toNat B.toNat)) ∧
     is (.clz g d a) 1 (BitVec.ofNat 64 (leading A)) ∧ is (.ctz g d a) 1 (BitVec.ofNat 64 (trailing A)) ∧
     is (.popc g d a) 1 (BitVec.ofNat 64 (setCount A)) ∧
     is (.add32 g d a b) 1 (BitVec.ofInt 64 (bitsAt (A + B) 0 32).toInt) ∧ is (.sub32 g d a b) 1 (BitVec.ofInt 64 (bitsAt (A - B) 0 32).toInt)) ∧
  (∀ (s : State) (st : Strand) (g : BitVec 4) (d a : BitVec 6) (i : BitVec 8) (n : BitVec 6) (h : BitVec 2) (x : Option (BitVec 8)),
     Acts s st g →
     let A := st.xr a
     let I := xiValue x i
     let v : BitVec 16 := match x with | none => BitVec.ofInt 16 i.toInt | some b => b ++ i
     let is : Instr → Word → Prop := fun i v => becomes i s (lands st 1 (toX st d v))
     is (.addi g d a i x) (A + I) ∧ is (.andi g d a i x) (A &&& I) ∧ is (.ori g d a i x) (A ||| I) ∧ is (.xori g d a i x) (A ^^^ I) ∧
     is (.shli g d a n x) (BitVec.ofNat 64 (A.toNat * 2 ^ n.toNat)) ∧ is (.shri g d a n x) (BitVec.ofNat 64 (A.toNat / 2 ^ n.toNat)) ∧
     is (.srai g d a n x) (BitVec.ofInt 64 (A.toInt / 2 ^ n.toNat)) ∧ is (.movi g d i x) I ∧
     is (.movk g d h i x) ((st.xr d &&& ~~~(0xFFFF#64 <<< (16 * h.toNat))) ||| (BitVec.ofNat 64 v.toNat <<< (16 * h.toNat)))) ∧
  (decodeTableWord 32 0x101491C8 = some (.div 0 9 7 8) ∧ decodeTableWord 32 0x10344146 = some (.shl 0 4 5 6) ∧
   decodeTableWord 32 0x10504140 = some (.clz 0 4 5))

/-- Compares (R189): the condition lands in Ppd and its complement in Ppd+1 after one step; with pd = 0 both are discarded. Predicate
operations and the predicate word (R190, R191), landing after one step. -/
def Obligations.ComparesAndPredicates : Prop :=
  (∀ (s : State) (st : Strand) (g p : BitVec 4) (a b n : BitVec 6) (i : BitVec 9) (x : Option (BitVec 8)), Acts s st g → p.toNat % 2 = 0 →
     let A := st.xr a
     let B := st.xr b
     let I : Word := match x with | none => BitVec.ofInt 64 i.toInt | some y => BitVec.ofInt 64 (y ++ i).toInt
     let is : Instr → Bool → Prop := fun i c => becomes i s (lands st 1 (if p = 0 then [] else toP st p.toNat c ++ toP st (p.toNat + 1) (!c)))
     is (.cmpeq g p a b) (decide (A = B)) ∧ is (.cmpne g p a b) (decide (A ≠ B)) ∧
     is (.cmplt g p a b) (decide (A.toInt < B.toInt)) ∧ is (.cmple g p a b) (decide (A.toInt ≤ B.toInt)) ∧
     is (.cmpltn g p a b) (decide (A.toNat < B.toNat)) ∧ is (.cmplen g p a b) (decide (A.toNat ≤ B.toNat)) ∧
     is (.cmpeqi g p a i x) (decide (A = I)) ∧ is (.cmplti g p a i x) (decide (A.toInt < I.toInt)) ∧
     is (.cmplei g p a i x) (decide (A.toInt ≤ I.toInt)) ∧ is (.tbit g p a n) (A.getLsbD n.toNat)) ∧
  (∀ (s : State) (st : Strand) (g d a b v : BitVec 4) (x : BitVec 6), Acts s st g →
     let A := st.pr a
     let B := st.pr b
     let is : Instr → Bool → Prop := fun i c => becomes i s (lands st 1 (toP st d.toNat c))
     is (.pand g d a b) (A && B) ∧ is (.por g d a b) (A || B) ∧ is (.pxor g d a b) (A != B) ∧ is (.pandn g d a b) (A && !B) ∧
     is (.pmov g d a) A ∧ is (.pset g d v) (v.getLsbD 0) ∧
     becomes (.pload g x) s (lands st 1 (toPreds st (st.xr x))) ∧ becomes (.pstore g x) s (lands st 1 (toX st x (predicateWord st))))

/-- NOP and the headers take no effect of their own beyond their bundle's; STALL holds its bundle for its count, the largest of the
bundle's counts; REP sets the repetition under way and their number (R170 to R172, R184). After a repetition that is not the last the REP's bundle
stands as it did, with REPIDX one more; after the last the seat goes on as after a bundle without REP (R172). -/
def Obligations.NopStallAndHeaders : Prop :=
  (∀ (s : State) (st : Strand) (g : BitVec 4) (n c b a : BitVec 8) (x : Option (BitVec 8)) (z y w : BitVec 2), Acts s st g →
    becomes (.nop g) s st ∧ gives (.lend c b a) s s ∧
    becomes (.stall g n x) s { st with stall := max st.stall ((x.getD 0).toNat * 256 + n.toNat) } ∧
    becomes (.rep 0 z y w) s st ∧
    (n ≠ 0 → becomes (.rep n z y w) s { st with regs := { st.regs with rep := some (st.regs.rep.getD 0), repN := n.toNat } })) ∧
  (∀ (r : Regs) (c : Ctl) (j : Nat), r.rep = some j →
    (j + 1 < r.repN → r.nextBundle c = { r with rep := some (j + 1) }) ∧
    (r.repN ≤ j + 1 → r.nextBundle c = Regs.nextBundle { r with rep := none, repN := 0 } c))

/-- Branches (R192, R193): a true guard asks for the target after the delay bundle and lands the link in X1 one step later; a false one asks
for B + 32. Addresses are taken modulo 2^64 (the model's choice, notes/assumptions/17.md). After a bundle at pc whose branch asks for t,
the delay bundle at pc + 16 is next with the branch pending; after the delay bundle the target is next, in a loop or not, and no branch is
pending (R192, R193). Outside a nest and at the last repetition of a REP. -/
def Obligations.BranchesTakeTheirDelayBundle : Prop :=
  (∀ (s : State) (st : Strand) (g : BitVec 4) (a : BitVec 6) (o : BitVec 20) (x : Option (BitVec 8)), s.strand = some st → s.raised = none →
     let B := st.regs.pc
     let off : Int := match x with | none => o.toInt | some b => (b ++ o).toInt
     let near := (((B : Int) + 16 * off) % 2 ^ 64).toNat
     let far := (st.xr a).toNat - (st.xr a).toNat % 16
     let link := [Res.x 1 (BitVec.ofNat 64 (B + 32))]
     let goes : Instr → Nat → List Res → Prop := fun i t rs => becomes i s { lands st 1 rs with ctl := .branch t }
     (st.pr g = true → goes (.br g o x) near [] ∧ goes (.call g o x) near link ∧ goes (.jmp g a) far [] ∧ goes (.callx g a) far link) ∧
     (st.pr g = false → goes (.br g o x) (B + 32) [] ∧ goes (.call g o x) (B + 32) [] ∧ goes (.jmp g a) (B + 32) [] ∧ goes (.callx g a) (B + 32) [])) ∧
  (∀ (r : Regs) (t : Nat), r.spool = none → r.rep = none →
     (r.branch = none → (r.nextBundle (.branch t)).pc = r.pc + 16 ∧ (r.nextBundle (.branch t)).branch = some t) ∧
     (r.branch = some t → (r.nextBundle .none).pc = t ∧ (r.nextBundle .none).branch = none))

/-- LOOP (R195): a count of 0 passes control over the body; another count lands LC, EC and P8 for the first body bundle, at pc + 16. The end
of a LOOP iteration (R195, R196, R176): LC, else EC, is decremented; a MOVSW to LC or EC held during the iteration replaces it; XROT and
PROT rotate at every end; with both counts 0 the bundle after the body is next, else the first body bundle is, and P8, named through the
new PROT, tells whether LC is left. Elsewhere in the body the next bundle follows. -/
def Obligations.LoopsRunTheirIterations : Prop :=
  (∀ (s : State) (st : Strand) (g : BitVec 4) (a : BitVec 6) (e : BitVec 4) (l : BitVec 10) (x : Option (BitVec 8)), Acts s st g →
     let n := (bitsAt (st.xr a) 0 32).toNat
     let len := match x with | none => l.toNat | some b => (b ++ l).toNat
     (n = 0 → becomes (.loop g a e l x) s { st with ctl := .skipLoop len }) ∧
     (n ≠ 0 → becomes (.loop g a e l x) s { lands st 1 ([.lc n, .ec e.toNat] ++ toP st 8 true) with ctl := .loop len }) ∧
     (∀ r : Regs, r.spool = none → r.rep = none →
       (r.nextBundle (.skipLoop len)).pc = r.pc + 16 * (len + 1) ∧ (r.nextBundle (.skipLoop len)).loop = r.loop ∧
       (r.nextBundle (.loop len)).pc = r.pc + 16 ∧ (r.nextBundle (.loop len)).loop = some ⟨r.pc + 16, len, none, none⟩)) ∧
  (∀ (r : Regs) (l : Loop), r.spool = none → r.rep = none → r.branch = none → r.loop = some l →
     let t := r.nextBundle .none
     let lc := l.lcHeld.getD (if 0 < r.lc then r.lc - 1 else r.lc)
     let ec := l.ecHeld.getD (if 0 < r.lc then r.ec else r.ec - 1)
     (r.pc = l.start + 16 * (l.length - 1) →
       t.lc = lc ∧ t.ec = ec ∧ t.xrot = (r.xrot + 31) % 32 ∧ t.prot = (r.prot + 7) % 8 ∧ t.x = r.x ∧ t.v = r.v ∧ t.k = r.k ∧
       (lc = 0 ∧ ec = 0 → t.pc = r.pc + 16 ∧ t.loop = none ∧ t.p = r.p) ∧
       (¬ (lc = 0 ∧ ec = 0) → t.pc = l.start ∧ t.loop = some { l with lcHeld := none, ecHeld := none } ∧
         t.pAt 8 = decide (0 < lc) ∧ ∀ n : Nat, n < 16 → n ≠ 8 + (t.prot % 8) → t.p.getLsbD n = r.p.getLsbD n)) ∧
     (r.pc ≠ l.start + 16 * (l.length - 1) → t = { r with rep := none, repN := 0, pc := r.pc + 16 }))

namespace Sys2Proof.Spec

/-- The record of a strand that leaves its seat (R24, R27): PC, WADDR, WTGT, X2 to X4, team, identifier, flags, predicates, PRI, DRAW. -/
def leftRecord (st : Strand) (waddr wtgt flags : Nat) : List Byte :=
  leBytes 8 st.regs.pc ++ leBytes 8 waddr ++ leBytes 8 wtgt ++ leBytes 8 (st.xr (2#6)).toNat ++ leBytes 8 (st.xr (3#6)).toNat ++ leBytes 8 (st.xr (4#6)).toNat ++
    leBytes 4 st.team ++ leBytes 2 st.asid ++ leBytes 2 flags ++ leBytes 2 (predicateWord st).toNat ++ leBytes 1 st.pri ++ leBytes 1 st.draw ++
    leBytes 4 0

/-- The turn of a seat whose strand is to leave it (R27, R29): nothing of the strand is left to land or to be performed, and its clock runs. -/
structure Leaves (s : State) (q : SeatId) (rest : List Input) (st : Strand) : Prop where
  input : s.inputs = .seat q :: rest
  seat : s.strandAt q = some st
  place : q.tile < 384
  order : rising s.seats = true
  clock : s.clockRuns (q.tile / 64) = true
  free : st.idle = none ∧ st.held = none ∧ st.handler = none
  landed : st.pend = [] ∧ st.drains = [] ∧ st.adds = [] ∧ st.swap = none ∧ st.gate = []
  quiet : s.flight = []
  memory : s.memoryCanonical

end Sys2Proof.Spec

/-- MARK performs the gated stores and makes its bundle a mark; EXIT, PARK without a wait and PARK on a counter that translates ask to
leave the seat at the bundle's end; TRAP raises software trap after its bundle (R27, R29, R197 to R199). PARK in handler mode is an
illegal bundle (R341). Once nothing is left to land the strand leaves: PARK writes its record with the next bundle's PC, and with WADDR, WTGT and
WAIT where it waits, and puts it into a ready queue or on a watch; EXIT leaves the team, an arrival and a leave, clears the record's bit in its
pool and counts in the launch; the seat is free (R24, R25, R27, R29, R31). -/
def Obligations.MarkParkExitTrap : Prop :=
  (∀ (s : State) (st : Strand) (g : BitVec 4) (a b : BitVec 6) (c : BitVec 8), ActsInBundle s st g →
    (∀ u, s.flushGate = .ok u → ∃ v, u.strand = some v ∧ gives (.mark g) s (u.setStrand { v with marked := true })) ∧
    becomes (.exit g) s { st with ctl := .exit } ∧
    gives (.trap g c) s { s with raised := some { cause := 0x10, arg := c.toNat, after := true } } ∧
    (st.handler = none → becomes (.park g a 0) s { st with ctl := .park (st.xr a).toNat none }) ∧
    (∀ p, st.handler = none → b ≠ 0 → (st.xr a).toNat % 8 = 0 → s.translate (fieldOf s.cur.tile) st.asid (st.xr a).toNat false = some p →
      gives (.park g a b) s ((s.fillXlat (fieldOf s.cur.tile) st.asid (st.xr a).toNat).setStrand
        { st with ctl := .park (st.xr a).toNat (some (st.xr b).toNat) })) ∧
    (st.handler ≠ none → traps (.park g a b) s (illegalTrap 11))) ∧
  (∀ (s : State) (q : SeatId) (rest : List Input) (st : Strand) (A : Nat), Leaves s q rest st → st.recAddr % 64 = 0 →
    s.translate 0 st.asid st.recAddr true = some A →
    let flags := (if st.gang then 2 else 0) + (if st.service then 8 else 0)
    let left : State → List Byte → Prop := fun t bs => step s = .next t ∧ t.strandAt q = none ∧ memReads t.mem A 64 = bs
    let queued : State → Prop := fun t => ∃ (f : Nat) (d : Field), t.fields[f]? = some d ∧ ∃ r ∈ d.ready, r.record = st.recAddr ∧ r.asid = st.asid
    (∀ x, st.wait = .park x none → ∃ t, left t (leftRecord st 0 0 flags) ∧ queued t) ∧
    (∀ x n a, st.wait = .park x (some n) → s.translate (q.tile / 64) st.asid x false = some a →
      (n ≤ s.natAt a 8 → ∃ t, left t (leftRecord st x n (flags + 1)) ∧ queued t) ∧
      (s.natAt a 8 < n → s.watchRoom a = true → ∃ t, left t (leftRecord st x n (flags + 1)) ∧ ∃ w ∈ t.watches, w.addr = a ∧ w.target = n ∧
        w.armed = true ∧ ∃ r f, w.waiter = .strand r f ∧ r.record = st.recAddr ∧ r.asid = st.asid))) ∧
  (∀ (s y : State) (q : SeatId) (rest : List Input) (st : Strand), Leaves s q rest st → st.wait = .exit →
    (let z := { s with inputs := rest, cur := q, raised := none, inBundle := false }
     st.team = 0xFFFFFFFF ∧ y = z ∨ st.team ≠ 0xFFFFFFFF ∧ ∃ a, s.translate (q.tile / 64) st.asid (st.team * 64) true = some a ∧
       s.natAt a 8 + 1 < 2 ^ 64 ∧ y = (z.leaveTeam a).1) →
    ∃ t, step s = .next t ∧ t.strandAt q = none ∧
      (∀ l, s.launchOf st.launch = some l → ∃ m, t.launchOf st.launch = some m ∧ m.exited = l.exited + 1) ∧
      ∀ base n bmap sh b, y.pool st.asid (y.idRecord st.asid 8) = some (base, n, bmap, sh) → base ≤ st.recAddr →
        let k := (st.recAddr - base) / 64
        y.translate 0 st.asid (bmap + 8 * (k / 64)) true = some b →
        (∀ i < 64, (t.natAt b 8).testBit i = ((y.natAt b 8).testBit i && decide (i ≠ k % 64))) ∧
        ∀ a, a < b ∨ b + 8 ≤ a → memRead t.mem a = memRead y.mem a) ∧
  (∀ (s : State) (a : Nat), s.memoryCanonical →
    let T := s.teamAt a
    let N := (s.leaveTeam a).1.teamAt a
    T.members ≠ 0 → T.arrivals + 1 < 2 ^ 64 → T.leaves + 1 < 2 ^ 32 → T.members + T.joins < 2 ^ 32 → T.base + T.members < 2 ^ 64 →
    (T.arrivals + 1 ≠ T.base + T.members → N = { T with arrivals := T.arrivals + 1, leaves := T.leaves + 1 }) ∧
    (T.arrivals + 1 = T.base + T.members → T.gang = false →
      let m := T.members - T.leaves + T.joins
      N = { T with arrivals := T.arrivals + 1, base := T.base + T.members, members := m, joins := 0, leaves := if m = 0 then 0 else 1 }))

namespace Sys2Proof.Spec

/-- The trip count of a level (R129): an immediate, an X register, a SQLEN, or that in groups of 64. -/
def trips (W : Nat) (r : Regs) : Nat :=
  let sel := W / 2 ^ 244 % 2 ^ 6
  let sq := (r.sqlen[sel]?.getD 0).toNat % 2 ^ 32
  if W / 2 ^ 250 % 4 = 0 then W / 2 ^ 212 % 2 ^ 32
  else if W / 2 ^ 250 % 4 = 1 then (r.xAt sel).toNat % 2 ^ 32
  else if W / 2 ^ 250 % 4 = 2 then sq
  else (sq + 63) / 64

/-- The registers g after a level's increments (R129, R130): each of INC0 to INC3 that names a register gives it the value that it held when the
iteration's last bundle issued, plus the delta; of two that name one register the later stands (notes/assumptions/74.md). -/
def Incremented (W : Nat) (old r g : Regs) : Prop :=
  let reg : Nat → Nat := fun lo => W / 2 ^ (lo + 16) % 2 ^ 6
  g = { r with x := g.x } ∧ ∀ p < 64, g.x[p]?.getD 0 =
    match [66, 44, 22, 0].find? fun lo => reg lo != 0 && (if reg lo < 32 then reg lo else 32 + (reg lo - 32 + old.xrot) % 32) == p with
    | some lo => old.xAt (reg lo) + (BitVec.ofNat 16 (W / 2 ^ lo)).signExtend 64
    | none => r.x[p]?.getD 0

/-- After a bundle of its nest, or a SPOOL, a seat that issues at the next step stands at levels ls, with registers g (R130). -/
def StandsAt (m : Memory) (c : Ctl) (old r g : Regs) (nest : Nat) (ls : List SpoolLevel) : Prop :=
  ∃ sp, r.nestOn m c true old = { g with spool := some sp } ∧ sp.nest = nest ∧ sp.levels = ls ∧ sp.empty = false ∧ sp.start = none

end Sys2Proof.Spec

/-- SPOOL asks for its nest once every level that it can reach is in order, and otherwise raises illegal bundle with TRAPARG the level at
fault (R129, R201), with reason 5, the model's choice (notes/assumptions/79.md); SPBRK ends the running iteration of an active level and is
elsewhere illegal with reason 11 (R132); ERET leaves handler mode and elsewhere raises privilege (R200). The nest's run (R129, R130, R132): a level
whose trip count is 0 runs nothing; entry, body and exit templates follow one another; the level inside starts after the body; at an iteration's
end, or at its SPBRK, the increments act and the next iteration or the exit follows; after the nest the bundle behind SPOOL does. -/
def Obligations.SpoolBreakAndEret : Prop :=
  (∀ (s : State) (st : Strand) (g n : BitVec 4) (l : BitVec 3), ActsInBundle s st g →
    (badLevel (s.templates st) n.toNat 6 l.toNat = none → becomes (.spool g n l) s { st with ctl := .spool n.toNat l.toNat }) ∧
    (∀ b, badLevel (s.templates st) n.toNat 6 l.toNat = some b → traps (.spool g n l) s { cause := 0x01, arg := b, reason := 5 }) ∧
    ((∃ sp, st.regs.spool = some sp ∧ ∃ t ∈ sp.levels, t.level = l.toNat ∧ (t.section_ = 1 ∨ t.section_ = 2)) →
      becomes (.spbrk g l) s { st with ctl := .spbrk l.toNat }) ∧
    ((∀ sp, st.regs.spool = some sp → ∀ t ∈ sp.levels, ¬ (t.level = l.toNat ∧ (t.section_ = 1 ∨ t.section_ = 2))) →
      traps (.spbrk g l) s (illegalTrap 11)) ∧
    (st.handler ≠ none → becomes (.eret g) s { st with ctl := .eret }) ∧
    (st.handler = none → traps (.eret g) s { cause := 0x0D, arg := 0 })) ∧
  (∀ (m : Memory) (r old : Regs) (sp : Spool) (d l : Nat), r.rep = none →
    let W := levelWord m d l
    (r.spool = none → let t := r.nextBundle (.spool d l)
      t.pc = r.pc + 16 ∧ ∃ n, t.spool = some n ∧ n.nest = d ∧ n.levels = []) ∧
    (r.spool = some sp → r.nextBundle .none = { r with rep := none, repN := 0 }) ∧
    (r.spool = some sp → sp.nest = d →
      (trips W r = 0 → r.nestOn m (.spool d l) true old = { r with spool := none }) ∧
      (trips W r ≠ 0 → 0 < W / 2 ^ 197 % 2 ^ 6 → StandsAt m (.spool d l) old r r d [⟨l, trips W r, 0, 0, 0, false⟩]) ∧
      (trips W r ≠ 0 → W / 2 ^ 197 % 2 ^ 6 = 0 → 0 < W / 2 ^ 179 % 2 ^ 9 → StandsAt m (.spool d l) old r r d [⟨l, trips W r, 0, 1, 0, false⟩]))) ∧
  (∀ (m : Memory) (r old : Regs) (sp : Spool) (t : SpoolLevel) (ls : List SpoolLevel), r.spool = some sp → sp.levels = t :: ls → sp.empty = false →
    let word : SpoolLevel → Nat := fun v => levelWord m sp.nest v.level
    let entry : Nat → Nat := fun W => W / 2 ^ 197 % 2 ^ 6
    let body : Nat → Nat := fun W => W / 2 ^ 179 % 2 ^ 9
    let exit_ : Nat → Nat := fun W => W / 2 ^ 164 % 2 ^ 6
    let W := word t
    let ran : List SpoolLevel → List SpoolLevel := fun vs => vs.map fun v => { v with issued := true }
    let goes : Ctl → Regs → List SpoolLevel → Prop := fun c g vs => StandsAt m c old r g sp.nest vs
    let ends : Ctl → SpoolLevel → List SpoolLevel → Prop := fun c v vs => ∃ g, Incremented (word v) old r g ∧
      (v.iter + 1 < v.trips → 0 < body (word v) → goes c g ({ v with iter := v.iter + 1, section_ := 1, pos := 0, issued := false } :: ran vs)) ∧
      (v.iter + 1 = v.trips → 0 < exit_ (word v) → goes c g ({ v with section_ := 3, pos := 0, issued := true } :: ran vs)) ∧
      (v.iter + 1 = v.trips → exit_ (word v) = 0 → vs = [] → r.nestOn m c true old = { g with spool := none })
    (t.section_ = 0 → (t.pos + 1 < entry W → goes .none r ({ t with pos := t.pos + 1, issued := true } :: ran ls)) ∧
      (t.pos + 1 = entry W → 0 < body W → goes .none r ({ t with section_ := 1, pos := 0, issued := false } :: ran ls))) ∧
    (t.section_ = 1 → (t.pos + 1 < body W → goes .none r ({ t with pos := t.pos + 1, issued := true } :: ran ls)) ∧
      (t.pos + 1 = body W → W / 2 ^ 252 % 2 = 0 → ends .none t ls) ∧
      (t.pos + 1 = body W → W / 2 ^ 252 % 2 = 1 →
        let V := levelWord m sp.nest (t.level + 1)
        let outer := { t with section_ := 2, pos := t.pos + 1, issued := true } :: ran ls
        (trips V r ≠ 0 → 0 < entry V → goes .none r (⟨t.level + 1, trips V r, 0, 0, 0, false⟩ :: outer)) ∧
        (trips V r ≠ 0 → entry V = 0 → 0 < body V → goes .none r (⟨t.level + 1, trips V r, 0, 1, 0, false⟩ :: outer)) ∧
        (trips V r = 0 → ends .none t ls))) ∧
    (t.section_ = 3 → (t.pos + 1 < exit_ W → goes .none r ({ t with pos := t.pos + 1, issued := true } :: ran ls)) ∧
      (t.pos + 1 = exit_ W → (ls = [] → r.nestOn m .none true old = { r with spool := none }) ∧
        ∀ v vs, ls = v :: vs → v.section_ = 2 → ends .none v vs)) ∧
    (∀ l before v after, t :: ls = before ++ v :: after → v.level = l → (∀ x ∈ before, x.level ≠ l) → ends (.spbrk l) v after))

/-- Spill memory (R202): every form lands after one step; a scalar store sets its slot's tag to RAW; a vector takes 32 slots, two lanes in
each, with its tag; register 8 of SPLDP and SPSTP is the predicate word. -/
def Obligations.SpillResults : Prop :=
  ∀ (s : State) (st : Strand) (g : BitVec 4) (r : BitVec 6) (v : BitVec 5) (i : BitVec 9), Acts s st g →
    let slot : Nat → Word := fun k => st.regs.spill[k]?.getD 0
    let half : Nat → Lane := fun l => if l % 2 = 0 then bitsAt (slot (i.toNat + l / 2)) 0 32 else bitsAt (slot (i.toNat + l / 2)) 32 32
    let is : Instr → List Res → Prop := fun j rs => becomes j s (lands st 1 rs)
    is (.spld g r i) (toX st r (slot i.toNat)) ∧
    is (.spst g r i) [.spill i.toNat (st.xr r) 0] ∧
    is (.spldv g v i) [.v v.toNat (st.regs.spillTag[i.toNat]?.getD 0) (BitVec.allOnes 64) (Vector.ofFn fun l : Fin 64 => half l.val)] ∧
    is (.spstv g v i) ((List.range 32).map fun j =>
      .spill (i.toNat + j) ((st.vr v).lane (2 * j + 1) ++ (st.vr v).lane (2 * j)) (st.vr v).tag) ∧
    (r.toNat < 8 → is (.spldp g r i) (toK r.toNat (slot i.toNat)) ∧ is (.spstp g r i) [.spill i.toNat (st.kr r) 0]) ∧
    (r.toNat = 8 → is (.spldp g r i) (toPreds st (slot i.toNat)) ∧ is (.spstp g r i) [.spill i.toNat (predicateWord st) 0])

/-- MOVS (R177, R208): Xd receives the value of the special register at the issue step, STEPCLK its own step; that STEP is the identifier's newest
one, of which there is one copy, is the model's choice (notes/assumptions/6.md). MOVSW (R177, R196, R208, R85):
the register named is written one step later, LC and EC as R196 states, FLAGS as R85 states; a register narrower than 64 bits ignores the
upper bits; a register marked RO stays. -/
def Obligations.SpecialRegistersReadAndWritten : Prop :=
  (∀ (s : State) (st : Strand) (g : BitVec 4) (d : BitVec 6), Acts s st g →
     let w : Nat → Word := BitVec.ofNat 64
     let is : Nat → Word → Prop := fun n v => becomes (.movs g d (BitVec.ofNat 10 n)) s (lands st 1 (toX st d v))
     is 0x000 (w (s.stepOf st.asid)) ∧ is 0x001 (w st.clk) ∧ is 0x002 (w st.regs.xrot) ∧ is 0x003 (w st.regs.prot) ∧
     is 0x004 (w st.regs.lc) ∧ is 0x005 (w st.regs.ec) ∧ is 0x006 (w (st.regs.rep.getD 0)) ∧ is 0x007 (w st.regs.flags.toNat) ∧
     is 0x008 (st.trapRec[0]) ∧ is 0x009 (st.trapRec[1]) ∧ is 0x00A (st.trapRec[2]) ∧ is 0x00B (w (st.recAddr / 64)) ∧
     is 0x00C (w st.team) ∧ is 0x00D (w st.asid) ∧ is 0x00E (w st.pri) ∧ is 0x00F (if st.chk then 1 else 0) ∧
     is 0x010 (w (st.noise.consumed * 2 ^ 32 + (if st.noise.mode = 2 then st.noise.word else 0) * 2 ^ 3 +
       (if s.noiseOff (fieldOf s.cur.tile) then 2 ^ 2 else 0) + st.noise.mode)) ∧
     is 0x011 (w s.cur.tile) ∧ is 0x012 (if st.noise.mode = 2 then w st.noise.slot else 0) ∧
     (∀ k : Fin 4, is (0x020 + k.val) (st.regs.sqlen[k.val])) ∧
     (∀ k : Fin 6, is (0x030 + k.val) (match st.regs.spool with
       | some sp => match sp.levels.find? fun t => t.level == k.val with
         | some t => w (t.trips * 2 ^ 32 + t.iter)
         | none => 0
       | none => 0)) ∧
     (∀ k : Fin 32, is (0x040 + k.val) (st.z[k.val]))) ∧
  (∀ (s : State) (st : Strand) (g : BitVec 4) (a : BitVec 6), Acts s st g →
     let A := st.xr a
     let is : Nat → List Res → Prop := fun n rs => becomes (.movsw g a (BitVec.ofNat 10 n)) s (lands st 1 rs)
     is 0x002 [.xrot (bitsAt A 0 5).toNat] ∧ is 0x003 [.prot (bitsAt A 0 3).toNat] ∧ is 0x004 [.lcMove (bitsAt A 0 32).toNat] ∧
     is 0x005 [.ecMove (bitsAt A 0 4).toNat] ∧ is 0x007 [.flagsMove (bitsAt A 0 6)] ∧
     (∀ k : Fin 4, is (0x020 + k.val) [.sqlen k.val A]) ∧ (∀ k : Fin 32, is (0x040 + k.val) [.z k.val A]) ∧
     (∀ n ∈ [0x000, 0x001, 0x006, 0x008, 0x009, 0x00A, 0x00B, 0x00C, 0x00D, 0x00E, 0x00F, 0x010, 0x011, 0x012, 0x030, 0x031, 0x032, 0x033,
       0x034, 0x035], is n []))

/-- SETPRI, NOISECTL, CHKMODE, TRAPRD and IDLE (R43, R80, R209 to R211); SETPRI above PRI without SERVICE and TRAPRD outside handler mode
raise privilege and change nothing. -/
def Obligations.SystemControls : Prop :=
  ∀ (s : State) (st : Strand) (g : BitVec 4) (d a b : BitVec 6) (o : BitVec 1) (n : BitVec 3), ActsInBundle s st g →
    let p := (bitsAt (st.xr a) 0 8).toNat
    let c := (bitsAt (st.xr a) 0 32).toNat
    ((p ≤ st.pri ∨ st.service = true) → becomes (.setpri g a) s (lands st 1 [.pri p])) ∧
    (st.pri < p → st.service = false → traps (.setpri g a) s { cause := 0x0D, arg := 0 }) ∧
    becomes (.noisectlLive g) s (lands st 1 [.noise 0 0 0]) ∧
    becomes (.noisectlLog g a) s (lands st 1 [.noise 1 (st.xr a).toNat 0]) ∧
    becomes (.noisectlReplay g a b) s (lands st 1 [.noise 2 (st.xr a).toNat (st.xr b).toNat]) ∧
    becomes (.chkmode g o) s (lands st 1 [.chk (o == 1)]) ∧
    (st.handler ≠ none → becomes (.traprd g d n) s (lands st 1 (toX st d (st.trapRec[n.toNat]?.getD 0)))) ∧
    (st.handler = none → traps (.traprd g d n) s { cause := 0x0D, arg := 0 }) ∧
    (c ≠ 0 → becomes (.idle g a) s { st with idle := some c }) ∧ (c = 0 → becomes (.idle g a) s st) ∧
    encode (.traprd g d n) = some (14#4 ++ g ++ 5#4 ++ d ++ n ++ 0#11, none) ∧ decodeTableWord 32 0xE0515000 = some (.traprd 0 5 2)

/-! ### Vector lanes -/

namespace Sys2Proof.Spec

/-- The integer tags (R204): I8, I16, I32 and N32. -/
def integerTag (t : BitVec 4) : Prop := t = 1 ∨ t = 2 ∨ t = 3 ∨ t = 4

/-- The width of an element of an integer tag (R204). -/
def width (t : BitVec 4) : Nat := if t = 1 then 8 else if t = 2 then 16 else 32

/-- An element as the signed number of its w bits. -/
def signed (t : BitVec 4) (x : Lane) : Int :=
  if t = 1 then (bitsAt x 0 8).toInt else if t = 2 then (bitsAt x 0 16).toInt else x.toInt

/-- An element as the natural number of its w bits. -/
def unsigned (t : BitVec 4) (x : Lane) : Nat := x.toNat % 2 ^ width t

/-- An element read by its tag: signed, unsigned for N32 (R204). -/
def element (t : BitVec 4) (x : Lane) : Int := if t = 4 then (x.toNat : Int) else signed t x

/-- A result written as its low w bits, extended by the tag to 32 bits (R204). -/
def written (t : BitVec 4) (v : Int) : Lane :=
  if t = 1 then (BitVec.ofInt 8 v).signExtend 32 else if t = 2 then (BitVec.ofInt 16 v).signExtend 32 else BitVec.ofInt 32 v

/-- A vector result two steps later: the lanes whose mask bit is set, and the tag (R205). -/
def toV (d : BitVec 5) (t : BitVec 4) (mask : Word) (f : Nat → Lane) : List Res :=
  [.v d.toNat t mask (Vector.ofFn fun l : Fin 64 => f l.val)]

end Sys2Proof.Spec

/-- Vector compares (R206, R207): Kd receives the condition and Kd+1 its complement in the lanes that Kk enables, both 0 elsewhere; a write to
K0 is discarded. The other lane operations (R206, R207) and the mask operations, landing after two steps; that VMOV reads no second source is the
model's choice (notes/assumptions/23.md). -/
def Obligations.VectorComparesAndMoves : Prop :=
  (∀ (s : State) (st : Strand) (g : BitVec 4) (d : BitVec 3) (a b : BitVec 5) (k : BitVec 3), Acts s st g → d.toNat % 2 = 0 →
     let t := (st.vr a).tag
     let A : Nat → Lane := (st.vr a).lane
     let B : Nat → Lane := (st.vr b).lane
     integerTag t → (st.vr b).tag = t →
     let is : Instr → (Nat → Bool) → Prop := fun i c => ∃ yes no : Word, becomes i s (lands st 2 (toK d.toNat yes ++ toK (d.toNat + 1) no)) ∧
       ∀ l < 64, yes.getLsbD l = ((st.kr k).getLsbD l && c l) ∧ no.getLsbD l = ((st.kr k).getLsbD l && !c l)
     is (.vcmpeq g d a b k) (fun l => decide (element t (A l) = element t (B l))) ∧
     is (.vcmplt g d a b k) (fun l => decide (signed t (A l) < signed t (B l))) ∧
     is (.vcmple g d a b k) (fun l => decide (signed t (A l) ≤ signed t (B l))) ∧
     is (.vcmpltn g d a b k) (fun l => decide (unsigned t (A l) < unsigned t (B l)))) ∧
  (∀ (s : State) (st : Strand) (g : BitVec 4) (d a b : BitVec 5) (x y : BitVec 6) (kd ka k : BitVec 3) (f : BitVec 4), Acts s st g →
     let t := (st.vr a).tag
     let K := st.kr k
     let A : Nat → Lane := (st.vr a).lane
     let pick := (List.range 64).filter fun l => K.getLsbD l
     let is : Instr → List Res → Prop := fun i rs => becomes i s (lands st 2 rs)
     is (.viota g d k) (toV d 4 (BitVec.allOnes 64) fun l => BitVec.ofNat 32 ((List.range l).filter fun m => K.getLsbD m).length) ∧
     (integerTag f → is (.vbcast g d x f k) (toV d f K fun _ => written f (st.xr x).toNat)) ∧
     (integerTag t → is (.vext g x a y) (toX st x (BitVec.ofInt 64 (element t (A (bitsAt (st.xr y) 0 6).toNat))))) ∧
     (integerTag t → is (.vins g a x y) (toV a t (BitVec.allOnes 64) fun l =>
       if l = (bitsAt (st.xr y) 0 6).toNat then written t (st.xr x).toNat else A l)) ∧
     is (.vpopc g x k) (toX st x (BitVec.ofNat 64 (setCount K))) ∧ is (.vfirst g x k) (toX st x (BitVec.ofNat 64 (trailing K))) ∧
     (integerTag t → is (.vpack g d a k) (toV d t (BitVec.allOnes 64) fun l => match pick[l]? with
       | some m => written t (element t (A m))
       | none => 0)) ∧
     is (.kand g kd ka k) (toK kd.toNat (st.kr ka &&& K)) ∧ is (.kor g kd ka k) (toK kd.toNat (st.kr ka ||| K)) ∧
     is (.kxor g kd ka k) (toK kd.toNat (st.kr ka ^^^ K)) ∧ is (.kmov g kd k) (toK kd.toNat K) ∧
     is (.vmov g d a b k) (toV d t K A) ∧ is (.vtag g d f) [.vtag d.toNat f] ∧ is (.vfmt g x a) (toX st x (BitVec.ofNat 64 t.toNat)))

/-- Two-source lane operations (R204 to R206): with both sources of one integer tag, each lane on w bits under the mask Kk, landing after two
steps with the sources' tag. A lane operation on a source without an integer tag raises format with TRAPARG 0x210 + v, va before vb, and
so does a second source whose tag differs (R204, R212); the bundle's next state holds the trap and nothing else. -/
def Obligations.VectorLanesAndTheirTags : Prop :=
  (∀ (s : State) (st : Strand) (g : BitVec 4) (d a b : BitVec 5) (k : BitVec 3), Acts s st g →
     let t := (st.vr a).tag
     let A : Nat → Lane := (st.vr a).lane
     let B : Nat → Lane := (st.vr b).lane
     let n : Nat → Nat := fun l => unsigned t (B l) % width t
     integerTag t → (st.vr b).tag = t →
     let is : Instr → (Nat → Int) → Prop := fun i f => becomes i s (lands st 2 (toV d t (st.kr k) fun l => written t (f l)))
     is (.vadd g d a b k) (fun l => element t (A l) + element t (B l)) ∧
     is (.vsub g d a b k) (fun l => element t (A l) - element t (B l)) ∧
     is (.vmul g d a b k) (fun l => element t (A l) * element t (B l)) ∧
     is (.vand g d a b k) (fun l => (unsigned t (A l) &&& unsigned t (B l) : Nat)) ∧
     is (.vor g d a b k) (fun l => (unsigned t (A l) ||| unsigned t (B l) : Nat)) ∧
     is (.vxor g d a b k) (fun l => (unsigned t (A l) ^^^ unsigned t (B l) : Nat)) ∧
     is (.vshl g d a b k) (fun l => element t (A l) * 2 ^ n l) ∧
     is (.vshr g d a b k) (fun l => (unsigned t (A l) / 2 ^ n l : Nat)) ∧
     is (.vsra g d a b k) (fun l => signed t (A l) / 2 ^ n l) ∧
     is (.vmin g d a b k) (fun l => min (signed t (A l)) (signed t (B l))) ∧
     is (.vmax g d a b k) (fun l => max (signed t (A l)) (signed t (B l))) ∧
     is (.vminn g d a b k) (fun l => (min (unsigned t (A l)) (unsigned t (B l)) : Nat)) ∧
     is (.vmaxn g d a b k) (fun l => (max (unsigned t (A l)) (unsigned t (B l)) : Nat)) ∧
     becomes (.vsel g d a b k) s (lands st 2 (toV d t (BitVec.allOnes 64) fun l =>
       written t (element t (if (st.kr k).getLsbD l then A l else B l))))) ∧
  (∀ (s : State) (st : Strand) (g : BitVec 4) (d a b : BitVec 5) (kd k : BitVec 3) (x y : BitVec 6), ActsInBundle s st g →
     let bad : BitVec 5 → Trap := fun v => { cause := 0x02, arg := 0x210 + v.toNat }
     let two := [.vadd g d a b k, .vsub g d a b k, .vmul g d a b k, .vand g d a b k, .vor g d a b k, .vxor g d a b k, .vshl g d a b k,
       .vshr g d a b k, .vsra g d a b k, .vmin g d a b k, .vmax g d a b k, .vminn g d a b k, .vmaxn g d a b k, .vsel g d a b k,
       .vcmpeq g kd a b k, .vcmplt g kd a b k, .vcmple g kd a b k, Instr.vcmpltn g kd a b k]
     (¬ integerTag (st.vr a).tag → (∀ i ∈ two, traps i s (bad a)) ∧ traps (.vext g x a y) s (bad a) ∧ traps (.vpack g d a k) s (bad a) ∧
       traps (.vins g a x y) s (bad a)) ∧
     (integerTag (st.vr a).tag → (st.vr b).tag ≠ (st.vr a).tag → ∀ i ∈ two, traps i s (bad b)))

/-! ### Landing -/

/-- One step of a seat's clock (R165, R289): the result due at the new step takes effect and the one due later stays in flight. A register
result writes its register only; a masked vector result leaves the other lanes as they stand at the landing (R205); a field of the finisher
configuration keeps the bits outside it (R228); MZERO, MINIT and MSHIFT write the working bank as it stands then (R216); a drain write
writes its bytes (R219). Stated for a seat with no drain or mass add under way and no exchange of banks to come. -/
def Obligations.ResultsLandAtTheirStep : Prop :=
  ∀ (s : State) (q : SeatId) (st : Strand) (o o' n : Nat) (r r' : Res), s.strandAt q = some st → st.drains = [] → st.adds = [] →
    st.swap = none → st.pend = [⟨st.clk + 1, o, r⟩, ⟨st.clk + 2 + n, o', r'⟩] →
    let u := clockStep q s
    let w : Strand := { st with clk := st.clk + 1, pend := [⟨st.clk + 2 + n, o', r'⟩] }
    let keeps : Regs → Prop := fun g => ∃ h : Regs, u = s.putStrand q { w with regs := g, shadow := h }
    (∀ k x, k < 64 → r = .x k x → keeps { st.regs with x := st.regs.x.setIfInBounds k x }) ∧
    (∀ k b, k < 16 → r = .p k b → ∃ p : BitVec 16, keeps { st.regs with p := p } ∧
      ∀ l < 16, p.getLsbD l = if l = k then b else st.regs.p.getLsbD l) ∧
    (∀ k x, k < 8 → r = .k k x → keeps { st.regs with k := st.regs.k.setIfInBounds k x }) ∧
    (∀ k t m (ls : Vector Lane 64), k < 32 → r = .v k t m ls → ∃ v : VReg, keeps { st.regs with v := st.regs.v.setIfInBounds k v } ∧
      v.tag = t ∧ ∀ l : Nat, l < 64 → v.lane l = if m.getLsbD l then ls[l]?.getD 0 else (st.vr (BitVec.ofNat 5 k)).lane l) ∧
    (∀ k m x, k < 5 → r = .fcfg k m x → ∃ c : Word, keeps { st.regs with fcfg := st.regs.fcfg.setIfInBounds k c } ∧
      ∀ l < 64, c.getLsbD l = if m.getLsbD l then x.getLsbD l else (st.regs.fcfg[k]?.getD 0).getLsbD l) ∧
    (∀ a t, a < 4 → r = .mzero a t → ∃ h : Regs, u = s.putStrand q { w with
      shadow := h, aw := st.aw.setIfInBounds a ⟨t, Vector.replicate 4096 0⟩ }) ∧
    (∀ a b, a < 4 → r = .minit a b → ∃ h : Regs, u = s.putStrand q { w with shadow := h, aw := st.aw.setIfInBounds a b }) ∧
    (∀ (a : BitVec 2) k, r = .mshift a.toNat k → ∃ (h : Regs) (b : Bank),
      u = s.putStrand q { w with shadow := h, aw := st.aw.setIfInBounds a.toNat b } ∧ b.tag = (st.work a).tag ∧
      ∀ i j : Nat, i < 64 → j < 64 → b.elems[64 * i + j]?.getD 0 =
        if 0 ≤ (i : Int) - k ∧ (i : Int) - k < 64 then (st.work a).elems[64 * ((i : Int) - k).toNat + j]?.getD 0 else 0) ∧
    (∀ a bs, r = .mem a bs → ∃ h : Regs, u = (s.putStrand q { w with shadow := h }).writePhys a bs)

/-! ### Pattern and tile set-up, transforms, the matrix beat -/

namespace Sys2Proof.Spec

/-- A pattern descriptor by its fields (R93). -/
def descriptor (vreg : BitVec 5) (hi k : BitVec 8) (cext rext : BitVec 7) (kind : BitVec 4) : Word :=
  0#25 ++ vreg ++ hi ++ k ++ cext ++ rext ++ kind

/-- The SQ tags (R63). -/
def blockTag (t : BitVec 4) : Prop := t = 8 ∨ t = 9 ∨ t = 10

/-- The tags of a T register that has element rows (R221): I8, I16, FP16, BF16. -/
def rowed (t : BitVec 4) : Prop := t = 1 ∨ t = 2 ∨ t = 5 ∨ t = 6

/-- The bits of an element of a rowed tag (R63). -/
def bitsOf (t : BitVec 4) : Nat := if t = 1 then 8 else 16

/-- A row element in a lane (R221): integers sign-extended, binary formats in bits [15:0]. -/
def inLane (t : BitVec 4) (x : Nat) : Lane :=
  if t = 1 then (BitVec.ofNat 8 x).signExtend 32 else if t = 2 then (BitVec.ofNat 16 x).signExtend 32 else (BitVec.ofNat 16 x).setWidth 32

/-- Rows of a T register that a slot writes one row of (R221, R227): row i holds the given elements, the others are kept with the tag and
are +0 when it changes. -/
def RowWritten (old new : TReg) (t : BitVec 4) (i : Nat) (f : Nat → Nat) : Prop :=
  new.tag = t ∧ ∀ r c : Nat, r < 64 → c < 64 →
    tileBits new r c = if r = i then f c else if old.tag = t then tileBits old r c else 0

/-- The tags that a beat multiplies (R87). -/
def multiplies (t : BitVec 4) : Prop := t = 1 ∨ t = 5 ∨ t = 6 ∨ blockTag t

/-- The rows of a beat (R86). -/
def beatRowsOf (t : BitVec 4) : Nat := if t = 8 then 4 else if t = 9 then 2 else 1

/-- A true-guarded slot that makes its bundle a mark (R197, R212): the seat's gated stores perform, and u with its strand v is what they
leave. -/
structure Marks (s u : State) (v : Strand) : Prop where
  flush : s.flushGate = .ok u
  seat : u.strand = some v

end Sys2Proof.Spec

/-- Descriptor builders (R220): each writes its fields of R93 to Gd one step later and zero elsewhere. Tile operations (R221). -/
def Obligations.DescriptorsAndTiles : Prop :=
  (∀ (s : State) (st : Strand) (g : BitVec 4) (d : BitVec 3) (a : BitVec 6) (v : BitVec 5) (e : BitVec 7), Acts s st g →
     let A := st.xr a
     let is : Instr → Word → Prop := fun i w => becomes i s (lands st 1 [.g d.toNat w])
     is (.gset g d a) A ∧ is (.gidx g d v 0 e) (descriptor v 0 0 64 e 8) ∧ is (.gidx g d v 1 e) (descriptor v 0 0 e 64 7) ∧
     is (.gdiag g d v e) (descriptor v 0 0 e e 9) ∧
     is (.gband g d a 0 v) (descriptor 0 (bitsAt A 8 8) (bitsAt A 0 8) (bitsAt A 23 7) (bitsAt A 16 7) 5) ∧
     is (.gband g d a 1 v) (descriptor v (bitsAt A 8 8) (bitsAt A 0 8) (bitsAt A 23 7) (bitsAt A 16 7) 6)) ∧
  (∀ (s : State) (st : Strand) (g : BitVec 4) (d a : BitVec 3) (v : BitVec 5) (x i : BitVec 6) (f : BitVec 4), Acts s st g →
     let t := (st.vr v).tag
     (rowed f → (∃ r, becomes (.tzero g d f) s (lands st 2 [.t d.toNat r]) ∧ r.tag = f ∧ ∀ m n : Nat, m < 64 → n < 64 → tileBits r m n = 0) ∧
       ∃ r, becomes (.tfill g d x f) s (lands st 2 [.t d.toNat r]) ∧ r.tag = f ∧
         ∀ m n : Nat, m < 64 → n < 64 → tileBits r m n = (st.xr x).toNat % 2 ^ bitsOf f) ∧
     (blockTag f → ∃ r, becomes (.tzero g d f) s (lands st 2 [.t d.toNat r]) ∧ r.tag = f ∧
       ∀ b < 256, tileBlock r b = 0xFF * 2 ^ (8 * (sqBytes f.toNat - 2))) ∧
     becomes (.tmove g d a) s (lands st 2 [.t d.toNat (st.tr a)]) ∧
     (rowed t → ∃ r, becomes (.tsetv g d v i) s (lands st 2 [.t d.toNat r]) ∧
       RowWritten (st.tr d) r t i.toNat fun c => ((st.vr v).lane c).toNat % 2 ^ bitsOf t) ∧
     (rowed (st.tr a).tag → becomes (.tgetv g a v i) s (lands st 2
       (toV v (st.tr a).tag (BitVec.allOnes 64) fun c => inLane (st.tr a).tag (tileBits (st.tr a) i.toNat c)))) ∧
     ((st.tr d).tag = 2 ∨ (st.tr d).tag = 5 ∨ (st.tr d).tag = 6 → becomes (.ttag g d f) s (lands st 1 [.ttag d.toNat f])) ∧
     becomes (.tfmt g a x) s (lands st 1 (toX st x (BitVec.ofNat 64 (st.tr a).tag.toNat))))

/-- Rows packed and unpacked, and lanes permuted (R226, R227). -/
def Obligations.PackedRowsAndPermutedLanes : Prop :=
  ∀ (s : State) (st : Strand) (g : BitVec 4) (d a b : BitVec 5) (t : BitVec 3) (f : BitVec 4) (i : BitVec 6) (k : BitVec 3), Acts s st g →
    let A := st.tr t
    let V := st.vr a
    let w := bitsOf A.tag / 8
    let nonzero : Nat → Bool := fun c => if A.tag = 1 ∨ A.tag = 2 then decide (tileBits A i.toNat c ≠ 0)
      else decide (tileBits A i.toNat c % 2 ^ 15 ≠ 0)
    let cols := (List.range 64).filter nonzero
    let byte : (Nat → Lane) → Nat → Nat := fun ls n => (ls (n / 4)).toNat / 256 ^ (n % 4) % 256
    let map : Word := (V.lane 1) ++ (V.lane 0)
    let z := bitsOf f / 8
    let index : Nat → Int := fun l => if (st.vr b).tag = 3 then ((st.vr b).lane l).toInt else ((st.vr b).lane l).toNat
    (rowed A.tag → ∃ ls : Nat → Lane, becomes (.xpack g d t i) s (lands st 6 (toV d 0 (BitVec.allOnes 64) ls)) ∧
      (∀ c < 64, ((ls 1) ++ (ls 0)).getLsbD c = nonzero c) ∧ (ls 63).toNat = 8 + w * cols.length ∧
      (∀ n c, cols[n]? = some c → ∀ e < w, byte ls (8 + w * n + e) = tileBits A i.toNat c / 256 ^ e % 256) ∧
      (∀ n, 8 + w * cols.length ≤ n → n < 252 → byte ls n = 0)) ∧
    (V.tag = 0 → rowed f → ∃ r, becomes (.xpand g t a f i) s (lands st 6 [.t t.toNat r]) ∧
      RowWritten A r f i.toNat fun c => if map.getLsbD c then
          ((List.range z).map fun e => byte V.lane (8 + z * ((List.range c).filter fun m => map.getLsbD m).length + e) * 256 ^ e).sum
        else 0) ∧
    ((st.vr b).tag = 3 ∨ (st.vr b).tag = 4 →
      becomes (.xperm g d a b k) s (lands st 2 (toV d V.tag (st.kr k) (fun l => if 0 ≤ index l ∧ index l ≤ 63 then V.lane (index l).toNat else 0) ++
        if (List.range 64).any (fun l => (st.kr k).getLsbD l && !decide (0 ≤ index l ∧ index l ≤ 63)) then [.flags flOOR] else []))) ∧
    (s.inBundle = true → (st.vr b).tag ≠ 3 → (st.vr b).tag ≠ 4 → traps (.xperm g d a b k) s { cause := 0x02, arg := 0x210 + b.toNat })

/-- Transposition (R223, R73): XPOSE and a transposing XCONV that keeps the tag give element (i, j) the value of element (j, i). Conversions
(R224, R225): each element is rounded once by R64 and R72 from its exact value with its own noise word, in row-major or lane order, and the
flags land with it; under RNEF (R75) the error of an element is fed to the next of its group of sixteen. To an SQ format each block of sixteen
elements is converted by R71, with R71's worked block and R75's worked group. A source of another tag raises format, of XCONV with TRAPARG
0x220 + a, of VCONV with 0x210 + va (R224, R225). Words are drawn
under SR only (R76), as many as elements converted, and in LOG and REPLAY mode the bundle is a mark (R81). That a slot which draws no word makes no
mark, and that masked lanes set no flag, are the model's choices (notes/assumptions/66.md, notes/assumptions/22.md). -/
def Obligations.TransposedAndConvertedElements : Prop :=
  (∀ (s : State) (st : Strand) (g : BitVec 4) (d a : BitVec 3) (r : BitVec 3), Acts s st g → rowed (st.tr a).tag ∨ blockTag (st.tr a).tag →
     let A := st.tr a
     ∃ t, becomes (.xpose g d a) s (lands st 4 [.t d.toNat t]) ∧ becomes (.xconv g d a A.tag r 1) s (lands st 3 [.t d.toNat t]) ∧
       becomes (.xconv g d a A.tag r 0) s (lands st 3 [.t d.toNat A]) ∧
       t.tag = A.tag ∧ ∀ i j : Nat, i < 64 → j < 64 → tileVal t i j = tileVal A j i) ∧
  (∀ (s : State) (st : Strand) (g : BitVec 4) (d a : BitVec 3) (y z : BitVec 5) (f : BitVec 4) (r : BitVec 3) (x : BitVec 1) (k : BitVec 3),
     Acts s st g → r ≠ 5 → r ≠ 7 →
     let A := st.tr a
     let V := st.vr z
     let K := st.kr k
     let drawn : Nat → List (BitVec 16) → State → Prop := fun n ws u => if r = 6 ∧ n ≠ 0 then
       ∃ m, s.drawNoise n = .ok (ws, m) ∧ m.noiseMark = .ok u else ws = [] ∧ u = s
     let ints : BitVec 4 → Bool := fun t => decide (1 ≤ t.toNat ∧ t.toNat ≤ 4)
     let lanes := (List.range 64).filter fun l => K.getLsbD l
     (rowed A.tag ∨ blockTag A.tag → rowed f → f ≠ A.tag → ∀ ws u v, drawn 4096 ws u → u.strand = some v → v.tr a = A →
       let one : Nat → Nat → Nat × Flags := fun i j => convertOne f.toNat r.toNat ((ws[64 * i + j]?.getD 0).toNat) (ints A.tag)
         (if x = 1 then tileVal A j i else tileVal A i j)
       ∃ t fl, gives (.xconv g d a f r x) s (u.setStrand (lands v 3 (.t d.toNat t :: if fl = 0 then [] else [.flags fl]))) ∧ t.tag = f ∧
         (∀ i j : Nat, i < 64 → j < 64 → tileBits t i j = (one i j).1 % 2 ^ bitsOf f) ∧
         ∀ n < 6, fl.getLsbD n = (rowMajor 64).any fun p => (one p.1 p.2).2.getLsbD n) ∧
     (1 ≤ V.tag.toNat → V.tag.toNat ≤ 7 → 1 ≤ f.toNat → f.toNat ≤ 7 → ∀ ws u v, drawn lanes.length ws u → u.strand = some v →
       v.vr z = V → v.kr k = K →
       let one : Nat → Nat × Flags := fun l => convertOne f.toNat r.toNat
         ((ws[((List.range l).filter fun m => K.getLsbD m).length]?.getD 0).toNat) (ints V.tag) (valueOf V.tag.toNat (V.lane l).toNat)
       ∃ fl, gives (.vconv g y z f r k) s (u.setStrand (lands v 2 (toV y f K (fun l => if K.getLsbD l then
           (if f.toNat = 3 ∨ f.toNat = 4 ∨ f.toNat = 7 then BitVec.ofNat 32 (one l).1 else inLane f (one l).1) else 0) ++ if fl = 0 then [] else [.flags fl]))) ∧
         ∀ n < 6, fl.getLsbD n = lanes.any fun l => (one l).2.getLsbD n)) ∧
  (∀ (s : State) (st : Strand) (g : BitVec 4) (d a : BitVec 3) (f : BitVec 4) (r : BitVec 3) (x : BitVec 1), Acts s st g → r ≠ 7 →
     let A := st.tr a
     rowed A.tag ∨ blockTag A.tag → blockTag f → f ≠ A.tag →
     ∀ ws u v, (if r = 6 then ∃ m, s.drawNoise 4096 = .ok (ws, m) ∧ m.noiseMark = .ok u else ws = [] ∧ u = s) → u.strand = some v → v.tr a = A →
       let block : Nat → Nat × Flags := fun b => sqBlock f.toNat r.toNat ((List.range 16).map fun k =>
         let i := 4 * (b / 16) + k / 4
         let j := 4 * (b % 16) + k % 4
         (if x = 1 then tileVal A j i else tileVal A i j, (ws[64 * i + j]?.getD 0).toNat))
       ∃ t fl, gives (.xconv g d a f r x) s (u.setStrand (lands v 3 (.t d.toNat t :: if fl = 0 then [] else [.flags fl]))) ∧ t.tag = f ∧
         (∀ b < 256, tileBlock t b = (block b).1) ∧ ∀ n < 6, fl.getLsbD n = (List.range 256).any fun b => (block b).2.getLsbD n) ∧
  (∀ (s : State) (st : Strand) (g : BitVec 4) (d a : BitVec 3) (y z : BitVec 5) (f : BitVec 4) (x : BitVec 1) (k : BitVec 3), Acts s st g →
     let A := st.tr a
     let V := st.vr z
     let K := st.kr k
     let ints : BitVec 4 → Bool := fun t => decide (1 ≤ t.toNat ∧ t.toNat ≤ 4)
     let fed : (Nat → Val) → (Nat → Val) → Nat → Val := fun x e n => if isZeroVal (e n) then x n else (addVal (x n) (e n)).1
     let one : BitVec 4 → (Nat → Val) → (Nat → Val) → Nat → Nat × Flags := fun t x e n => convertOne f.toNat 0 0 (ints t) (fed x e n)
     let after : BitVec 4 → (Nat → Val) → (Nat → Val) → Nat → Val := fun t x e n =>
       let y := valueOf f.toNat (one t x e n).1
       let saturated := decide (f.toNat ≤ 4) && ((one t x e n).2.getLsbD 0 || (one t x e n).2.getLsbD 1)
       if finiteVal (fed x e n) && finiteVal y && !saturated then (addVal (fed x e n) (negVal y)).1 else .num false 0 0
     (rowed A.tag ∨ blockTag A.tag → rowed f → f ≠ A.tag →
       let X : Nat → Val := fun n => if x = 1 then tileVal A (n % 64) (n / 64) else tileVal A (n / 64) (n % 64)
       ∃ (e : Nat → Val) (t : TReg) (fl : Flags),
         becomes (.xconv g d a f 5 x) s (lands st 3 (.t d.toNat t :: if fl = 0 then [] else [.flags fl])) ∧ t.tag = f ∧
         (∀ n < 4096, e n = if n % 16 = 0 then .num false 0 0 else after A.tag X e (n - 1)) ∧
         (∀ i j : Nat, i < 64 → j < 64 → tileBits t i j = (one A.tag X e (64 * i + j)).1 % 2 ^ bitsOf f) ∧
         ∀ b < 6, fl.getLsbD b = (List.range 4096).any fun n => (one A.tag X e n).2.getLsbD b) ∧
     (1 ≤ V.tag.toNat → V.tag.toNat ≤ 7 → 1 ≤ f.toNat → f.toNat ≤ 7 →
       let X : Nat → Val := fun l => valueOf V.tag.toNat (V.lane l).toNat
       ∃ (e : Nat → Val) (fl : Flags),
         becomes (.vconv g y z f 5 k) s (lands st 2 (toV y f K (fun l => if K.getLsbD l then
           (if f.toNat = 3 ∨ f.toNat = 4 ∨ f.toNat = 7 then BitVec.ofNat 32 (one V.tag X e l).1 else inLane f (one V.tag X e l).1) else 0) ++
             if fl = 0 then [] else [.flags fl])) ∧
         (∀ l < 64, e l = if l % 16 = 0 then .num false 0 0 else if K.getLsbD (l - 1) then after V.tag X e (l - 1) else e (l - 1)) ∧
         ∀ b < 6, fl.getLsbD b = (List.range 64).any fun l => K.getLsbD l && (one V.tag X e l).2.getLsbD b)) ∧
  (∀ (s : State) (st : Strand) (g : BitVec 4) (d a : BitVec 3) (y z : BitVec 5) (f : BitVec 4) (r : BitVec 3) (x : BitVec 1) (k : BitVec 3),
     ActsInBundle s st g →
     (¬ (rowed (st.tr a).tag ∨ blockTag (st.tr a).tag) → traps (.xconv g d a f r x) s { cause := 0x02, arg := 0x220 + a.toNat }) ∧
     (¬ (1 ≤ (st.vr z).tag.toNat ∧ (st.vr z).tag.toNat ≤ 7) → traps (.vconv g y z f r k) s { cause := 0x02, arg := 0x210 + z.toNat })) ∧
  (let at_ : List (Nat × Nat) → List (Val × Nat) := fun xs => (List.range 16).map fun k => (val32 ((xs.find? fun p => p.1 == k).map (·.2) |>.getD 0), 0)
   sqBlock 8 0 (at_ [(0, 0x40400000), (1, 0x3F000000), (4, 0x3E800000), (5, 0x3F800000), (10, 0xBF400000), (11, 0x3E000000), (14, 0x3E400000)]) =
     (0x80FE00018000800B, 0b001100)) ∧
  (convertList 5 5 false (List.replicate 4 (val32 0x3F801000, 0))).map (·.1) = [0x3C00, 0x3C01, 0x3C00, 0x3C01]

/-- The stationary latch and the working banks (R88, R90, R214, R216, R217): MLOAD and MLOADG land in the latch after three steps; MZERO and
MINIT after one, MSHIFT after two, MSWAP waits until nothing on the working bank is in flight and no drain beat of it is left and then
exchanges the banks. All but the loads make their bundle a mark (R212). -/
def Obligations.LatchAndBankSetup : Prop :=
  ∀ (s : State) (st : Strand) (g : BitVec 4) (a : BitVec 2) (n : BitVec 3) (f : BitVec 4) (k : BitVec 7), Acts s st g →
    let G := st.gr n
    (∃ t, becomes (.mload g n 1) s (lands st 3 [.slatch (.tile t n.toNat)]) ∧ t = tileTranspose (st.tr n)) ∧
    becomes (.mload g n 0) s (lands st 3 [.slatch (.tile (st.tr n) n.toNat)]) ∧
    (∀ x : BitVec 1, patternOk G = true → boundTagOk G (st.bound G).tag none = true → ∃ v,
      becomes (.mloadg g n x) s (lands st 3 [.slatch (.gen G v n.toNat (x == 1))]) ∧ (patBound G = true → v = st.bound G)) ∧
    (∀ u v, Marks s u v → let m := { v with marked := true }
      gives (.mzero g a f) s (u.setStrand (lands m 1 [.mzero a.toNat f])) ∧
      (rowed (v.tr n).tag ∨ blockTag (v.tr n).tag → ∃ b, gives (.minit g a n) s (u.setStrand (lands m 1 [.minit a.toNat b])) ∧
        ((v.tr n).tag = 1 ∨ (v.tr n).tag = 2 → b.tag = 3 ∧ ∀ i j : Nat, i < 64 → j < 64 →
          b.elems[64 * i + j]?.getD 0 = inLane (v.tr n).tag (tileBits (v.tr n) i j)) ∧
        (¬ ((v.tr n).tag = 1 ∨ (v.tr n).tag = 2) → b.tag = 7 ∧ ∀ i j : Nat, i < 64 → j < 64 →
          (b.elems[64 * i + j]?.getD 0).toNat = (rne32 (tileVal (v.tr n) i j)).1)) ∧
      ((v.work a).tag = 7 ∨ (v.work a).tag = 3 → gives (.mshift g a k) s (u.setStrand (lands m 2 [.mshift a.toNat k.toInt]))) ∧
      gives (.mswap g a) s (u.setStrand { m with swap := some a.toNat })) ∧
    (st.swap = some a.toNat → (∀ p ∈ st.pend, onBank a.toNat p.res = false) → (∀ d ∈ st.drains, d.acc ≠ a.toNat) →
      st.trySwap.work a = st.av[a.toNat]?.getD zeroBank ∧ st.trySwap.av[a.toNat]? = some (st.work a) ∧ st.trySwap.swap = none) ∧
    (st.swap = some a.toNat → (∃ p ∈ st.pend, onBank a.toNat p.res = true) ∨ (∃ d ∈ st.drains, d.acc = a.toNat) → st.trySwap = st)

/-- Pushes (R86, R87, R95, R215): with operands that a beat admits, the beat lands after six steps and its bundle is a mark, the beat that
pushBeat gives, whose products BeatsAddTheirProducts states; the latch may
hold a tile or, for a moving tile or gather latch, a generated operand whose value lanes fit the moving tag. Where a push traps (R212,
R215): no stationary operand, no gather latch, a pattern against a generated operand, tags that a beat does not multiply or pair, a
working bank of the wrong tag; the bundle then does nothing but what its trap does. Which of two failed checks is reported is the model's order
(notes/assumptions/18.md). -/
def Obligations.PushesIssueBeatsOrTrap : Prop :=
  (∀ (s : State) (st : Strand) (g : BitVec 4) (a : BitVec 2) (n : BitVec 3) (r : BitVec 6) (h t : BitVec 1) (u : State) (v : Strand),
     Acts s st g → Marks s u v →
     let m := { v with marked := true }
     let beats : Instr → Moving → Prop := fun i x => ∃ b, pushBeat a.toNat x r.toNat (h == 1) (t == 1) m = .ok (lands m 6 [b]) ∧
       gives i s (u.setStrand (lands m 6 [b])) ∧ onBank a.toNat b = true
     let bankFor : BitVec 4 → Prop := fun tA => (v.work a).tag = if tA = 1 then 3 else 7
     let rowsFit : BitVec 4 → Prop := fun tA => r.toNat % beatRowsOf tA = 0 ∧ (h = 1 ↔ tA = 5 ∨ tA = 6) ∧
       (0 < v.regs.rep.getD 0 → beatRowsOf tA = v.regs.repRows)
     let pairs : BitVec 4 → BitVec 4 → Prop := fun x y => multiplies x ∧ multiplies y ∧ (x = y ∨ blockTag x ∧ blockTag y)
     let with_ : BitVec 4 → Prop := fun tA => (∃ T k, v.slatch = .tile T k ∧ pairs tA T.tag) ∨
       (∃ G V k tr, v.slatch = .gen G V k tr ∧ multiplies tA ∧ boundTagOk G V.tag (some tA.toNat) = true)
     (with_ (v.tr n).tag → bankFor (v.tr n).tag → rowsFit (v.tr n).tag → beats (.mpush g a n r h t) (.tile n.toNat)) ∧
     (∀ l, v.glatch = some l → with_ l.tag → bankFor l.tag → rowsFit l.tag → beats (.mpushl g a r h t) .gather) ∧
     (∀ T k, v.slatch = .tile T k → multiplies T.tag → bankFor T.tag → rowsFit T.tag → patternOk (v.gr n) = true →
       boundTagOk (v.gr n) (v.bound (v.gr n)).tag (some T.tag.toNat) = true → beats (.mpushg g a n r h t) (.pattern n.toNat))) ∧
  (∀ (s : State) (st : Strand) (g : BitVec 4) (a : BitVec 2) (n : BitVec 3) (r : BitVec 6) (h t : BitVec 1) (u : State) (v : Strand),
     ActsInBundle s st g → Marks s u v → v.regs.rep = none →
     let format : Nat → Instr → Prop := fun k i => traps i s { cause := 0x02, arg := k }
     let all := [.mpush g a n r h t, .mpushl g a r h t, Instr.mpushg g a n r h t]
     (v.slatch = .empty → ∀ i ∈ all, format 0x228 i) ∧
     (v.slatch ≠ .empty → v.glatch = none → format 0x229 (.mpushl g a r h t)) ∧
     (∀ G V k tr, v.slatch = .gen G V k tr → format (0x100 + n.toNat) (.mpushg g a n r h t)) ∧
     (∀ T k, v.slatch = .tile T k →
       (¬ multiplies (v.tr n).tag → format (0x220 + n.toNat) (.mpush g a n r h t)) ∧
       (multiplies (v.tr n).tag → ¬ ((v.tr n).tag = T.tag ∨ blockTag (v.tr n).tag ∧ blockTag T.tag) → format (0x220 + k) (.mpush g a n r h t)) ∧
       ((v.tr n).tag = T.tag → multiplies T.tag → (v.work a).tag ≠ (if T.tag = 1 then 3 else 7) → format (0x230 + a.toNat) (.mpush g a n r h t)) ∧
       (patternOk (v.gr n) = false → format (0x100 + n.toNat) (.mpushg g a n r h t)) ∧
       (patternOk (v.gr n) = true → ¬ multiplies T.tag → format (0x220 + k) (.mpushg g a n r h t))))

namespace Sys2Proof.Spec

/-- A value truncated toward zero to units of 2^u, in those units (R91). -/
def unitsOf (u : Int) : Val → Int
  | .num neg m e =>
    let n : Nat := if u ≤ e then m * 2 ^ (e - u).toNat else m / 2 ^ (u - e).toNat
    if neg then -n else n
  | _ => 0

/-- Floor(Log2|t|) of a nonzero finite value, none of another (R91). -/
def exponent : Val → Option Int
  | .num _ m e => if m = 0 then none else some (e + Nat.log2 m)
  | _ => none

/-- The FP32 bits of the window sum of R91. -/
def windowOf (infTimesZero : Bool) (ts : List Val) : Nat :=
  let holds : Val → Bool := fun t => ts.any (· == t)
  if holds .nan || infTimesZero || (holds (.inf false) && holds (.inf true)) then 0x7FC00000
  else if holds (.inf false) then 0x7F800000
  else if holds (.inf true) then 0xFF800000
  else match (ts.filterMap exponent).max? with
    | none => if ts.all (fun t => match t with | .num neg _ _ => neg | _ => false) then 0x80000000 else 0
    | some top =>
      let u := top - 62
      let sum := (ts.map (unitsOf u)).sum
      let y := (rne32 (.num (decide (sum < 0)) sum.natAbs u)).1
      if y = 0x80000000 then 0 else y

/-- The tags of two operands that a beat pairs (R87). -/
def pairs (x y : BitVec 4) : Prop := multiplies x ∧ multiplies y ∧ (x = y ∨ blockTag x ∧ blockTag y)

/-- A push's moving operand with its tag t and its elements, none where an element is a structural zero: a T register, the gather latch (R61), or a
pattern, which takes the latched tile's tag (R94, R215). -/
def MovingIs (st : Strand) (m : Moving) (t : BitVec 4) (A : Nat → Nat → Option Val) : Prop :=
  (∃ n : BitVec 3, m = .tile n.toNat ∧ (st.tr n).tag = t ∧ ∀ i e, A i e = some (tileVal (st.tr n) i e)) ∨
  (∃ l, m = .gather ∧ st.glatch = some l ∧ l.tag = t ∧ rowed t ∧ ∀ i e, A i e = ((l.rows[i]?.getD none).map fun bs =>
    valueOf t.toNat (((bs.drop (bitsOf t / 8 * e)).take (bitsOf t / 8)).foldr (fun b v => b.toNat + 256 * v) 0))) ∨
  (∃ (n : BitVec 3) (T : TReg) (k : Nat), m = .pattern n.toNat ∧ st.slatch = .tile T k ∧ T.tag = t ∧ patternOk (st.gr n) = true ∧
    boundTagOk (st.gr n) (st.bound (st.gr n)).tag (some t.toNat) = true ∧
    ∀ i e, A i e = (generate t.toNat (st.gr n) (st.bound (st.gr n)) i e).1)

/-- The stationary operand for a moving tag t: a tile, or a pattern generated in the moving tag, transposed as it was latched (R88, R214). -/
def LatchIs (st : Strand) (t : BitVec 4) (B : Nat → Nat → Option Val) : Prop :=
  (∃ T k, st.slatch = .tile T k ∧ pairs t T.tag ∧ ∀ e j, B e j = some (tileVal T e j)) ∨
  (∃ G V k x, st.slatch = .gen G V k x ∧ multiplies t ∧ boundTagOk G V.tag (some t.toNat) = true ∧
    ∀ e j, B e j = (if x then generate t.toNat G V j e else generate t.toNat G V e j).1)

/-- The lane of the bound register that element (i, j) of a BANDV or DIAG pattern takes, none where it is a structural zero (R94). -/
def laneAt (G : Word) (i j : Nat) : Option Nat :=
  let d : Int := (j : Int) - i
  let lo : Int := (bitsAt G 18 8).toInt
  if (bitsAt G 4 7).toNat ≤ i ∨ (bitsAt G 11 7).toNat ≤ j then none
  else if bitsAt G 0 4 = 6 then (if lo ≤ d ∧ d ≤ (bitsAt G 26 8).toInt then some (d - lo).toNat else none)
  else if i = j then some i else none

end Sys2Proof.Spec

/-- What a beat adds (R86, R91, R92, R96). Every beat, of a T register, the gather latch or a pattern against a latched tile or generated operand, FP16,
BF16, SQ or I8: each element of the rows it covers becomes the window sum of the element and the products of its columns, an I8 beat's the exact sum
saturated once; an element that meets a structural zero takes no part; other rows and banks are unchanged, and for two I8 tiles the flags are
OF where an element saturates. Generated elements (R94, R95): ones by kind and extents; a BANDV or DIAG lane rounded RNE to the partner's
format, saturated to I8, or in its 4×4 block converted by R71 for an SQ partner. -/
def Obligations.BeatsAddTheirProducts : Prop :=
  (∀ (st w : Strand) (a : BitVec 2) (m : Moving) (t : BitVec 4) (A B : Nat → Nat → Option Val) (r : BitVec 6) (upper : Bool) (due order : Nat),
    MovingIs st m t A → LatchIs st t B → multiplies t → st.regs.rep = none → r.toNat % beatRowsOf t = 0 →
    (st.work a).tag = (if t = 1 then 3 else 7) → (w.work a).tag = (if t = 1 then 3 else 7) →
    let half := decide (t = 5 ∨ t = 6)
    let columns : List Nat := if half then (List.range 32).map (fun e => if upper then e + 32 else e) else List.range 64
    let products : Nat → Nat → List (Val × Flags) := fun i j => columns.filterMap fun e => match A i e, B e j with
      | some x, some y => some (mulVal x y)
      | _, _ => none
    ∃ b, pushBeat a.toNat m r.toNat half upper st = .ok (lands st 6 [b]) ∧
      let z := w.applyRes ⟨due, order, b⟩
      (∀ i j : Nat, r.toNat ≤ i → i < r.toNat + beatRowsOf t → j < 64 →
        let old := (w.work a).elems[64 * i + j]?.getD 0
        let ps := products i j
        if t = 1 then ((z.work a).elems[64 * i + j]?.getD 0).toInt =
            max (-2 ^ 31) (min (2 ^ 31 - 1) (old.toInt + (ps.map fun p => unitsOf 0 p.1).sum))
          else (z.work a).elems[64 * i + j]? = some (BitVec.ofNat 32
            (windowOf (ps.any fun p => p.2 != 0) (val32 old.toNat :: ps.map (·.1))))) ∧
      (∀ i j : Nat, i < 64 → ¬ (r.toNat ≤ i ∧ i < r.toNat + beatRowsOf t) → j < 64 →
        (z.work a).elems[64 * i + j]? = (w.work a).elems[64 * i + j]?) ∧
      (∀ c : BitVec 2, c ≠ a → z.work c = w.work c) ∧ (z.work a).tag = (w.work a).tag ∧ z.av = w.av ∧ z.t = w.t) ∧
  (∀ (t G : Word) (V : VReg) (i j : Nat), t = 1 ∨ t = 5 ∨ t = 6 ∨ t = 8 ∨ t = 9 ∨ t = 10 → i < 64 → j < 64 →
    let d : Int := (j : Int) - i
    let k : Int := (bitsAt G 18 8).toInt
    let inside := i < (bitsAt G 4 7).toNat ∧ j < (bitsAt G 11 7).toNat
    let gives : Option Val → Prop := fun v => (generate t.toNat G V i j).1 = v
    let one : Nat → Bool → Prop := fun kind b => (bitsAt G 0 4).toNat = kind → inside → gives (if b then some (.num false 1 0) else none)
    let lane : Nat → Val := fun l => val32 (V.lane l).toNat
    (¬ inside → gives none) ∧
    one 0 true ∧ one 1 (decide ((j : Int) + k ≤ i)) ∧ one 2 (decide ((i : Int) ≤ j + k)) ∧ one 3 (i == j) ∧ one 4 (decide (d = k)) ∧
    one 5 (decide (k ≤ d ∧ d ≤ (bitsAt G 26 8).toInt)) ∧ one 10 (i / (bitsAt G 18 7).toNat == j / (bitsAt G 18 7).toNat) ∧
    (V.tag = 3 ∨ V.tag = 4 → one 7 (decide (element V.tag (V.lane j) = i)) ∧ one 8 (decide (element V.tag (V.lane i) = j))) ∧
    ((bitsAt G 0 4).toNat = 6 ∨ (bitsAt G 0 4).toNat = 9 → match laneAt G i j with
      | none => gives none
      | some l =>
        (t = 5 ∨ t = 6 → gives (some (valueOf t.toNat (convertOne t.toNat 0 0 false (lane l)).1))) ∧
        (t = 1 → gives (some (ofInteger (max (-128) (min 127 (V.lane l).toInt))))) ∧
        (t = 8 ∨ t = 9 ∨ t = 10 → gives (some (sqValue t.toNat
          (sqBlock t.toNat 0 ((List.range 16).map fun n => (match laneAt G (i / 4 * 4 + n / 4) (j / 4 * 4 + n % 4) with
            | some l => lane l
            | none => .num false 0 0, 0))).1 (i % 4 * 4 + j % 4)))))) ∧
  ∀ (st w : Strand) (a : BitVec 2) (n : BitVec 3) (r : BitVec 6) (T : TReg) (k due order : Nat), (st.tr n).tag = 1 → T.tag = 1 →
    st.slatch = .tile T k → (st.work a).tag = 3 → (w.work a).tag = 3 → st.regs.rep = none →
    let A : Nat → Int := fun e => (BitVec.ofNat 8 (tileBits (st.tr n) r.toNat e)).toInt
    let B : Nat → Nat → Int := fun e j => (BitVec.ofNat 8 (tileBits T e j)).toInt
    let sum : Nat → Int := fun j => ((w.work a).elems[64 * r.toNat + j]?.getD 0).toInt + ((List.range 64).map fun e => A e * B e j).sum
    ∃ b, pushBeat a.toNat (.tile n.toNat) r.toNat false false st = .ok (lands st 6 [b]) ∧
      let z := w.applyRes ⟨due, order, b⟩
      (∀ j : Nat, j < 64 → ((z.work a).elems[64 * r.toNat + j]?.getD 0).toInt = max (-2 ^ 31) (min (2 ^ 31 - 1) (sum j))) ∧
      (∀ i j : Nat, i < 64 → i ≠ r.toNat → j < 64 → (z.work a).elems[64 * i + j]? = (w.work a).elems[64 * i + j]?) ∧
      (∀ c : BitVec 2, c ≠ a → z.work c = w.work c) ∧ (z.work a).tag = 3 ∧ z.av = w.av ∧ z.t = w.t ∧
      (∀ f : Nat, z.regs.flags.getLsbD f = (w.regs.flags.getLsbD f || (flOF.getLsbD f &&
        (List.range 64).any fun j => decide (sum j < -2 ^ 31 ∨ 2 ^ 31 - 1 < sum j))))

/-! ### Drain and finish -/

namespace Sys2Proof.Spec

/-- Fields (word, lowest bit, bits, value) of the finisher configuration that a slot writes (R228). -/
def configured (fs : List (Nat × Nat × Nat × Nat)) : List Res :=
  fs.map fun (w, lo, len, v) => .fcfg w (BitVec.ofNat 64 ((2 ^ len - 1) * 2 ^ lo)) (BitVec.ofNat 64 (v % 2 ^ len * 2 ^ lo))

end Sys2Proof.Spec

/-- The finisher configuration (R228 to R234, R238): each slot writes the fields it names one step later and no other; a reserved bit in a
mask word or a mass coordinate raises format with TRAPARG 0x201, an absent handle not local (R51) before that, the model's order of checks
(notes/assumptions/18.md). DFV (R237, R66, R100): with FP32 sources each lane is the finisher's lane result, landing after ten steps with tag
FP32 and the flags of all lanes; a source of another tag raises format. -/
def Obligations.FinisherSetupAndLanes : Prop :=
  (∀ (s : State) (st : Strand) (g n f : BitVec 4) (r : BitVec 3) (z m q : BitVec 1) (k : BitVec 8) (t w : BitVec 3) (h c : BitVec 6)
     (v x : BitVec 5) (j : BitVec 2), Acts s st g →
     let X := (st.xr c).toNat
     let is : Instr → List (Nat × Nat × Nat × Nat) → Prop := fun i fs => becomes i s (lands st 1 (configured fs))
     let coord : Nat → Nat := fun d => (st.xr (BitVec.ofNat 6 (c.toNat + d))).toNat % 2 ^ 32
     is (.dfcfg g n f r z k) [(0, 56, 8, k.toNat), (0, 55, 1, 0), (0, 50, 3, 0), (0, 49, 1, z.toNat), (0, 46, 3, r.toNat), (0, 42, 4, f.toNat),
       (0, 38, 4, n.toNat)] ∧
     is (.dfdstNone g) [(0, 36, 2, 0)] ∧ is (.dfdstT g t) [(0, 36, 2, 1), (0, 27, 3, t.toNat)] ∧
     (∀ e, s.entryOf st.launch h.toNat = some e → 1 ≤ e.rank → e.rank ≤ 4 → c.toNat + e.rank ≤ 64 →
       is (.dfdstH g h c) [(0, 36, 2, 2), (0, 30, 6, h.toNat), (1, 0, 32, coord 0), (1, 32, 32, if 1 < e.rank then coord 1 else 0),
         (2, 0, 32, if 2 < e.rank then coord 2 else 0), (2, 32, 32, if 3 < e.rank then coord 3 else 0)]) ∧
     is (.dfscale g m q v x) [(0, 55, 1, 1), (0, 54, 1, m.toNat), (0, 53, 1, q.toNat), (4, 53, 5, v.toNat), (4, 48, 5, x.toNat)] ∧
     is (.dfrow g m q v x) [(0, 51, 1, m.toNat), (0, 50, 1, q.toNat), (4, 38, 5, v.toNat), (4, 33, 5, x.toNat)] ∧
     (s.entryOf st.launch h.toNat ≠ none → X.testBit 5 = false → is (.dfmask g h c v) [(0, 52, 1, 1), (4, 58, 6, h.toNat), (4, 43, 5, v.toNat), (3, 0, 64, X)]) ∧
     (s.entryOf st.launch h.toNat ≠ none → X % 64 = 0 → is (.dfmass g h c j) [(0, 36, 2, 3), (0, 30, 6, h.toNat), (0, 25, 2, j.toNat), (1, 0, 32, X)]) ∧
     (w.toNat < 5 → becomes (.dfstat g c w) s (lands st 1 (toX st c (st.regs.fcfg[w.toNat]?.getD 0)))) ∧
     (s.inBundle = true → s.entryOf st.launch h.toNat ≠ none → X.testBit 5 = true → traps (.dfmask g h c v) s { cause := 0x02, arg := 0x201 }) ∧
     (s.inBundle = true → s.entryOf st.launch h.toNat ≠ none → X % 64 ≠ 0 → traps (.dfmass g h c j) s { cause := 0x02, arg := 0x201 }) ∧
     (s.inBundle = true → s.entryOf st.launch h.toNat = none →
       ∀ i ∈ [.dfdstH g h c, .dfmask g h c v, Instr.dfmass g h c j], traps i s { cause := 0x05, arg := 0xFFFF })) ∧
  (∀ (s : State) (st : Strand) (g : BitVec 4) (d a b f : BitVec 5), ActsInBundle s st g →
     let A : Nat → Nat := fun l => ((st.vr a).lane l).toNat
     let B : Nat → Nat := fun l => ((st.vr b).lane l).toNat
     let k : Int := (bitsAt (st.regs.fcfg[0]) 56 8).toInt
     let is : (Nat → Nat × Flags) → Prop := fun lane => ∃ fl : Flags,
       becomes (.dfv g d a b f) s (lands st 10 (toV d 7 (BitVec.allOnes 64) (fun l => BitVec.ofNat 32 (lane l).1) ++
         if fl = 0 then [] else [.flags fl])) ∧ ∀ n < 6, fl.getLsbD n = (List.range 64).any fun l => (lane l).2.getLsbD n
     ((st.vr a).tag = 7 → f.toNat < 14 → is fun l => finishFn f.toNat k (A l)) ∧
     ((st.vr a).tag = 7 → (st.vr b).tag = 7 →
       (f = 16 → is fun l => add32f (A l) (B l)) ∧ (f = 17 → is fun l => add32f (A l) (neg32 (B l))) ∧
       (f = 18 → is fun l => mul32 (A l) (B l)) ∧ (f = 19 → is fun l => (max32 (A l) (B l), 0)) ∧
       (f = 20 → is fun l => (min32 (A l) (B l), 0))) ∧
     ((st.vr a).tag ≠ 7 → traps (.dfv g d a b f) s { cause := 0x02, arg := 0x210 + a.toNat }) ∧
     ((st.vr a).tag = 7 → (st.vr b).tag ≠ 7 → 16 ≤ f.toNat → traps (.dfv g d a b f) s { cause := 0x02, arg := 0x210 + b.toNat }))

/-- MDRAIN (R218, R235): with a visible bank tagged FP32 or I32 and no stage, mask or destination that it refuses, a drain with the
snapshot of the configuration and its source registers is added to the seat's, its beats to begin at the issue step: first for a drain to
no destination and to a T register without a mask, then for every drain that the checks of R235 admit, which looks its key pages up (R126), is
a mark when it goes to a local tensor or to mass (R212) and draws at issue the noise words that its beats do not draw themselves (R76, R81;
the model's choice, notes/assumptions/10.md), without a noise mark when these are none (notes/assumptions/66.md): a drain to mass draws none at its
issue, and does not start where the words of all its beats could not be had. A bank of another tag raises format; a drain whose beats would draw
live words from a disabled source raises poisoned data (R79). -/
def Obligations.DrainStarts : Prop :=
  ∀ (s : State) (st : Strand) (g : BitVec 4) (a : BitVec 2) (r : BitVec 6) (m : BitVec 7), ActsInBundle s st g →
    let C : Nat → Nat → Nat → Nat := fun w lo len => (st.regs.fcfg[w]?.getD 0).toNat / 2 ^ lo % 2 ^ len
    let B := st.av[a.toNat]?.getD zeroBank
    let V : Nat → VReg := fun n => st.regs.v[n]?.getD zeroV
    (B.tag = 7 ∨ B.tag = 3 → C 0 52 1 = 0 → (C 0 55 1 = 1 → (V (C 4 53 5)).tag = 7 ∧ (C 0 53 1 = 1 → (V (C 4 48 5)).tag = 7)) →
      C 0 46 3 ≠ 6 → (C 0 36 2 = 0 ∨ C 0 36 2 = 1 ∧ C 0 49 1 = 0 ∧ C 0 42 4 ∈ [1, 2, 5, 6, 8, 9, 10]) →
      ∃ d : Drain, becomes (.mdrain g a r m) s { st with drains := st.drains ++ [d] } ∧ d.acc = a.toNat ∧ d.row = r.toNat ∧
        d.count = m.toNat ∧ d.issue = st.clk ∧ d.beat = 0 ∧ d.fcfg = st.regs.fcfg ∧ d.vs = V (C 4 53 5) ∧ d.vb = V (C 4 48 5)) ∧
    (∀ d u x ws y v, s.startDrain st a.toNat r.toNat m.toNat = .ok d →
      (d.live = true → massRefused s (m.toNat * (massCols st st.regs.fcfg).length) = none) → (if 2 ≤ C 0 36 2 then (s.touchKeys st).mark = .ok u else u = s.touchKeys st) →
      (let n := u.drainWords st st.regs.fcfg r.toNat m.toNat d.destRow d.destCol
        if n = 0 then ws = [] ∧ y = u else u.drawNoise n = .ok (ws, x) ∧ x.noiseMark = .ok y) → y.strand = some v →
      gives (.mdrain g a r m) s (y.setStrand { v with drains := v.drains ++ [{ d with words := ws }] })) ∧
    (∀ d, s.startDrain st a.toNat r.toNat m.toNat = .ok d →
      (d.live = true ↔ C 0 36 2 = 3 ∧ C 0 46 3 = 6) ∧ d.logged = 0 ∧ d.own = none ∧
      (C 0 36 2 = 3 → (s.touchKeys st).drainWords st st.regs.fcfg r.toNat m.toNat d.destRow d.destCol = 0) ∧
      (d.live = true → st.noise.mode ≠ 2 → m ≠ 0 → massCols st st.regs.fcfg ≠ [] → s.noiseOff (fieldOf s.cur.tile) = true →
        traps (.mdrain g a r m) s { cause := 0x0E, arg := 0xFFFE }) ∧
      (d.live = true → ∀ tr, massRefused s (m.toNat * (massCols st st.regs.fcfg).length) = some tr → traps (.mdrain g a r m) s tr)) ∧
    (∀ n, st.noise.mode = 0 → st.drawn = [] → s.noiseOff (fieldOf s.cur.tile) = false → massRefused s n = none) ∧
    (B.tag ≠ 7 → B.tag ≠ 3 → traps (.mdrain g a r m) s { cause := 0x02, arg := 0x230 + a.toNat })

/-! ### Local loads and stores -/

namespace Sys2Proof.Spec

/-- The number in w bytes from an address as the seat sees them, its own gated stores merged in; no address reads +0 (R239, R241). -/
def seen (s : State) (st : Strand) (a : Option Nat) (w : Nat) : Nat :=
  match a with
  | none => 0
  | some a => ((List.range w).map fun k => (overlay (s.ownCells s.cur st) s (a + k)).toNat * 256 ^ k).sum

/-- The state in which an access reads elements (row + i, col + j) of a place: the place's page looked up (R126), and the strand's own operations
on their way to what is read performed (R143). -/
def readsIn (s : State) (st : Strand) (pl : Place) (ps : List (Nat × Nat)) : State :=
  let y := s.touch st.asid pl
  if pl.e.kind = 1 then y.settleWords st [(pl.frame, pl.e.tstride)]
  else y.settleWords st ((ps.filterMap fun p => y.elemAddr y.cur.tile st.asid pl p.1 p.2).map fun a => (a, pl.e.elem))

/-- Block b of an SQ tile at a place has an element within the extents (R241). -/
def blockWithin (pl : Place) (b : Nat) : Bool :=
  (List.range 16).any fun k => pl.e.inside (pl.row + 4 * (b / 16) + k / 4) (pl.col + 4 * (b % 16) + k % 4)

/-- An element of a format in its lane (R204, R242). -/
def asLane (t x : Nat) : Lane := if t = 1 ∨ t = 2 ∨ t = 5 ∨ t = 6 then inLane (BitVec.ofNat 4 t) x else BitVec.ofNat 32 x

/-- The row offset and the lane mask that LEND gives an LS slot (R170, R239). -/
def rowOffset (x : Option (BitVec 8)) : Int := match x with | none => 0 | some b => (bitsAt b 3 5).toInt
/-- The lane mask register of a vector access (R239). -/
def laneMask (st : Strand) (x : Option (BitVec 8)) : Word := match x with | none => BitVec.allOnes 64 | some b => st.kr (bitsAt b 0 3)

/-- A number in n little-endian bytes of a frame from an offset. -/
def frameNat (b : Nat → Byte) (o n : Nat) : Nat := (List.range n).foldr (fun k v => (b (o + k)).toNat + 256 * v) 0

/-- The offset of packed row r of row group g in a BMZ frame of elements of w bytes: behind the group's earlier rows, each a 64-bit bitmap and its
present elements (R77). -/
def rowStart (b : Nat → Byte) (w g : Nat) : Nat → Nat
  | 0 => frameNat b (2 * g) 2
  | r + 1 => rowStart b w g r + 8 + w * setCount (BitVec.ofNat 64 (frameNat b (rowStart b w g r) 8))

/-- A BMZ frame whose group offsets are those that its bitmaps give (R77). -/
def frameAgrees (b : Nat → Byte) (w : Nat) : Prop :=
  frameNat b 0 2 = 32 ∧ ∀ g < 15, frameNat b (2 * g + 2) 2 = frameNat b (2 * g) 2 + (rowStart b w g 4 - frameNat b (2 * g) 2 + 15) / 16 * 16

/-- Element (i, j) of a BMZ frame of elements of w bytes with tag t: the present element behind those of its row before column j, else +0; magnitude
zero reads as +0 (R60, R77). -/
def bmzElement (b : Nat → Byte) (t w i j : Nat) : Nat :=
  let o := rowStart b w (i / 4) (i % 4)
  let map : Word := BitVec.ofNat 64 (frameNat b o 8)
  let v := frameNat b (o + 8 + w * ((List.range j).filter fun c => map.getLsbD c).length) w
  if map.getLsbD j = false ∨ v % 2 ^ (if t = 5 ∨ t = 6 ∨ t = 7 then 8 * w - 1 else 8 * w) = 0 then 0 else v

/-- A number as the bytes that a store of w bytes puts at an address. -/
def bytesAt (a w v : Nat) : List (Nat × Byte) := (List.range w).map fun k => (a + k, BitVec.ofNat 8 (v / 256 ^ k))

end Sys2Proof.Spec

/-- Vector, tile and stamped loads (R118, R239 to R242, R245) of an admitted access that meets no poison: enabled lanes and the tag after
four steps, six along the second-last coordinate; a tile after sixteen; decayed values at the issue step's now after eight, with their
flags. What they read follows the strand's own operations on their way there (R143), and their page is looked up (R126); that it is the one newest
memory at the issue step, and the identifier's newest step, is the model's choice (notes/assumptions/6.md). A BMZ entry expands
at the port (R60, R77): a bitmap's present elements, +0 for the others and outside the extents, a frame whose offsets disagree with its bitmaps free
values (notes/assumptions/7.md); the layout of an SQ sequence is open, so its tile is free (notes/assumptions/7.md). -/
def Obligations.VectorTileAndStampedLoads : Prop :=
  ∀ (s : State) (st : Strand) (g : BitVec 4) (h c e : BitVec 6) (d : BitVec 5) (t : BitVec 3) (x : Option (BitVec 8)) (pl : Place),
    Acts s st g →
    let at_ : Nat → Nat → Option Nat := s.elemAddr s.cur.tile st.asid pl
    let K := laneMask st x
    let on := (List.range 64).filter fun l => K.getLsbD l
    let along := readsIn s st pl (on.map fun l => (0, l))
    let across := readsIn s st pl (on.map fun l => (l, 0))
    let admits : Bool → Bool → (Entry → Bool) → Prop := fun r q ok => s.locate st h.toNat c.toNat (rowOffset x) r q false false ok = .ok pl
    let frame : State → Nat → Byte := fun y k => if k < pl.e.tstride then BitVec.ofNat 8 (seen y st (some (pl.frame + k)) 1) else 0
    let expanded : State → Nat → Nat → Nat := fun y i j => bmzElement (frame y) pl.e.fmt pl.e.elem i j
    let decayed : State → Option Nat → Nat × Flags := fun y a =>
      let w := seen y st a 8
      readStamped pl.e.decay (w % 2 ^ 32) (w / 2 ^ 32 % 2 ^ 16) (y.stepOf st.asid)
    let lanes : Instr → Nat → State → (Nat → Nat × Nat) → Prop := fun i l y o => y.poison = [] → ∃ n f,
      gives i s ({ y with fresh := y.fresh + n }.setStrand (lands st l (toV d (BitVec.ofNat 4 pl.e.fmt) K f))) ∧
      (pl.e.kind ≠ 1 → n = 0 ∧ ∀ m < 64, K.getLsbD m = true → f m = asLane pl.e.fmt (seen y st (at_ (o m).1 (o m).2) pl.e.elem)) ∧
      (pl.e.kind = 1 → frameAgrees (frame y) pl.e.elem → n = 0 ∧ ∀ m < 64, K.getLsbD m = true → f m = asLane pl.e.fmt
        (let r := pl.row + (o m).1
         let k := pl.col + (o m).2
         if pl.e.inside r k then expanded y (r % 64) (k % 64) else 0))
    (admits false true admitVectorLoad → lanes (.ldv g h d c x) 4 along fun m => (0, m)) ∧
    (admits true false admitVectorLoad → lanes (.ldvx g h d c x) 6 across fun m => (m, 0)) ∧
    (admits true true admitTileLoad → let y := (if pl.e.kind = 1 ∨ isSq pl.e.fmt = false then readsIn s st pl (rowMajor 64)
        else if pl.e.kind = 3 then s.touch st.asid pl
        else (s.touch st.asid pl).settleWords st (((List.range 256).filter (blockWithin pl)).map fun b =>
          (pl.frame + sqBytes pl.e.fmt * b, sqBytes pl.e.fmt)))
      y.poison = [] → ∃ n r,
      gives (.ldt g h t c x) s ({ y with fresh := y.fresh + n }.setStrand (lands st 16 [.t t.toNat r])) ∧
      r.tag = BitVec.ofNat 4 pl.e.fmt ∧
      (pl.e.kind ≠ 1 → isSq pl.e.fmt = false → n = 0 ∧
        ∀ i j : Nat, i < 64 → j < 64 → tileBits r i j = seen y st (at_ i j) pl.e.elem) ∧
      (pl.e.kind = 1 → isSq pl.e.fmt = false → frameAgrees (frame y) pl.e.elem → n = 0 ∧
        ∀ i j : Nat, i < 64 → j < 64 → tileBits r i j = if pl.e.inside (pl.row + i) (pl.col + j) then expanded y i j else 0) ∧
      (pl.e.kind = 0 → isSq pl.e.fmt = true → n = 0 ∧ ∀ b < 256, (∀ k < 16, pl.e.inside (pl.row + 4 * (b / 16) + k / 4) (pl.col + 4 * (b % 16) + k % 4) = true) →
        tileBlock r b = seen y st (some (pl.frame + sqBytes pl.e.fmt * b)) (sqBytes pl.e.fmt))) ∧
    (admits false false admitStamped → let y := readsIn s st pl [(0, 0)]
      let v := decayed y (at_ 0 0)
      y.poison = [] → gives (.lds g h e c x) s
        (y.setStrand (lands st 8 (toX st e (BitVec.ofNat 64 v.1) ++ if v.2 = 0 then [] else [.flags v.2])))) ∧
    (admits false true admitStamped → along.poison = [] → ∃ (f : Nat → Lane) (fl : Flags),
      gives (.ldsv g h d c x) s (along.setStrand (lands st 8 (toV d 7 K f ++ if fl = 0 then [] else [.flags fl]))) ∧
      (∀ m < 64, K.getLsbD m = true → f m = BitVec.ofNat 32 (decayed along (at_ 0 m)).1) ∧
      ∀ b < 6, fl.getLsbD b = (List.range 64).any fun m => K.getLsbD m && (decayed along (at_ 0 m)).2.getLsbD b)

/-- Scalar loads (R239, R240, R246): with an access that the entry admits, the element's bytes, after the strand's own operations on their way to
them (R143), land in Xd after four steps, zero- or sign-extended, as the one newest memory has them at the issue step, the model's choice
(notes/assumptions/6.md); a load that meets poison lands its trap instead, and an inconsistent BMZ frame takes free values (notes/assumptions/7.md).
Where an element of a dense tensor lies (R54, R55, R241, R246): its tensor tile is numbered in row-major order of 64×64 tiles and stands
at BASE + k·size in the owner's slice; another owner's tile raises not local with the owner's id, coordinates outside the extents raise it
with 0xFFFF. Stated for LD64 of RAW elements in rank 2, with the owner maps 0 and 1. -/
def Obligations.ScalarLoadsAndElementAddresses : Prop :=
  (∀ (s : State) (st : Strand) (g : BitVec 4) (h d c : BitVec 6) (x : Option (BitVec 8)) (pl : Place), Acts s st g →
     let loads : Instr → Nat → (Nat → Word) → Prop := fun i w ext =>
       s.locate st h.toNat c.toNat (rowOffset x) false false false (w == 4) (admitScalarLoad w) = .ok pl →
       (pl.e.kind = 3 → pl.e.extCol ≤ pl.col ∨ isSq pl.e.fmt = false ∧ pl.e.elem = w) →
       let a := s.elemAddr s.cur.tile st.asid pl 0 0
       let y := (s.touch st.asid pl).settleWords st (if pl.e.kind = 1 then [(pl.frame, pl.e.tstride)] else match a with
         | some b => [(b, w)]
         | none => [])
       (y.poison = [] → ∃ n v, gives i s ({ y with fresh := y.fresh + n }.setStrand (lands st 4 (toX st d (ext v)))) ∧
         (pl.e.kind ≠ 1 → n = 0 ∧ v = seen y st a w)) ∧
       (∀ b p, pl.e.kind ≠ 1 → a = some b → poisonMet (y.ownCells y.cur st) y [(b, w)] = some p →
         ∃ t : Trap, gives i s (y.setStrand (lands st 4 [.trap t])) ∧ t.cause = 0x0E ∧ t.arg = 8 * p % 0x800000 / 64 * 64)
     loads (.ld8 g h d c x) 1 (fun v => BitVec.ofNat 64 v) ∧ loads (.ld16 g h d c x) 2 (fun v => BitVec.ofNat 64 v) ∧
     loads (.ld32 g h d c x) 4 (fun v => BitVec.ofNat 64 v) ∧ loads (.ld64 g h d c x) 8 (fun v => BitVec.ofNat 64 v) ∧
     loads (.ld8s g h d c x) 1 (fun v => (BitVec.ofNat 8 v).signExtend 64) ∧
     loads (.ld16s g h d c x) 2 (fun v => (BitVec.ofNat 16 v).signExtend 64) ∧
     loads (.ld32s g h d c x) 4 (fun v => (BitVec.ofNat 32 v).signExtend 64)) ∧
  (∀ (s : State) (st : Strand) (g : BitVec 4) (h d c : BitVec 6) (e : Entry), ActsInBundle s st g → h ≠ 0 →
     s.entryOf st.launch h.toNat = some e → e.kind = 0 → e.fmt = 0 → e.rank = 2 → e.pageable = false → c.toNat < 63 →
     let row := (st.xr c).toNat
     let col := (st.xr (c + 1)).toNat
     let k := row / 64 * ((e.ext 1 + 63) / 64) + col / 64
     let owner := if e.map = 0 then s.cur.tile else e.home % 512
     let a := owner * 0x800000 + e.base + k * 32768 + 8 * (64 * (row % 64) + col % 64)
     (e.map = 0 ∨ e.map = 1) →
     (row < e.ext 0 → col < e.ext 1 → owner = s.cur.tile → let y := s.settleWords st [(a, 8)]
       y.poison = [] → gives (.ld64 g h d c none) s (y.setStrand (lands st 4 (toX st d (BitVec.ofNat 64 (seen y st (some a) 8)))))) ∧
     (row < e.ext 0 → col < e.ext 1 → owner ≠ s.cur.tile → traps (.ld64 g h d c none) s { cause := 0x05, arg := owner }) ∧
     (¬ (row < e.ext 0 ∧ col < e.ext 1) → traps (.ld64 g h d c none) s { cause := 0x05, arg := 0xFFFF }))

/-- Stores (R239, R243, R244): an admitted store puts its bytes into the gate buffer, in one entry, a tile in sixteen, and memory keeps its
contents until the next mark; a store that needs more entries than the buffer of 64 has left raises mark overflow, one that meets a counter
counter store (R14, R30, R101). Which counter words the part knows is the model's (notes/assumptions/68.md). The layout of an SQ
sequence is open, so the bytes of its tile are free (notes/assumptions/7.md); a block of an SQ tile that the extents cut is written whole, the
model's choice (notes/assumptions/32.md). -/
def Obligations.StoresEnterTheGate : Prop :=
  ∀ (s : State) (st : Strand) (g : BitVec 4) (h d c : BitVec 6) (v : BitVec 5) (t : BitVec 3) (x : Option (BitVec 8)) (pl : Place),
    ActsInBundle s st g →
    let at_ : Nat → Nat → Option Nat := s.elemAddr s.cur.tile st.asid pl
    let K := laneMask st x
    let used := (st.gate.map (·.entries)).sum
    let admits : Bool → Bool → Bool → (Entry → Bool) → Prop := fun r q z ok =>
      s.locate st h.toNat c.toNat (rowOffset x) r q true z ok = .ok pl
    let stores : Instr → Nat → (List (Nat × Byte) → Prop) → Prop := fun i n cells =>
      ∃ (k : Nat) (e : Gated), e.handle = pl.h ∧ e.tile = pl.tile ∧ e.entries = n ∧ e.order = st.order ∧ cells e.cells ∧
        (k = 0 ∨ pl.e.kind = 3 ∧ isSq pl.e.fmt = true) ∧
        (let counter : Prop := pl.e.pageable = false ∧ s.meetsCounter s.cur.tile e.cells = true
         (counter → traps i s { cause := 0x0C, arg := 0 }) ∧
         (¬ counter → used + n ≤ 64 →
           gives i s (({ s with fresh := s.fresh + k }.touch st.asid pl).setStrand { st with gate := st.gate ++ [e] })) ∧
         (¬ counter → 64 < used + n → traps i s { cause := 0x0A, arg := 64 }))
    let scalar : Instr → Nat → Prop := fun i w => admits false false (w == 4) (admitScalarStore w) →
      (pl.e.kind = 3 → pl.e.extCol ≤ pl.col ∧ pl.col < pl.e.extCol + 2 ∨ pl.col < pl.e.extCol ∧ isSq pl.e.fmt = false ∧ pl.e.elem = w) →
      stores i 1 fun cs => ∀ a, at_ 0 0 = some a → cs = bytesAt a w (st.xr d).toNat
    let only : List (Nat × Byte) → (Nat → Option Nat) → (Nat → Nat) → Prop := fun cs a val =>
      ∀ y : Nat × Byte, y ∈ cs ↔ ∃ l < 64, K.getLsbD l = true ∧ ∃ b, a l = some b ∧ y ∈ bytesAt b pl.e.elem (val l)
    scalar (.st8 g h d c x) 1 ∧ scalar (.st16 g h d c x) 2 ∧ scalar (.st32 g h d c x) 4 ∧ scalar (.st64 g h d c x) 8 ∧
    (admits false true false (admitVectorStore (st.vr v).tag) →
      stores (.stv g h v c x) 1 fun cs => only cs (fun l => at_ 0 l) fun l => ((st.vr v).lane l).toNat) ∧
    (admits true false false (admitVectorStore (st.vr v).tag) →
      stores (.stvx g h v c x) 1 fun cs => only cs (fun l => at_ l 0) fun l => ((st.vr v).lane l).toNat) ∧
    (admits true true false (admitTileStore (st.tr t).tag) → stores (.stt g h t c x) 16 fun cs =>
      (isSq pl.e.fmt = false → ∀ y : Nat × Byte, y ∈ cs ↔ ∃ i j : Nat, i < 64 ∧ j < 64 ∧ ∃ b, at_ i j = some b ∧
        y ∈ bytesAt b pl.e.elem (tileBits (st.tr t) i j)) ∧
      (isSq pl.e.fmt = true → pl.e.kind = 0 → ∀ y : Nat × Byte, y ∈ cs ↔ ∃ b < 256,
        (∃ k < 16, pl.e.inside (pl.row + 4 * (b / 16) + k / 4) (pl.col + 4 * (b % 16) + k % 4) = true) ∧
        y ∈ bytesAt (pl.frame + sqBytes pl.e.fmt * b) (sqBytes pl.e.fmt) (tileBlock (st.tr t) b)))

/-- A mark performs the gated stores (R59, R244), after the seat's own operations on their way to the same words (R143): with tensors that are
not pageable, every byte of memory then reads as the seat saw it with its own stores merged in, later stores over earlier ones; nothing but
memory, the poison that whole words clear (R343) and the buffer, now empty, changes, and memory keeps its canonical form. With no operation
of the seat or its strand on its way, the gated stores are all that is performed. -/
def Obligations.MarkPerformsGatedStores : Prop :=
  ∀ (s u : State) (st : Strand), s.strand = some st → s.flushGate = .ok u →
    let z := s.settleWords st ((s.ownCells s.cur st).map fun c => (c.1, 1))
    (∀ g ∈ st.gate, ∀ e, z.entryOf st.launch g.handle = some e → e.pageable = false) →
    u = { z with mem := u.mem, poison := u.poison }.setStrand { st with gate := [] } ∧
    (∀ a, memRead u.mem a = overlay (z.ownCells z.cur st) z a) ∧
    (∀ a, (∀ g ∈ st.gate, ∀ y ∈ g.cells, y.1 ≠ a) → memRead u.mem a = memRead z.mem a) ∧
    (∀ w ∈ u.poison, w ∈ z.poison) ∧ (z.memoryCanonical → u.memoryCanonical) ∧
    ((∀ o ∈ s.flight, o.of st = false ∧ o.seat ≠ s.cur) → z = s)

/-- Local accesses that trap before any other check (R239, R243, R246, R173): an absent handle, a register beyond X63, a code entry, a
counter array as a store's target. The order of the checks is the model's (notes/assumptions/18.md). -/
def Obligations.LocalAccessTraps : Prop :=
  ∀ (s : State) (st : Strand) (g : BitVec 4) (h d c : BitVec 6) (v : BitVec 5) (t : BitVec 3) (x : Option (BitVec 8)), ActsInBundle s st g →
    let loads := [.ld8 g h d c x, .ld16 g h d c x, .ld32 g h d c x, .ld64 g h d c x, .ld8s g h d c x, .ld16s g h d c x, .ld32s g h d c x,
      .ldv g h v c x, .ldvx g h v c x, .ldt g h t c x, .lds g h d c x, Instr.ldsv g h v c x]
    let stores := [.st8 g h d c x, .st16 g h d c x, .st32 g h d c x, .st64 g h d c x, .stv g h v c x, .stvx g h v c x, Instr.stt g h t c x]
    (s.entryOf st.launch h.toNat = none → ∀ i ∈ loads ++ stores, traps i s { cause := 0x05, arg := 0xFFFF }) ∧
    (∀ e, s.entryOf st.launch h.toNat = some e → 63 < c.toNat + e.rank - 1 → ∀ i ∈ loads ++ stores, traps i s (illegalTrap 5)) ∧
    (∀ e, s.entryOf st.launch h.toNat = some e → c.toNat + e.rank - 1 ≤ 63 →
      (e.kind = 5 → ∀ i ∈ loads ++ stores, traps i s { cause := 0x0D, arg := 0x300 + h.toNat }) ∧
      (e.kind = 4 → ∀ i ∈ stores, traps i s { cause := 0x0C, arg := 0 }) ∧
      (e.kind = 0 → e.fmt = 0 → e.ronly = true ∨ h = 0 → traps (.st64 g h d c x) s { cause := 0x0D, arg := 0x300 + h.toNat }))

/-! ### Engine commands -/

namespace Sys2Proof.Spec

/-- Bits [lo + len - 1 : lo] of the strand's register Zn (R250 to R261). -/
def zBits (v : Strand) (n lo len : Nat) : Nat := (v.z[n]?.getD 0).toNat / 2 ^ lo % 2 ^ len

/-- Z registers that a command does not name hold zero (R256). -/
def zClear (v : Strand) (ns : List Nat) : Prop := ∀ n ∈ ns, v.z[n]?.getD 0 = 0

/-- What a command captures at its issue (R247, R249): its window, its counter, none for X0, its flags, and when it is armed its arming
counter and target; an armed one is a node of the launch and names no strand (R344). -/
def captured (s : State) (v : Strand) (op : Nat) (q r : BitVec 1) (sc : BitVec 3) (k m : BitVec 6) (w : BitVec 1) (h : Nat) : Cmd :=
  { id := s.nextId, op := op, phase := 1, seat := s.cur, asid := v.asid, launch := v.launch, sid := if w = 1 then 0 else v.recAddr / 64,
    z := v.z, counter := if k = 0 then noCounter else (v.xr k).toNat, acq := q == 1, rel := r == 1, scope := sc.toNat,
    arm := if w = 1 then some ((v.xr m).toNat, (v.regs.xAt (m.toNat + 1)).toNat) else none, handle := h, now := s.stepOf v.asid
    owner := v.recAddr, moved := [], leased := [], awaits := [], frames := [], adds := [], length := none }

/-- The copy window's common conditions (R250). -/
def copyWindow (v : Strand) : Prop :=
  zBits v 0 0 64 % 2 ^ zBits v 4 0 2 = 0 ∧ zBits v 1 0 64 % 2 ^ zBits v 4 0 2 = 0 ∧ zBits v 4 8 8 = 0 ∧ zBits v 4 3 1 = 0 ∧
  (zBits v 4 2 1 = 0 → zBits v 4 32 32 = 0 ∧ zBits v 6 0 64 = 0 ∧ zBits v 7 0 64 = 0)

/-- The fabric window's conditions (R258). -/
def fabricWindowOk (v : Strand) (etags : List Nat) : Prop :=
  zBits v 24 0 64 % 64 = 0 ∧ zBits v 25 0 64 % 64 = 0 ∧ zBits v 26 32 32 % 64 = 0 ∧ zBits v 26 32 32 ≠ 0 ∧ zBits v 26 9 23 = 0 ∧
  zBits v 28 0 64 ∈ etags ∧ zClear v [29, 30, 31]

end Sys2Proof.Spec

/-- Engine commands (R247 to R261): with a window that its layout admits and destinations bound to its counter or unbound, a command is
captured and handed over, its bundle a mark, after the seat's operations on their way to its own slice, with acq after all of them (R151); with no
other command waiting it goes under way when its unit has room, waits in the trigger table when it is armed and that has room, and otherwise freezes
its seat. An OFFLOAD that goes under way on a resident tile makes it leaving and a RECALL on one that is away returning, in the tile's own state word; in
another state the word stays (R261). A COPY, COPYM or CEXP whose source or destination is misaligned raises format 0x400 + z, and a destination
bound to another counter raises bind mismatch with the handle. That an FPUT to the own device is bind-checked, which Z registers a sequence command must
have clear, and which of several failed checks is reported are the model's (notes/assumptions/37.md, 36.md, 18.md). -/
def Obligations.EngineCommandsIssue : Prop :=
  ∀ (s : State) (st : Strand) (g : BitVec 4) (q r w : BitVec 1) (sc : BitVec 3) (k m h : BitVec 6) (u : State) (v : Strand),
    ActsInBundle s st g → Marks s u v →
    let y := u.setStrand { v with marked := true }
    let x := if q = 1 then y.settleAll { v with marked := true } else y.settleSlice { v with marked := true } y.cur.tile
    (∀ d ∈ x.cmds, d.phase ≠ 1 ∧ d.id < u.nextId) →
    let cmd : Nat → Cmd := fun op => captured u v op q r sc k m w 0
    let page : Nat → Cmd := fun op => captured u v op q r sc k 0 0 h.toNat
    let issues : Instr → Cmd → List (Nat × Nat) → Prop := fun i c dests =>
      (y.bindTrap v.launch c.counter dests = none → ∃ (t : State) (p : Nat),
        gives i s t ∧ t.cmds = x.cmds ++ [{ c with phase := p }] ∧ t.nextId = x.nextId + 1 ∧ (c.op ≠ 14 → c.op ≠ 15 → t.mem = x.mem) ∧
        (t.strand = x.strand.map fun m => if p = 1 then { m with held := some c.id } else m) ∧
        (c.arm = none → (p = 1 ↔ x.unitFree c = false) ∧ p ≠ 0 ∧ (p = 3 → c.op = 14 ∨ c.op = 15)) ∧
        (c.arm ≠ none → p = if x.triggersUsed c.field < 8192 then 0 else 1) ∧
        (c.op = 14 ∨ c.op = 15 → ∀ e, x.entryOf v.launch c.handle = some e →
          let before := if c.op = 14 then 0 else 2
          let k := zBits v 0 0 32
          let word := x.cur.tile * 0x800000 + (e.base + 8 * k)
          (p = 2 ↔ p ≠ 1 ∧ (x.pageState e x.cur.tile k).1 = before) ∧
          t.mem = if p = 2 then (x.putNat word 8 (x.natAt word 8 / 4 * 4 + (before + 1))).mem else x.mem)) ∧
      (∀ t, y.bindTrap v.launch c.counter dests = some t → traps i s t ∧ t.cause = 0x09)
    let z := zBits v
    (copyWindow v → z 4 16 16 = 0 → z 4 4 4 = 0 → issues (.copy g q r sc k m w) (cmd 0) (copyRegions (cmd 0))) ∧
    (copyWindow v → z 1 0 64 < 0xC0000000 → z 4 4 4 = 0 → copymMaskOk (cmd 1) = true → issues (.copym g q r sc k m w) (cmd 1) (copyRegions (cmd 1))) ∧
    (copyWindow v → z 3 0 32 ≠ 0 → z 4 16 16 = 0 → z 2 32 32 = 1 → z 4 2 1 = 0 → z 4 0 2 = 0 → 1 ≤ z 4 4 4 → z 4 4 4 ≤ 10 →
      issues (.cexp g q r sc k m w) (cmd 2) (copyRegions (cmd 2))) ∧
    (poolCheck y v (cmd 4) = none → issues (.pool g q r sc k m w) (cmd 4) (poolDests y (cmd 4))) ∧
    (z 18 32 32 = 0 → zClear v [19, 20, 21, 22, 23] → issues (.sfork g q r sc k m w) (cmd 5) []) ∧
    (1 ≤ z 17 32 32 → z 17 32 32 ≤ 65536 → zClear v [18, 19, 20, 22, 23] →
      issues (.sretire g q r sc k m w) (cmd 6) [(z 21 0 64, 64 + 16 * ((z 17 0 32 + z 17 32 32 - 1) / 256 - z 17 0 32 / 256 + 1))]) ∧
    (zClear v [18, 19, 20, 21, 22, 23] → issues (.stld g q r sc k m w) (cmd 7) [] ∧
      (z 17 42 21 = 0 → 1 ≤ z 17 32 10 → z 17 32 10 ≤ 512 → issues (.stinv g q r sc k m w) (cmd 8) [])) ∧
    (¬ (z 17 42 21 = 0 ∧ 1 ≤ z 17 32 10 ∧ z 17 32 10 ≤ 512) → traps (.stinv g q r sc k m w) s { cause := 0x02, arg := 0x411 }) ∧
    (z 17 32 32 = 0 → z 18 32 32 = 0 → z 19 32 32 = 0 → z 20 9 55 = 0 → z 20 0 9 ≤ 256 →
      issues (.ballast g q r sc k m w) (cmd 9) [(z 21 0 64, 64 + 16 * ballastPages y (cmd 9))]) ∧
    (fabricWindowOk v [0] → issues (.fput g q r sc k m w) (cmd 10) (if z 26 0 9 = u.fabric.self then [(z 25 0 64, z 26 32 32)] else []) ∧
      issues (.fget g q r sc k m w) (cmd 11) [(z 24 0 64, z 26 32 32)]) ∧
    (fabricWindowOk v [7, 3] → issues (.fred g q r sc k m w) (cmd 12) []) ∧
    (pageCheck false y v (page 14) = none → issues (.offload g q r sc k h) (page 14) []) ∧
    (∀ e, u.entryOf v.launch h.toNat = some e → pageCheck true y v (page 15) = none →
      issues (.recall g q r sc k h) (page 15) [(z 1 0 64, e.tileSize)]) ∧
    (z 0 0 64 % 2 ^ z 4 0 2 ≠ 0 → traps (.copy g q r sc k m w) s { cause := 0x02, arg := 0x400 } ∧
      traps (.cexp g q r sc k m w) s { cause := 0x02, arg := 0x400 }) ∧
    (z 0 0 64 % 2 ^ z 4 0 2 = 0 → z 1 0 64 % 2 ^ z 4 0 2 ≠ 0 → traps (.copy g q r sc k m w) s { cause := 0x02, arg := 0x401 } ∧
      traps (.cexp g q r sc k m w) s { cause := 0x02, arg := 0x401 }) ∧
    (z 1 0 64 < 0xC0000000 →
      (z 0 0 64 % 2 ^ z 4 0 2 ≠ 0 → traps (.copym g q r sc k m w) s { cause := 0x02, arg := 0x400 }) ∧
      (z 0 0 64 % 2 ^ z 4 0 2 = 0 → z 1 0 64 % 2 ^ z 4 0 2 ≠ 0 → traps (.copym g q r sc k m w) s { cause := 0x02, arg := 0x401 })) ∧
    (0xC0000000 ≤ z 1 0 64 → traps (.copym g q r sc k m w) s { cause := 0x02, arg := 0x401 })

/-- GATH (R61, R254) and LAUNCH (R34, R35, R39). The rows that the enabled lanes name, as they are at the issue step (the model's choice,
notes/assumptions/6.md) after the seat's operations on their way to them (R143), land in the gather latch after twelve steps, +0 beyond the
column extent, the others structural; one that meets poison lands its trap then (R246); a source that is not tagged N32 raises format, before the
handle's own checks (the model's order, notes/assumptions/18.md). A launch that its field has room for is
accepted, true:false landing in its pair, and a valid one is pending, or armed when its descriptor names a trigger; one without room lands
false:true and does nothing else. With rel the strand's operations on their way are performed first (R39, R146). -/
def Obligations.GatherAndLaunch : Prop :=
  ∀ (s : State) (st : Strand) (g : BitVec 4) (a : BitVec 5) (r : BitVec 1) (sc p : BitVec 3) (u : State) (v : Strand), ActsInBundle s st g →
    Marks s u v →
    let m := { v with marked := true }
    let y := u.setStrand m
    let z := zBits v
    let h := z 8 0 6
    let K := v.kr (BitVec.ofNat 3 (z 8 16 3))
    (z 8 19 13 = 0 → z 8 6 10 = 0 → z 8 32 6 = 0 → (v.vr a).tag = 4 →
      ∀ e, u.entryOf v.launch h = some e → e.kind = 0 → e.rank ≠ 1 → e.fmt = 1 ∨ e.fmt = 5 ∨ e.fmt = 6 → (e.rank = 2 → z 9 0 32 = 0) →
      ∀ rows, y.gatherRows m e h (v.vr a) K (List.range 64) = .ok rows →
        let read := (rows.filterMap id).map fun b => (b, e.elem * min 64 (e.extCol - z 8 32 32))
        let x := y.settleWords m read
        (∀ w, poisonMet [] x read = some w → ∃ t : Trap, t.cause = 0x0E ∧ gives (.gath g a) s (x.setStrand (lands m 12 [.gtrap t]))) ∧
        (x.poison = [] → ∃ l : GatherLatch, gives (.gath g a) s (x.setStrand (lands m 12 [.glatch l])) ∧ l.tag = BitVec.ofNat 4 e.fmt ∧ l.rows.length = 64 ∧
        ∀ n < 64, (K.getLsbD n = false → l.rows[n]? = some none) ∧
          (K.getLsbD n = true → ∃ b bs, rows[n]? = some (some b) ∧ l.rows[n]? = some (some bs) ∧ ∀ j < 64, ∀ i < e.elem,
            bs[e.elem * j + i]?.getD 0 = if z 8 32 32 + j < e.extCol then memRead x.mem (b + e.elem * j + i) else 0))) ∧
    (z 8 19 13 = 0 → z 8 6 10 = 0 → z 8 32 6 = 0 → (v.vr a).tag ≠ 4 → traps (.gath g a) s { cause := 0x02, arg := 0x210 + a.toNat }) ∧
    (let f := s.cur.tile / 64
     let armed := decide (z 22 0 64 ≠ 0)
     let waiting := (u.launches.filter fun l => l.phase == .pending && l.field == f).length
     let triggers := (u.cmds.filter fun d => d.phase == 0 && d.seat.tile / 64 == f).length +
       (u.launches.filter fun l => l.phase == .armed && l.field == f).length
     let pair : Bool → List Res := fun b => toP v (2 * p.toNat) b ++ toP v (2 * p.toNat + 1) (!b)
     let answer : Bool → State := fun b => (if r = 1 then y.settleAll m else y).setStrand (lands m 1 (pair b))
     let x := answer true
     (¬ (waiting < 4096 ∧ (armed = true → triggers < 8192)) → gives (.launch g r sc p) s (answer false)) ∧
     (waiting < 4096 → (armed = true → triggers < 8192) → ∃ (l : Launch) (t : State), gives (.launch g r sc p) s t ∧
       l.field = f ∧ (∀ n : Nat, n < 8 → l.words[n]? = some (v.z[16 + n]?.getD 0)) ∧ l.asid = v.asid ∧ l.pri = min (z 18 48 8) v.pri ∧
       l.issuer = .strand s.cur (v.recAddr / 64) s.cur.tile ∧
       (l.valid = true → x.tableValid l = true → t = { x with
         launches := x.launches ++ [{ l with id := x.nextId, since := x.tick, phase := if armed then .armed else .pending }]
         nextId := x.nextId + 1, tick := x.tick + 1 }) ∧
       (l.valid = false ∨ x.tableValid l = false → t = x.launchEvent l 0x22)))

/-! ### Counters, atomics, sequences, teams, fences -/

namespace Sys2Proof.Spec

/-- An SY slot reaches its word (R262): its bundle's mark leaves u with strand v, the address is aligned and translates to key, and the word is
not poisoned; y is the state with the translation cached and the mark noted. -/
structure AtHome (s : State) (st : Strand) (g : BitVec 4) (va : Nat) (write : Bool) (y : State) (m : Strand) (key : Nat) : Prop
    extends ActsInBundle s st g where
  marks : ∃ u v, Marks s u v ∧ m = { v with marked := true } ∧ u.poison = [] ∧
    u.translate (s.cur.tile / 64) v.asid va write = some key ∧ y = (u.setStrand m).fillXlat (s.cur.tile / 64) v.asid va
  aligned : va % 8 = 0

/-- The operation that a slot sends to a word's home (R262). -/
def sentOp (y : State) (m : Strand) (op : Nat) (rel : Bool) (va key a b : Nat) : HomeOp :=
  ⟨y.nextId, y.cur, m.asid, m.launch, m.recAddr / 64, op, rel, va, key, a, b, y.stepOf m.asid⟩

/-- The strand's operations on their way that must be performed before one on n bytes at a key: all for a release (R146), else those on the same
bytes (R143). -/
def settled (y : State) (m : Strand) (rel : Bool) (key n : Nat) : State := if rel then y.settleAll m else y.settleWords m [(key, n)]

/-- The state with an operation of the seat on its way; its seat goes on (R262). -/
def sends (y : State) (o : HomeOp) : State := { y with flight := y.flight ++ [o], nextId := y.nextId + 1 }

/-- ord of R179: bit 0 asks for an acquire. -/
def acquiring (o : BitVec 2) : Prop := o.getLsbD 0 = true
/-- ord of R179: bit 1 asks for a release. -/
def releasing (o : BitVec 2) : Bool := o.getLsbD 1

end Sys2Proof.Spec

/-- Counters (R144, R262, R263): an add or a raise that acquires changes the counter at its issue step and one that does not is sent to
its home, where HOME_OPERATION_PERFORMED adds; an add that would pass 2^64 - 1 leaves the counter there and raises counter overflow after
the bundle when it froze its seat; CREAD lands the value after one step; CWAIT goes on at once when the target is met and otherwise
freezes. The strand's earlier operations that it must follow come first (R143, R146). That a freezing operation is performed at issue is the
model's choice (notes/assumptions/12.md). -/
def Obligations.CounterOperations : Prop :=
  ∀ (s : State) (st : Strand) (g : BitVec 4) (o : BitVec 2) (sc : BitVec 3) (a b : BitVec 6) (y : State) (m : Strand) (key : Nat),
    let va := (m.xr a).toNat
    let B := (m.xr b).toNat
    let x := settled y m (releasing o) key 8
    let C := x.natAt key 8
    (AtHome s st g va true y m key →
      (¬ acquiring o → gives (.cadd g o sc a b) s (sends y (sentOp y m 0 (releasing o) va key B 0)) ∧
        gives (.craise g o sc a b) s (sends y (sentOp y m 3 (releasing o) va key B 0))) ∧
      (acquiring o → C + B < 2 ^ 64 → gives (.cadd g o sc a b) s ((x.putNat key 8 (C + B)).setStrand m)) ∧
      (acquiring o → 2 ^ 64 ≤ C + B → gives (.cadd g o sc a b) s
        { (x.putNat key 8 (2 ^ 64 - 1)).setStrand m with raised := some { cause := 0x0B, arg := 0, after := true } }) ∧
      (acquiring o → C < B → gives (.craise g o sc a b) s ((x.putNat key 8 B).setStrand m)) ∧
      (acquiring o → B ≤ C → gives (.craise g o sc a b) s (x.setStrand m))) ∧
    (AtHome s st g va false y m key →
      gives (.cread g o sc a b) s (x.setStrand (lands m 1 (toX m b (BitVec.ofNat 64 C)))) ∧
      (B ≤ C → gives (.cwait g o sc a b) s (x.setStrand m)) ∧
      (C < B → gives (.cwait g o sc a b) s (x.setStrand { m with wait := .counter key B (o.getLsbD 0) }))) ∧
    (ActsInBundle s st g → ∀ u v, Marks s u v → (v.xr a).toNat % 8 ≠ 0 →
      ∀ i ∈ [.cadd g o sc a b, .cwait g o sc a b, .cread g o sc a b, Instr.craise g o sc a b], traps i s { cause := 0x05, arg := 0xFFFF })

/-- Data atomics and SADD (R154, R264, R265, R107, R120): with a destination the word is changed at its home, after the strand's operations on
their way to it (R143), and its old value lands one step later; with X0 the seat goes on and the operation is sent. A word of a counter array raises
counter store. That one with a destination is performed at its issue step is the model's choice (notes/assumptions/12.md). -/
def Obligations.DataAtomics : Prop :=
  ∀ (s : State) (st : Strand) (g : BitVec 4) (d a b : BitVec 6) (y : State) (m : Strand) (key : Nat),
    let va := (m.xr a).toNat
    let B := m.xr b
    let x := settled y m false key 8
    let W : Word := BitVec.ofNat 64 (x.natAt key 8)
    let rows : List (Instr × Nat × Word) := [(.aadd g d a b, 4, W + B), (.amin g d a b, 5, BitVec.ofInt 64 (min W.toInt B.toInt)),
      (.amax g d a b, 6, BitVec.ofInt 64 (max W.toInt B.toInt)), (.axchg g d a b, 7, B), (.acas g d a b, 8, if W = m.xr d then B else W),
      (.aand g d a b, 9, W &&& B), (.aor g d a b, 10, W ||| B)]
    AtHome s st g va true y m key →
    (atomicCheck y m va key = none →
      (d ≠ 0 → ∀ r ∈ rows, gives r.1 s ((x.putNat key 8 r.2.2.toNat).setStrand (lands m 1 (toX m d W)))) ∧
      (d = 0 → ∀ r ∈ rows, gives r.1 s (sends y (sentOp y m r.2.1 false va key B.toNat 0)))) ∧
    (stampedCheck y m va key = none →
      let n := stampedAdd W.toNat (B.toNat % 2 ^ 32) (B.toNat / 2 ^ 32) (y.stepOf m.asid)
      (d ≠ 0 → gives (.sadd g d a b) s ((x.putNat key 8 n.1).setStrand
        (lands m 1 (toX m d W ++ if n.2 = 0 then [] else [.flags n.2])))) ∧
      (d = 0 → gives (.sadd g d a b) s (sends y (sentOp y m 11 false va key B.toNat 0)))) ∧
    ((y.wordHandle m.launch va fun _ e => e.kind == 4).isSome = true → ∀ r ∈ rows, traps r.1 s { cause := 0x0C, arg := 0 }) ∧
    (stampedCheck y m va key ≠ none → traps (.sadd g d a b) s { cause := 0x05, arg := 0xFFFF })

/-- Sequence operations (R102, R108 to R110, R115) on a valid header: SRSV lands the start, or all ones when it is refused and then
changes nothing; SCMT of an open reservation commits it and another raises sequence write with TRAPARG 2; SPIN and SUNPIN land the state
they found; SQSNAP, which only reads, lands LEN in Xd and SQLENn. An invalid header raises sequence write with TRAPARG 1. They are performed at
the issue step, after all of the strand's operations on their way (the model's choice, notes/assumptions/12.md). -/
def Obligations.SequenceOperations : Prop :=
  ∀ (s : State) (st : Strand) (g : BitVec 4) (d a b : BitVec 6) (n : BitVec 2) (y : State) (m : Strand) (key : Nat),
    let x := y.settleAll m
    let H := x.seqHeader key
    let N := (m.xr b).toNat
    (AtHome s st g (m.xr a).toNat true y m key →
      (H.valid = true → key % 64 = 0 →
        (N = 0 ∨ H.cap < H.rsv + N ∨ 4096 < H.rsv + N - H.len →
          gives (.srsv g d a b) s (x.setStrand (lands m 1 (toX m d (BitVec.allOnes 64))))) ∧
        (∀ t, x.reserve m.asid H N (x.stepOf m.asid) = (none, t) → t = x ∧ gives (.srsv g d a b) s (x.setStrand (lands m 1 (toX m d (BitVec.allOnes 64))))) ∧
        (∀ t, x.reserve m.asid H N (x.stepOf m.asid) = (some H.rsv, t) → gives (.srsv g d a b) s (t.setStrand (lands m 1 (toX m d (BitVec.ofNat 64 H.rsv))))) ∧
        (∀ t, x.commit m.asid H N = some t → gives (.scmt g a b) s t) ∧
        ((∀ w ∈ x.windows, ¬ (w.hdr = key ∧ w.start = N ∧ w.committed = false)) → traps (.scmt g a b) s { cause := 0x08, arg := 2 }) ∧
        (∀ z t, x.pin m.asid H N true = (z, t) → gives (.spin g d a b) s (t.setStrand (lands m 1 (toX m d (BitVec.ofNat 64 z))))) ∧
        (∀ z t, x.pin m.asid H N false = (z, t) → gives (.sunpin g d a b) s (t.setStrand (lands m 1 (toX m d (BitVec.ofNat 64 z)))))) ∧
      (H.valid = false → ∀ i ∈ [.srsv g d a b, .scmt g a b, .spin g d a b, Instr.sunpin g d a b], traps i s { cause := 0x08, arg := 1 })) ∧
    (AtHome s st g (m.xr a).toNat false y m key →
      (H.valid = true → key % 64 = 0 →
        gives (.sqsnap g d a n) s (x.setStrand (lands m 1 (toX m d (BitVec.ofNat 64 H.len) ++ [.sqlen n.toNat (BitVec.ofNat 64 H.len)])))) ∧
      (H.valid = false → traps (.sqsnap g d a n) s { cause := 0x08, arg := 1 }))

/-- Teams (R30 to R32): TARRIVE and TBAR arrive once and land the closing value of the generation arrived in, and TBAR freezes until
ARRIVALS reaches it; JOIN takes a strand without a team into a team without members at once, and otherwise waits for the close; LEAVE
clears TEAMID when it named the team and is sent as an arrival. The strand's earlier operations that one must follow come first (R143, R146). A
gang team's flag comes with the strand's next placement (R33). A close admits the joins, drops leaves beyond the members and begins the
next generation at the old one's closing value. The model's choices: with no members BASE lands (notes/assumptions/20.md), a join clears the gang
flag at once (21.md), the number 0xFFFFFFFF acts on its record (64.md), and an arrival that freezes is performed at issue (12.md). -/
def Obligations.TeamOperations : Prop :=
  (∀ (s : State) (st : Strand) (g : BitVec 4) (o : BitVec 2) (sc : BitVec 3) (a b : BitVec 6) (y : State) (m : Strand) (key : Nat),
    let t := (m.xr a).toNat % 2 ^ 32
    let x := settled y m (releasing o) key 32
    let T := x.teamAt key
    AtHome s st g (t * 64) true y m key → T.arrivals + 1 < 2 ^ 64 →
    let R := (x.arrive key).1
    let closing := if T.members = 0 then T.base else T.base + T.members
    (b ≠ 0 ∨ acquiring o → gives (.tarrive g o sc a b) s (R.setStrand (lands m 1 (toX m b (BitVec.ofNat 64 closing))))) ∧
    (b = 0 → ¬ acquiring o → gives (.tarrive g o sc a b) s (sends y (sentOp y m 17 (releasing o) (t * 64) key 0 0))) ∧
    (let v := lands m 1 (toX m b (BitVec.ofNat 64 closing))
     gives (.tbar g o sc a b) s (R.setStrand (if closing ≤ R.natAt key 8 then v else { v with wait := .team key closing }))) ∧
    (let left := if m.team * 64 = t * 64 then { m with team := 0xFFFFFFFF, gang := false } else m
     (¬ acquiring o → gives (.leave g o sc a) s (sends (y.setStrand left) (sentOp y m 15 (releasing o) (t * 64) key 0 0))) ∧
     (acquiring o → gives (.leave g o sc a) s ((x.leaveTeam key).1.setStrand left))) ∧
    (m.team = 0xFFFFFFFF → T.members = 0 → gives (.join g o sc a) s
      ((x.putTeam key { T with members := 1, base := T.arrivals }).setStrand { m with team := t, gang := false })) ∧
    (m.team = 0xFFFFFFFF → T.members ≠ 0 → gives (.join g o sc a) s
      ((x.putTeam key { T with joins := T.joins + 1 }).setStrand
        { m with team := 0xFFFFFFFF, gang := false, wait := .join t key (T.base + T.members) T.joins false }))) ∧
  (∀ T : Team, T.gang = false →
    T.close.1.members = (T.members - T.leaves) + T.joins ∧ T.close.1.base = T.base + T.members ∧ T.close.1.joins = 0 ∧ T.close.1.leaves = 0 ∧
    T.close.1.arrivals = T.arrivals)

/-- Fences and the step (R116, R118, R152, R266): FBEGIN gives its token the kinds selected of the strand's earlier accesses, on whatever seat
they were issued (R44), merged with a coverage it has, with the wider scope; FWAIT ends a coverage all of whose accesses have performed and
otherwise freezes, and one without coverage goes on; of drain writes the mass adds of beats before the FBEGIN may be left to perform, the model's
reading (notes/assumptions/54.md). STEPADV, after the seat's operations on their way, adds 1 to the identifier's step at its issue step (the model's
choice, notes/assumptions/12.md) and lands the new step; its bundle is held back while the identifier owes a sweep. -/
def Obligations.FencesAndStep : Prop :=
  ∀ (s : State) (st : Strand) (g : BitVec 4) (f : BitVec 3) (k : BitVec 4) (sc : BitVec 3) (b : BitVec 6), ActsInBundle s st g →
    let old := st.fence[f.toNat]?.getD none
    (∃ F : Fence, becomes (.fbegin g f k sc) s { st with fence := st.fence.setIfInBounds f.toNat (some F) } ∧
      (∀ c ∈ s.cmds, c.of st = true → (k.getLsbD 1 = true → c.id ∈ F.cmds)) ∧
      (∀ o ∈ s.flight, o.of st = true → (k.getLsbD 0 = true → o.id ∈ F.ops)) ∧ (k.getLsbD 2 = true → ∃ n, F.writes = some n ∧ st.clk + 10 ≤ n) ∧
      (old = none → F.scope = sc.toNat) ∧ (∀ F', old = some F' → F.scope = max F'.scope sc.toNat ∧ (∀ c ∈ F'.cmds, c ∈ F.cmds) ∧ ∀ o ∈ F'.ops, o ∈ F.ops)) ∧
    (old = none → gives (.fwait g f) s s) ∧
    (∀ F : Fence, old = some F →
      (s.fenceDone st F = true → becomes (.fwait g f) s { st with fence := st.fence.setIfInBounds f.toNat none }) ∧
      (s.fenceDone st F = false → becomes (.fwait g f) s { st with wait := .fence f.toNat })) ∧
    (∀ F : Fence, s.fenceDone st F = true ↔ (∀ c ∈ s.cmds, c.id ∉ F.cmds) ∧ (∀ o ∈ s.flight, o.id ∉ F.ops) ∧
      ∀ n, F.writes = some n → ∀ d ∈ st.adds, n ≤ d.due) ∧
    (∀ u v, Marks s u v →
      let m := { v with marked := true }
      let y := (u.setStrand m).settleAll m
      let N := y.stepOf v.asid
      ((u.setStrand m).sweepOwed v.asid = false → N + 1 < 2 ^ 64 → gives (.stepadv g b) s
        ((y.putNat (idWord v.asid 0) 8 (N + 1)).setStrand (lands m 1 (toX m b (BitVec.ofNat 64 (N + 1))))))) ∧
    (s.sweepOwed st.asid = true → ∀ n w, st.pr (guardOf w) = true → s.heldBack st [(n, w, .stepadv g b)] = true)

/-! ### The step, traps and reset -/

namespace Sys2Proof.Spec

/-- Slots act one after the other, each in the state that the one before left, and none of them raises a trap (R165, R174). -/
def Run : List Instr → State → State → Prop
  | [], s, t => t = s
  | i :: is, s, t => ∃ u, gives i s u ∧ u.raised = none ∧ Run is u t

/-- It is seat q's turn to issue the bundle at bs (R163, R173, R290): the oldest input names it, its field's clock runs, nothing holds
it, its check mode is off, and the bundle has a meaning there, in a code-store line without an uncorrected error (R343), with no unit held, no sweep owed by a STEPADV and no noise word missing (R79, R118, R218,
R254) and no mass add of it that a pass holds back (R138). s0 is the state in which it issues, u0 the one in which its slots act: with the gated stores performed if one of them makes a mark (R59). -/
structure Issues (s s0 u0 : State) (q : SeatId) (rest : List Input) (st : Strand) (bs : List Byte)
    (is : List (Nat × BitVec 32 × Instr)) : Prop where
  input : s.inputs = .seat q :: rest
  seat : s.strandAt q = some st
  state : s0 = { s with inputs := rest, cur := q, raised := none, inBundle := false }.setStrand st
  clock : s0.clockRuns (q.tile / 64) = true
  free : st.wait = .none ∧ st.idle = none ∧ st.held = none ∧ st.swap = none ∧ st.stall = 0 ∧ st.ctl = .none ∧ st.chk = false
  nest : ∀ sp, st.regs.spool = some sp → sp.empty = false ∧ sp.start = none
  words : s0.beatShort st = false ∧ s0.addShort st = false ∧ s0.heldBack st is = false
  bytes : s0.fetch st = some bs
  intact : s0.codeError st = none
  decoded : placedSlots bs = is.map fun p => (p.1, p.2.1, Slot.ok p.2.2)
  judged : faultOf (is.map fun p => (p.1, judge s0 st p.2.2)) = none
  gate : gateFirst is { s0 with inBundle := true, raised := none } = .ok u0 ∧ u0.raised = none
  legal : bundleFault st.regs.branch.isSome
    (st.regs.loop.any fun l => decide (l.start ≤ st.regs.pc) && decide (st.regs.pc < l.start + 16 * l.length)) st.regs.spool.isSome
    (placedSlots bs) = none

end Sys2Proof.Spec

/-- A step runs the decoded bundle (R163 to R165, R173, R174, R194): the instructions that the bytes at the seat's program counter decode
to act in turn, and then the bundle ends, by which the program counter moves past it; a slot that raises a trap to be taken at once
makes the bundle do nothing but that, the noise words its slots drew being discarded (R81); a bundle that holds a poisoned word of its tile's code
store raises poisoned data instead (R343, notes/assumptions/53.md). Each step of the worked REP of R172 is one repetition, its registers
advanced, and the bundle stands until the last (R171, R172). An input that names another agent's step runs exactly that. That inputs choose who moves is the
model's (notes/assumptions/4.md). -/
def Obligations.StepRunsTheDecodedBundle : Prop :=
  (∀ (s s0 u0 : State) (q : SeatId) (rest : List Input) (st : Strand) (bs : List Byte) (is : List (Nat × BitVec 32 × Instr)),
    Issues s s0 u0 q rest st bs is → (∀ p ∈ is, ∀ n z y x, p.2.2 ≠ .rep n z y x) →
    let turn := (inOrder is).map fun p => p.2.2
    (∀ t, Run turn u0 t → step s = .next (endBundle s0 t none)) ∧
    (∀ before i after u v tr, turn = before ++ i :: after → Run before u0 u → gives i u v → v.raised = some tr →
      tr.after = false → ∃ tr', step s = .next (takeTrap tr' (s0.undone u)))) ∧
  (∀ (s s0 : State) (q : SeatId) (rest : List Input) (st : Strand) (bs : List Byte) (a : Nat), s.inputs = .seat q :: rest → s.strandAt q = some st →
    s0 = { s with inputs := rest, cur := q, raised := none, inBundle := false }.setStrand st → s0.clockRuns (q.tile / 64) = true →
    st.wait = .none → st.idle = none → st.held = none → st.swap = none → st.stall = 0 → st.ctl = .none → st.regs.spool = none →
    s0.beatShort st = false → s0.addShort st = false → s0.fetch st = some bs → s0.codeError st = some a → (q.tile, a) ∈ s.codePoison ∧ a < st.regs.pc + 16 ∧ st.regs.pc < a + 8 ∧
      step s = .next (takeTrap { cause := 0x0E, arg := a % 2 ^ 32, faddr := a } s0)) ∧
  (∀ (s s0 : State) (q : SeatId) (rest : List Input) (st : Strand) (j : Nat), s.inputs = .seat q :: rest → s.strandAt q = some st →
    s0 = { s with inputs := rest, cur := q, raised := none, inBundle := false }.setStrand st → s0.clockRuns (q.tile / 64) = true →
    st.wait = .none → st.idle = none → st.held = none → st.swap = none → st.stall = 0 → st.ctl = .none → st.chk = false → st.regs.spool = none →
    st.regs.branch = none → st.regs.loop = none → st.pend = [] → st.drains = [] → st.adds = [] → st.drawn = [] → st.regs.xrot = 0 →
    s0.fetch st = some (leBytes 4 0xF1040400 ++ leBytes 4 0x207A0000 ++ leBytes 4 0x20028A01 ++ leBytes 4 0) → s0.codeError st = none →
    j < 4 → st.regs.rep = (if j = 0 then none else some j) → ∃ t x, step s = .next t ∧ t.strandAt q = some x ∧ t.mem = s.mem ∧ x.clk = st.clk + 1 ∧
      (∀ k < 64, x.regs.xAt k = if k = 40 + j then 0 else if k = 10 then st.regs.xAt 10 + 1 else st.regs.xAt k) ∧
      (j < 3 → x.regs.pc = st.regs.pc ∧ x.regs.rep = some (j + 1)) ∧ (j = 3 → x.regs.pc = st.regs.pc + 16 ∧ x.regs.rep = none)) ∧
  (∀ (s : State) (i : Instr) (rest : List Input), s.inputs = .event i :: rest → i.isSlot = false → step s = exec i { s with inputs := rest }) ∧
  (∀ r : Regs, r.spool = none → r.branch = none → r.loop = none → r.rep = none → r.nextBundle .none = { r with pc := r.pc + 16, repN := 0 })

/-- Taking a trap (R339, R340, R173): the strand is saved in a claimed frame with its trap record and its seat enters handler mode at the
cause's entry, all registers zero but X2 to X4; without a frame it is terminated with event 0x24 and nothing of it is saved, its gated stores
dropped with it, the frame being claimed before anything of the strand is performed, the model's choices (notes/assumptions/31.md); an invalid pool
counts in SHORT as one without a clear bit does (R366, notes/assumptions/57.md); without an entry and in handler mode it is terminated as well. The handler runs for its
strand's launch, the model's choice (notes/assumptions/40.md). A rollback cause goes back to the shadowed registers and discards the gate buffer. An illegal bundle takes cause 0x01 with its slots and
reason. -/
def Obligations.TakingATrap : Prop :=
  (∀ (s : State) (st0 : Strand) (t : Trap), s.strand = some st0 → s.raised = none →
    let p := s.countPoison t
    (∀ h, st0.handler = some h → takeTrap t s = p.terminateHandled st0 h.frame 0x24 (h.cause + t.cause * 256)) ∧
    (st0.handler = none →
      let frames := p.claimFrame st0.asid
      let hdr := p.idRecord st0.asid 4
      (∀ z, frames = .short z → takeTrap t s = z.terminate st0 0x24 t.cause) ∧
      (∀ a, p.claim st0.asid hdr = .invalid → hdr ≠ 0 → p.translate 0 st0.asid (hdr + 24) true = some a → p.natAt a 8 + 1 < 2 ^ 64 →
        frames = .short (p.putNat a 8 (p.natAt a 8 + 1))) ∧
      ∀ k base z, frames = .got k base z →
      let frame := base + 262144 * k
      let u := trapSave t st0 z
      ∀ st, u.strand = some st → u.raised = none →
        let at_ := t.site.getD st0.site
        let W : Vector Word 8 := #v[BitVec.ofNat 64 (t.cause + t.reason * 2 ^ 8 + at_.2.2 * 2 ^ 24 + (if t.rollback then 2 ^ 27 else 0) +
            st.asid * 2 ^ 32), BitVec.ofNat 64 at_.1, BitVec.ofNat 64 t.arg, BitVec.ofNat 64 (st.recAddr / 64), BitVec.ofNat 64 st.here,
          BitVec.ofNat 64 t.faddr, BitVec.ofNat 64 (t.rstate + t.cctr / 8 * 8), BitVec.ofNat 64 at_.2.1]
        let saved := { st with trapRec := W }
        let y := (u.setStrand saved).saveStrand frame saved 1
        let entry := y.handlerEntry st.asid t.cause
        (entry = 0 → takeTrap t s = (y.freeFrame st.asid frame).terminate saved 0x24 t.cause) ∧
        (entry ≠ 0 →
            ∃ h, (takeTrap t s).strand = some h ∧ (takeTrap t s).savedAt st.asid frame = some saved ∧ h.regs.pc = entry ∧
              (∀ n : BitVec 6, h.xr n = if n = 2 then BitVec.ofNat 64 frame else if n = 3 then BitVec.ofNat 64 t.cause
                else if n = 4 then BitVec.ofNat 64 (st.recAddr / 64) else 0) ∧
              (∀ n : BitVec 5, h.vr n = zeroV) ∧ (∀ n : BitVec 4, h.pr n = decide (n = 0)) ∧ (∀ n : BitVec 3, h.tr n = zeroT) ∧
              h.pri = 248 ∧ h.service = true ∧ h.team = 0xFFFFFFFF ∧ h.asid = st.asid ∧ h.launch = st.launch ∧
              h.handler = some ⟨frame, t.cause⟩ ∧ h.trapRec = W))) ∧
  (∀ (s : State) (st0 : Strand) (t : Trap), s.strand = some st0 → st0.adds = [] → t.after = true ∨ t.site ≠ none →
    (t.rollback = true → trapSave t st0 s = s.setStrand st0.rollback ∧ st0.rollback.regs = st0.shadow ∧ st0.rollback.gate = []) ∧
    (t.rollback = false → st0.gate = [] →
      trapSave t st0 s = s.setStrand { st0 with gate := [] })) ∧
  (∀ (s : State) (st : Strand) (m : BitVec 4) (r : BitVec 8), s.strand = some st → s.raised = none → s.inBundle = false →
    gives (.illegalBundle m r) s (takeTrap { cause := 0x01, arg := m.toNat + 256 * r.toNat, reason := r.toNat } s))

/-- The return from a trap (R200, R341, R345, R347, R367): a container that passes its checks is restored to the seat, with what the handler
wrote into the X, V and spill payloads, and its frame is freed; one that another part saved is restored as well (R45), the state of its sections
of the stepping's own layout being free (notes/assumptions/11.md); one that the running firmware's upgrade table does not accept (R364), or whose
sections are refused, ends the strand with event 0x25; EXIT in handler mode ends it
with event 0x24 and the original cause. -/
def Obligations.ReturnFromATrap : Prop :=
  (∀ (s : State) (h : Strand) (hd : Handler), s.strand = some h → h.handler = some hd → h.gate = [] → rising s.seats = true →
    (∀ A, (∀ o < 262144, s.translate 0 h.asid (hd.frame + o) false = some (A + o)) →
      let byte : Nat → Byte := fun o => if o < 262144 then memRead s.mem (A + o) else 0
      (s.security.accepts = true → containerOk byte = true → ∃ r, returnFromTrap s = (s.freeFrame h.asid hd.frame).setStrand r ∧
        (∀ st, s.savedAt h.asid hd.frame = some st →
          r.handler = st.handler ∧ r.regs.pc = st.regs.pc ∧ r.regs.p = st.regs.p ∧ r.regs.k = st.regs.k ∧ r.regs.flags = st.regs.flags ∧
          r.pend = st.pend ∧ r.z = st.z ∧ r.g = st.g ∧ r.clk = st.clk ∧ r.recAddr = st.recAddr ∧ r.team = st.team ∧ r.pri = st.pri) ∧
        (∀ n : Nat, 0 < n → n < 64 → r.regs.x[n]? = some (BitVec.ofNat 64 (s.natAt (A + 80 + 8 * n) 8))) ∧
        (∀ n l : Nat, n < 32 → l < 64 → (r.regs.v[n]?.getD zeroV).lane l = BitVec.ofNat 32 (s.natAt (A + 1120 + 256 * n + 4 * l) 4)) ∧
        (∀ n : Nat, n < 512 → r.regs.spill[n]? = some (BitVec.ofNat 64 (s.natAt (A + 206080 + 8 * n) 8)))) ∧
      (s.security.accepts = false ∨ containerOk byte = false → returnFromTrap s = s.terminateHandled h hd.frame 0x25 hd.cause))) ∧
  (∀ (s : State) (q : SeatId) (h : Strand) (hd : Handler), h.handler = some hd →
    exitLeave q h s = { s with cur := q }.terminateHandled h hd.frame 0x24 hd.cause)

/-- Every step keeps memory in its canonical form: addresses strictly rising, none listed that holds what an unlisted one reads as. The
form is the model's (notes/assumptions/1.md). -/
def Obligations.EveryStepKeepsMemoryCanonical : Prop :=
  ∀ (s t : State), s.memoryCanonical → step s = .next t → t.memoryCanonical

/-- After power-on (R318 to R327, R334, R348, R349, R355, R358 to R360): what each register of a port reads, the current limit and frequency
of every island and its other fields, no field up, no strand on any seat; and memory is in its canonical form. -/
def Obligations.ResetValues : Prop :=
  (∀ p off : Nat, p < 2 → State.reset.readRegister p off =
    if off = 0x0000 then 0x638400A000000000
    else if off = 0x0010 then BitVec.ofNat 64 p
    else if off = 0x0080 then 0x0008000000000000
    else if off = 0x0088 then 2000
    else if off % 8 = 0 ∧ 0x0040 ≤ off ∧ off ≤ 0x0068 then BitVec.ofNat 64 (1250 * 2 ^ 48 + 3300 * 2 ^ 16)
    else 0) ∧
  (∀ f < 6, State.reset.fieldUp f = false) ∧ (∀ q, State.reset.strandAt q = none) ∧ State.reset.keel = false ∧
  State.reset.memoryCanonical ∧ rising State.reset.seats = true

/-! ### Steps of a seat's other agents -/

/-- The ends of waits and a seat's landings (R28, R31, R33, R118, R135, R144, R152, R165, R211, R218, R262): a wait ends when what it waits for
has come, and its step changes nothing before; a due result lands alone or in memory; a drain beat reads eight rows and goes on, and only one that
draws noise words itself changes more than the seat's drains, results and adds (which beats do is the model's choice, notes/assumptions/10.md); a
mass add's answer changes its word, and adds that a pass holds back wait (R138). A beat's values (R97 to R100, R236) for an FP32 bank without a mask: scale and bias, the function, the row
maximum and sum, and the conversion into a T register, a dense tensor or mass adds. -/
def Obligations.WaitsEndAndResultsLand : Prop :=
  ∀ (s : State) (q : SeatId) (st : Strand), s.strandAt q = some st →
    let goes : Instr → Strand → Prop := fun i v => gives i s (s.putStrand q v)
    (∀ a t b, st.wait = .counter a t b → (t ≤ s.natAt a 8 → goes (.counterWaitSatisfied q) { st with wait := .none }) ∧
      (s.natAt a 8 < t → gives (.counterWaitSatisfied q) s s)) ∧
    (∀ a t, st.wait = .team a t → (t ≤ s.natAt a 8 → goes (.teamBarrierRelease q) { st with wait := .none }) ∧
      (s.natAt a 8 < t → gives (.teamBarrierRelease q) s s)) ∧
    (∀ t a c i b, st.wait = .join t a c i b → c ≤ s.natAt a 8 →
      (b = true → goes (.teamBarrierRelease q) { st with wait := .none, team := 0xFFFFFFFF }) ∧
      (b = false → goes (.teamBarrierRelease q) { st with wait := .none, team := t })) ∧
    (∀ (f : Nat) F, st.wait = .fence f → st.fence[f]? = some (some F) →
      (s.fenceDone st F = true → goes (.fencePerformed q) { st with wait := .none, fence := st.fence.setIfInBounds f none }) ∧
      (s.fenceDone st F = false → gives (.fencePerformed q) s s)) ∧
    goes (.idleExpiry q) { st with idle := none } ∧
    (∀ a p b, s.raised = none → st.pend = a ++ p :: b → p.due ≤ st.clk → (∀ x ∈ a ++ b, st.clk < x.due) → (∀ t, p.res ≠ .trap t ∧ p.res ≠ .gtrap t) →
      let y := { s with cur := q }.putStrand q ({ st with pend := a ++ b }.applyRes p)
      ((∀ x bs, p.res ≠ .mem x bs) → gives (.resultLanding q) s y) ∧
      (∀ x bs, p.res = .mem x bs → gives (.resultLanding q) s (y.writePhys x bs))) ∧
    (∀ d, st.drains = [d] → d.issue + d.beat = st.clk → 8 * d.beat < d.count →
      let B := st.av[d.acc]?.getD zeroBank
      let C : Nat → Nat → Nat → Nat := fun w lo len => (d.fcfg[w]?.getD 0).toNat / 2 ^ lo % 2 ^ len
      let first := d.row + 8 * d.beat
      (∃ t x d' rs ms, gives (.drainBeat q) s t ∧ t.strandAt q = some x ∧ x.drains = [d'] ∧ x.pend = st.pend ++ rs ∧ x.adds = st.adds ++ ms ∧
        x.regs = st.regs ∧ x.aw = st.aw ∧ x.av = st.av ∧ ((d.noise st).mode ≠ 1 → t.mem = s.mem) ∧ d'.beat = d.beat + 1 ∧
        (∀ r ∈ rs, r.due = d.issue + d.beat + 10 ∧ r.order = d.order) ∧ (C 0 36 2 ≠ 3 → ms = []) ∧
        (d.live = false → t = s.putStrand q { st with drains := [d'], pend := st.pend ++ rs, adds := st.adds ++ ms })) ∧
      (d.live = false → B.tag = 7 → C 0 36 2 = 0 → C 0 55 1 = 0 → C 0 52 1 = 0 → C 0 51 1 = 1 → C 0 50 1 = 0 → C 0 38 4 = 0 → first + 8 ≤ 64 →
        ∃ mask lanes, goes (.drainBeat q) { st with
            drains := [{ d with beat := d.beat + 1 }]
            pend := st.pend ++ [⟨d.issue + d.beat + 10, d.order, .v (C 4 38 5) 7 mask lanes⟩] } ∧
          (∀ i < 64, mask.getLsbD i = decide (first ≤ i ∧ i < first + 8)) ∧
          ∀ i : Nat, first ≤ i → i < first + 8 → lanes[i]? = some (BitVec.ofNat 32
            ((List.range 64).foldl (fun m j => max32 m (B.elems[64 * i + j]?.getD 0).toNat) 0xFF800000))) ∧
      (d.live = false → B.tag = 7 → C 0 52 1 = 0 → C 0 38 4 < 14 → C 0 46 3 ≤ 4 → first + 8 ≤ 64 →
        let due := d.issue + d.beat + 10
        let f := BitVec.ofNat 4 (C 0 42 4)
        let mode := C 0 46 3
        let front : Nat → Nat → Nat := fun i j =>
          let l := if C 0 54 1 = 1 then j else i
          let p := (zeroMass (B.elems[64 * i + j]?.getD 0).toNat (d.vs.lane l).toNat).1
          if C 0 55 1 = 0 then (B.elems[64 * i + j]?.getD 0).toNat
          else (rne32 (if C 0 53 1 = 1 then (addVal p (val32 (d.vb.lane l).toNat)).1 else p)).1
        let y : Nat → Nat → Nat := fun i j =>
          if C 0 38 4 = 0 then front i j else (finishFn (C 0 38 4) (BitVec.ofNat 8 (C 0 56 8)).toInt (front i j)).1
        let z : Nat → Nat → Nat := fun i j => (convertOne f.toNat mode 0 false (val32 (y i j))).1
        let side : Nat → Nat → (Nat → Nat) → List Pending → Prop := fun on n v p => if on = 0 then p = [] else
          ∃ mask lanes, p = [⟨due, d.order, .v n 7 mask lanes⟩] ∧ (∀ i < 64, mask.getLsbD i = decide (first ≤ i ∧ i < first + 8)) ∧
            ∀ i : Nat, first ≤ i → i < first + 8 → lanes[i]? = some (BitVec.ofNat 32 (v i))
        ∃ mx sm fl,
          side (C 0 51 1) (C 4 38 5) (fun i => (List.range 64).foldl (fun m j => max32 m (front i j)) 0xFF800000) mx ∧
          side (C 0 50 1) (C 4 33 5) (fun i => windowOf false ((List.range 64).map fun j => val32 (y i j))) sm ∧
          let ends : Drain → List Pending → List MassAdd → Prop := fun d' rs ms => goes (.drainBeat q) { st with
            drains := [d'], adds := st.adds ++ ms, pend := st.pend ++ (rs ++ mx ++ sm ++ if fl = 0 then [] else [⟨due, d.order, .flags fl⟩]) }
          let next := { d with beat := d.beat + 1 }
          (C 0 36 2 = 0 → ends next [] []) ∧
          (C 0 36 2 = 1 → rowed f ∨ blockTag f → ∃ bs,
            ends next ((if d.beat = 0 then [⟨due, d.order, .ttag (C 0 27 3) f⟩] else []) ++ [⟨due, d.order, .tpart (C 0 27 3)
              (if f = 1 ∨ f = 2 ∨ f = 5 ∨ f = 6 then first * 64 * (bitsOf f / 8) else first / 4 * 16 * sqBytes f.toNat) bs⟩]) [] ∧
            (rowed f → bs.length = 512 * (bitsOf f / 8) ∧ ∀ k j e : Nat, k < 8 → j < 64 → e < bitsOf f / 8 →
              bs[(64 * k + j) * (bitsOf f / 8) + e]? = some (BitVec.ofNat 8 (z (first + k) j / 256 ^ e))) ∧
            (blockTag f → bs.length = 32 * sqBytes f.toNat ∧ ∀ b e : Nat, b < 32 → e < sqBytes f.toNat →
              bs[b * sqBytes f.toNat + e]? = some (BitVec.ofNat 8 ((sqBlock f.toNat mode ((List.range 16).map fun n =>
                (val32 (y (first + (4 * (b / 16) + n / 4)) (4 * (b % 16) + n % 4)), 0))).1 / 256 ^ e)))) ∧
          (∀ e, C 0 36 2 = 2 → s.entryOf st.launch (C 0 30 6) = some e → e.kind = 0 → 1 ≤ f.toNat → f.toNat ≤ 7 → ∃ n er,
            ends { next with written := n, err := er } (((rowMajor 8).filter fun p => e.inside (d.destRow + (first + p.1)) (d.destCol + p.2)).map
              fun p => ⟨due, d.order, .mem (d.destFrame + e.elem * (64 * (first + p.1) + p.2))
                ((List.range e.elem).map fun k => BitVec.ofNat 8 (z (first + p.1) p.2 / 256 ^ k))⟩) []) ∧
          (C 0 36 2 = 3 → f = 7 → ∃ n er, ends { next with written := n, err := er } [] (((List.range 8).map fun k => (List.range 64).filterMap fun j =>
            if C 1 0 32 + j < (st.regs.sqlen[C 0 25 2]?.getD 0).toNat then
              (s.recordKey (fieldOf q.tile) st.asid d.destFrame (C 1 0 32 + j) true).map fun a =>
                ⟨a + 8, z (first + k) j, d.now, d.decay, due, d.order⟩
            else none).flatten)))) ∧
    (st.adds ≠ [] → (∀ m ∈ st.adds, s.massHeld m = true) → gives (.massAddAnswer q) s s) ∧
    (∀ m rest, st.adds = m :: rest → (∀ x ∈ rest, m.due < x.due) → s.massHeld m = false →
      let w := stampedAdd (s.natAt m.addr 8) m.value m.decay m.now
      gives (.massAddAnswer q) s ((s.putNat m.addr 8 w.1).putStrand q { st with
        adds := rest
        pend := st.pend ++ if w.2 = 0 then [] else [⟨m.due, m.order, .flags w.2⟩] }))

/-- Operations performed at their homes and watches met (R14, R28, R31, R141, R143, R144, R146, R154, R262, R264): an operation on its way that follows
no earlier one of its seat or strand, on its bytes or as a release, is performed; a counter that would pass 2^64 - 1 stays there and its overflow
is reported by event 0x0B; a parked strand whose counter has reached its target enters a ready queue. -/
def Obligations.HomesPerformOperations : Prop :=
  (∀ (s : State) (a b : List HomeOp) (o : HomeOp), s.flight = a ++ o :: b → (∀ p ∈ a ++ b, p.id ≠ o.id) →
    (∀ p ∈ s.flight, o.seat = p.seat ∨ (p.asid = o.asid ∧ p.sid = o.sid ∧ p.launch = o.launch) →
      o.rel = true ∨ (p.key < o.key + o.bytes ∧ o.key < p.key + p.bytes) → o.id ≤ p.id) →
    let y := { s with flight := a ++ b }
    let M := s.natAt o.key 8
    let W : Nat → Int := fun n => (BitVec.ofNat 64 n).toInt
    let becomes_ : Nat → Prop := fun v => gives (.homeOperationPerformed o.id) s (y.putNat o.key 8 v)
    (o.op = 0 → M + o.a < 2 ^ 64 → becomes_ (M + o.a)) ∧
    (o.op = 0 → 2 ^ 64 ≤ M + o.a → gives (.homeOperationPerformed o.id) s
      ((y.putNat o.key 8 (2 ^ 64 - 1)).event o.asid 0x0B 0xFF o.seat.tile o.sid o.addr 0 0)) ∧
    (o.op = 3 → (M < o.a → becomes_ o.a) ∧ (o.a ≤ M → gives (.homeOperationPerformed o.id) s y)) ∧
    (o.a < 2 ^ 64 → (o.op = 4 → becomes_ ((M + o.a) % 2 ^ 64)) ∧ (o.op = 5 → becomes_ (if W o.a < W M then o.a else M)) ∧
      (o.op = 6 → becomes_ (if W M < W o.a then o.a else M)) ∧ (o.op = 7 → becomes_ o.a) ∧
      (o.op = 8 → becomes_ (if M = o.b then o.a else M)) ∧ (o.op = 9 → becomes_ (M &&& o.a)) ∧ (o.op = 10 → becomes_ (M ||| o.a)) ∧
      (o.op = 11 → becomes_ (stampedAdd M (o.a % 2 ^ 32) (o.a / 2 ^ 32) o.now).1)) ∧
    ((s.natAt o.key 8) + 1 < 2 ^ 64 → (o.op = 15 → gives (.homeOperationPerformed o.id) s (y.leaveTeam o.key).1) ∧
      (o.op = 17 → gives (.homeOperationPerformed o.id) s (y.arrive o.key).1))) ∧
  (∀ (s : State) (w : Watch) (r : Ready) (f : Nat), s.watches.find? (fun v => v.id == w.id) = some w → w.waiter = .strand r f →
    let y := { s with watches := s.watches.filter fun v => v.id != w.id }
    (w.armed = true → w.target ≤ s.natAt w.addr 8 → gives (.watchConditionMet w.id) s (y.enqueue (y.queueField r f) r)) ∧
    (s.natAt w.addr 8 < w.target → gives (.watchConditionMet w.id) s s))

/-! ### Scheduling and launches -/

namespace Sys2Proof.Spec

/-- No command waits with its seat frozen (R248, R249): none goes on when a unit or an entry becomes free. -/
def NoneFrozen (s : State) : Prop := ∀ c ∈ s.cmds, c.phase ≠ 1

/-- The bytes of a new strand's record (R24, R36): PC, WADDR and WTGT zero, X2 to X4, team, identifier, flags, no predicate, PRI, DRAW. -/
def newRecord (l : Launch) (i : Nat) : List Byte :=
  leBytes 8 (l.word 0) ++ List.replicate 16 0 ++ leBytes 8 i ++ leBytes 8 (l.tbase + i / l.tsize) ++ leBytes 8 l.count ++
    leBytes 4 (l.tbase + i / l.tsize) ++ leBytes 2 l.asid ++
    leBytes 2 (16 + (if l.gang then 2 else 0) + (if 248 ≤ l.pri then 8 else 0)) ++ leBytes 2 0 ++ leBytes 1 l.pri ++ leBytes 1 l.draw ++ leBytes 4 0

end Sys2Proof.Spec

/-- Strands are created and placed (R24 to R26, R36, R328, R330): a ready strand that the scheduler places on seat q leaves its queue and starts from
its record, every register that the record does not name zero, a strand whose team is a gang team as a member of it (R31, R33); a new strand's record is claimed and written, and its team's with the team's
first strand; a short pool defers the creation and an invalid one loses the launch. -/
def Obligations.StrandsAreCreatedAndPlaced : Prop :=
  (∀ (s : State) (f : Nat) (c : Choice) (q : SeatId) (r : Ready) (a : Nat) (l : Launch), s.placement f = some (c, [q]) → c.item = .ready [r] →
    s.translate (q.tile / 64) r.asid r.record false = some a → (s.recordAt a).valid = true → (s.recordAt a).flags.testBit 2 = false →
    s.launchOf r.launch = some l → q.tile ∈ l.tiles → s.gangs = [] →
    let joined := s.gangTeam (q.tile / 64) r.asid (s.natAt (a + 48) 4)
    ∃ t x, gives (.strandPlacement f) s t ∧ t.strandAt q = some x ∧
      (joined = false ∨ (s.recordAt a).flags.testBit 1 = true → t.mem = s.mem ∧
        x.gang = (joined || decide (s.natAt (a + 48) 4 ≠ 0xFFFFFFFF) && (s.recordAt a).flags.testBit 1)) ∧
      (joined = true → x.gang = true) ∧
      (∀ d, t.fields[f]? = some d → ∀ w ∈ d.ready, ¬ (w.record = r.record ∧ w.asid = r.asid)) ∧ x.regs.pc = s.natAt a 8 ∧
      (∀ n : BitVec 6, x.xr n = if n = 2 then BitVec.ofNat 64 (s.natAt (a + 24) 8) else if n = 3 then BitVec.ofNat 64 (s.natAt (a + 32) 8)
        else if n = 4 then BitVec.ofNat 64 (s.natAt (a + 40) 8) else 0) ∧
      (∀ n : BitVec 4, 2 ≤ n.toNat → x.pr n = (s.natAt (a + 56) 2).testBit n.toNat) ∧
      (∀ n : BitVec 5, x.vr n = zeroV) ∧ (∀ n : BitVec 3, x.tr n = zeroT ∧ x.gr n = 0) ∧ x.z = Vector.replicate 32 0 ∧
      (∀ n : BitVec 2, x.work n = zeroBank) ∧ x.regs.lc = 0 ∧ x.regs.flags = 0 ∧ x.slatch = .empty ∧ x.glatch = none ∧ x.wait = .none ∧
      x.team = s.natAt (a + 48) 4 ∧ x.asid = s.natAt (a + 52) 2 ∧ x.pri = s.natAt (a + 58) 1 ∧ x.recAddr = r.record ∧ x.launch = r.launch ∧
      x.handler = none) ∧
  (∀ (s : State) (f id : Nat) (l : Launch), s.launchOf id = some l →
    let i := l.created
    (∀ z, s.claim l.asid (s.idRecord l.asid 8) = .short z → createStrand s f id = .deferred (z.mapLaunch id fun l => { l with short := true })) ∧
    (s.claim l.asid (s.idRecord l.asid 8) = .invalid → createStrand s f id = .failed ((s.launchEvent l 0x22).loseLaunch id)) ∧
    (∀ k base z w, s.claim l.asid (s.idRecord l.asid 8) = .got k base z → z.writeGlobal f l.asid (base + 64 * k) (newRecord l i) = some w →
      w.memoryCanonical → ∃ t, createStrand s f id = .made (base + 64 * k) t ∧ (∀ l', t.launchOf id = some l' → l'.created = i + 1) ∧
        (i % l.tsize ≠ 0 → t.mem = w.mem) ∧
        (i % l.tsize = 0 → ∀ a, w.translate f l.asid ((l.tbase + i / l.tsize) * 64) true = some a →
          t.teamAt a = { arrivals := w.natAt a 8, base := w.natAt a 8, members := min l.tsize (l.count - l.tsize * (i / l.tsize)), joins := 0,
                         leaves := 0, gang := l.gang })))

/-- The schedulers' other steps (R25, R44, R329 to R331, R341, R366): a deferred creation is tried again once its pool has a record; a pre-empted
seat is idle, its strand saved whole in a claimed frame, an IDLE's cycles left apart (R211); without a frame it runs on, and one that cannot be
pre-empted yet, in handler mode or leaving its seat, runs on with the request kept. That the frame is claimed before the mark is made and that a
seat about to leave is not pre-empted are the model's choices (notes/assumptions/45.md). A quantum's end swaps a gang team out for another of its level; aging raises one entry's level by one up to its ceiling; balancing moves a record with its age. -/
def Obligations.SchedulersMoveStrands : Prop :=
  (∀ (s : State) (f : Nat), ∃ t, gives (.recordCreationRetry f) s t ∧ t = { s with launches := t.launches } ∧
    t.launches.length = s.launches.length ∧ ∀ (k : Nat) l, s.launches[k]? = some l →
      let n := if l.gang then l.members l.created else 1
      t.launches[k]? = some (if l.field = f ∧ l.short = true ∧ l.lost = false ∧ s.poolHas l.asid n = true then { l with short := false } else l)) ∧
  (∀ (s : State) (q : SeatId) (st : Strand), s.strandAt q = some st → q.tile < 384 → st.gang = false → rising s.seats = true →
    st.gate = [] → st.adds = [] →
    let frames := s.claimFrame st.asid
    ((st.handler ≠ none ∨ st.wait = .exit ∨ (∃ a t, st.wait = .park a t)) → gives (.preemption q) s
      { s with wanted := if SeatId.key q ∈ s.wanted then s.wanted else s.wanted ++ [SeatId.key q] }) ∧
    (st.handler = none → st.wait ≠ .exit → (∀ a t, st.wait ≠ .park a t) →
      (∀ z, frames = .short z → gives (.preemption q) s z) ∧
      ∀ k base z, frames = .got k base z → ∃ t x, gives (.preemption q) s t ∧ t.strandAt q = none ∧
        t.savedAt st.asid (base + 262144 * k) = some x ∧ x.regs = st.regs ∧
        x.wait = st.wait ∧ x.idle = none ∧ x.held = st.held ∧ x.pend = st.pend ∧ x.z = st.z ∧ x.clk = st.clk ∧
        ∃ (f : Nat) (d : Field), t.fields[f]? = some d ∧ ∃ r ∈ d.ready, r.record = st.recAddr ∧ r.asid = st.asid)) ∧
  (∀ (s : State) (f : Nat), (∀ k st, (s.residentGangs f).find? (fun x => s.gangRunnable f x.2) = some (k, st) → rising s.seats = true →
      (s.canPreempt st = true → gives (.gangQuantumExpiry f) s (preemptGang s st.asid st.team st.launch)) ∧
      (s.canPreempt st = false → gives (.gangQuantumExpiry f) s
        { s with wanted := if k ∈ s.wanted then s.wanted else s.wanted ++ [k] })) ∧
    ((∀ x ∈ s.residentGangs f, s.gangRunnable f x.2 = false) → gives (.gangQuantumExpiry f) s s)) ∧
  (∀ (s : State) (f n : Nat) (d : Field) (r : Ready), s.fields[f]? = some d → d.ready[n]? = some r → ∃ t e,
    gives (.agingPeriodExpiry f n) s t ∧ t.fields[f]? = some e ∧ e.ready.length = d.ready.length ∧
    (∀ k : Nat, k ≠ n → e.ready[k]? = d.ready[k]?) ∧
    (∀ l, s.launchOf r.launch = some l → l.agePeriod ≠ 0 → s.readyLevel f r < l.ceiling → e.ready[n]? = some { r with aged := r.aged + 1 }) ∧
    (∀ l, s.launchOf r.launch = some l → l.agePeriod = 0 ∨ l.ceiling ≤ s.readyLevel f r → e.ready[n]? = some r)) ∧
  (∀ (s : State) (f : Nat), (s.balance f = none → gives (.balancingTick f) s s) ∧
    ∀ r g d e, s.balance f = some (r, g) → f ≠ g → s.fields[f]? = some d → s.fields[g]? = some e → ∃ t d' e', gives (.balancingTick f) s t ∧
      t.fields[f]? = some d' ∧ t.fields[g]? = some e' ∧ e'.ready = e.ready ++ [r] ∧
      d'.ready = d.ready.filter fun w => !(r.record == w.record && r.asid == w.asid))

/-- Launches and engine nodes fire, complete and are submitted (R38, R40, R144, R249, R321): an armed launch whose counter has reached its target
moves to the pending-launch store when that has room, and an engine node goes under way behind the commands there; a launch whose strands have
all exited and whose commands and operations on their way are done adds 1 to DONE; a queue's next descriptor is accepted, and an invalid one reported with event 0x22. -/
def Obligations.LaunchesFireAndComplete : Prop :=
  ∀ (s : State), (NoneFrozen s →
    (∀ (f : Nat) (l : Launch) a, s.launchOf l.id = some l → l.field = f → l.phase = .armed → s.translate f l.asid (l.word 6) false = some a →
      (l.word 7 ≤ s.natAt a 8 → s.pendingUsed f < 4096 →
        gives (.triggerFire f l.id) s ({ s with tick := s.tick + 1 }.mapLaunch l.id fun m => { m with phase := .pending, since := s.tick })) ∧
      (s.natAt a 8 < l.word 7 ∨ 4096 ≤ s.pendingUsed f → gives (.triggerFire f l.id) s s)) ∧
    (∀ (f : Nat) (l : Launch), s.launches.find? (fun m => m.field == f && s.canFire m) = some l →
      gives (.pendingEntryFreed f) s ({ s with tick := s.tick + 1 }.mapLaunch l.id fun m => { m with phase := .pending, since := s.tick })) ∧
    (∀ (f : Nat), (∀ l ∈ s.launches, l.field = f → s.canFire l = false) → gives (.pendingEntryFreed f) s s) ∧
    (∀ (f : Nat) (c : Cmd) va tgt a, s.cmds.find? (fun d => d.id == c.id) = some c → c.field = f → c.phase = 0 → c.arm = some (va, tgt) →
      s.translate f c.asid va false = some a →
      (tgt ≤ s.natAt a 8 → s.unitFree c = true → c.op ≠ 14 → c.op ≠ 15 →
        gives (.engineNodeFire f c.id) s { s with cmds := (s.cmds.filter fun d => d.id != c.id) ++ [{ c with phase := 2 }] }) ∧
      (s.natAt a 8 < tgt ∨ s.unitFree c = false → gives (.engineNodeFire f c.id) s s))) ∧
  (∀ (l : Launch), s.launchOf l.id = some l →
    let y := { s with launches := s.launches.filter fun m => m.id != l.id }
    (l.phase ≠ .armed → l.lost = false → l.created = l.count → l.exited = l.count → (∀ c ∈ s.cmds, c.launch ≠ l.id) → (∀ o ∈ s.flight, o.launch ≠ l.id) →
      ∀ a, s.translate l.field l.asid (l.word 4) true = some a →
        (s.natAt a 8 + 1 < 2 ^ 64 → gives (.launchCompletion l.id) s (y.putNat a 8 (s.natAt a 8 + 1))) ∧
        (2 ^ 64 ≤ s.natAt a 8 + 1 → gives (.launchCompletion l.id) s
          ((y.putNat a 8 (2 ^ 64 - 1)).launchEvent l 0x0B))) ∧
    (l.lost = true ∨ l.exited ≠ l.count ∨ (∃ c ∈ s.cmds, c.launch = l.id) ∨ (∃ o ∈ s.flight, o.launch = l.id) → gives (.launchCompletion l.id) s s)) ∧
  (∀ (f : Nat), (s.nextQueue f = none → gives (.submissionConsume f) s s) ∧
    ∀ k u h ws, s.nextQueue f = some (k, u, h) → s.descriptorAt u.asid h u.cons = some ws →
      let y := s.consume f k
      let l : Launch :=
        { id := 0, field := f, words := ws, asid := u.asid, pri := (bitsAt (ws[2]) 48 8).toNat, issuer := .queue u.evt, phase := .pending,
          created := 0, exited := 0, lost := false, args := none, tiles := [], agePeriod := u.agePeriod, ceiling := u.ceiling, short := false,
          since := 0 }
      (∀ d, s.fields[f]? = some d → ∃ e, y.fields[f]? = some e ∧ (∀ (n : Nat) v, d.queues[n]? = some v →
        e.queues[n]? = some { v with cons := if n = k then v.cons + 1 else v.cons })) ∧
      (l.valid = true → y.tableValid l = true → gives (.submissionConsume f) s
        { y with launches := s.launches ++ [{ l with id := s.nextId, since := s.tick, phase := if ws[6] = 0 then .pending else .armed }]
                 nextId := s.nextId + 1, tick := s.tick + 1 }) ∧
      (l.valid = false ∨ y.tableValid l = false → gives (.submissionConsume f) s (y.launchEvent l 0x22)))

/-! ### The engines -/

namespace Sys2Proof.Spec

/-- No word is poisoned, every slice is there, no sequence is known, and memory is canonical: a command's writes in the slices meet nothing (R106,
R343, R353). -/
structure Quiet (s : State) : Prop where
  memory : s.memoryCanonical
  clean : s.poison = []
  open_ : ∀ a < 0xC0000000, s.reachable a = true
  free : s.knownSequences = []

/-- The state z is s after n bytes were written at a, byte k being f k; every other byte stands. -/
def Wrote (s z : State) (a n : Nat) (f : Nat → Byte) : Prop :=
  z = { s with mem := z.mem } ∧ z.memoryCanonical ∧ (∀ k < n, memRead z.mem (a + k) = f k) ∧
    ∀ b, b < a ∨ a + n ≤ b → memRead z.mem b = memRead s.mem b

/-- Two ranges of bytes do not meet. -/
def apart (a n b m : Nat) : Prop := a + n ≤ b ∨ b + m ≤ a

/-- Whether a pass retires a slot of metadata word w (R114, R137, R257): one below LEN that is neither RETIRED nor PINNED; SRETIRE those of its
range, BALLAST those outside the first slots and the tail that it keeps whose decayed value is below its threshold. -/
def retires (c : Cmd) (h : SeqHeader) (slot w : Nat) : Bool :=
  decide (slot < h.len) && !w.testBit 48 && !w.testBit 49 &&
    if c.op = 6 then decide (c.zf 17 0 32 ≤ slot) && decide (slot < c.zf 17 0 32 + c.zf 17 32 32)
    else decide (c.zf 18 0 32 ≤ slot) && decide (slot + c.zf 19 0 32 < h.len) &&
      ltVal (val32 (readStamped h.decay (w % 2 ^ 32) (w / 2 ^ 32 % 2 ^ 16) c.now).1) (val32 (c.zf 17 0 32))

end Sys2Proof.Spec

/-- Engine commands complete or fail (R112, R126, R127, R137, R247, R251 to R258, R261): a command under way that its engine has performed without a
failure is gone and adds 1 to its counter, if it has one; one that its engine or another agent stops writes its event record, adds nothing and
is gone, but a STINV is never stopped; how much a command that another agent stops had written is free (notes/assumptions/7.md). A copy's elements
move in any order that gives the loop's result, each once, and other agents move between them (R251, R282); a pass works in the order of arrival,
reads LEN at its start, drops the unlocked table entries of the pages that its lease queries find in use and waits for those reads and adds, and an
STLD of such a page and the adds sent later wait for the pass (R136 to R138). What they write: a POOL of one bag the sums of its rows; an SFORK the
child's header and its shared page; STLD and STINV table entries and LEASES; a pass over one page the RETIRED bits, the header's count and its record. That the
other commands are performed in one step is the model's (notes/assumptions/13.md). -/
def Obligations.EngineCommandsCompleteOrFail : Prop :=
  (∀ (s : State) (c : Cmd) (id : Nat),
    let rows : List (Instr × Nat × Ran) := [(.copyCompletion id, 0, moveRest c s), (.copymCompletion id, 1, moveRest c s), (.cexpCompletion id, 2, moveRest c s),
      (.poolCompletion id, 4, runPool c s), (.sforkCompletion id, 5, runSfork c s), (.sretirePass id, 6, runSretire c s),
      (.stldCompletion id, 7, runStld c s), (.stinvCompletion id, 8, runStinv c s), (.ballastPass id, 9, runBallast c s),
      (.fputCompletion id, 10, runFput c s), (.fgetCompletion id, 11, runFget c s), (.offloadCompletion id, 14, runPaging c s),
      (.recallCompletion id, 15, runPaging c s)]
    ∀ r ∈ rows, s.underWay id r.2.1 = some c → (r.2.1 = 10 ∨ r.2.1 = 11 → s.laneStopped c 0 = false) →
      (r.2.1 = 7 → s.stldWaits c = false) →
      (r.2.1 = 6 ∨ r.2.1 = 9 → s.passTurn c = true ∧ s.passFinds c = [] ∧ s.passWaits c = false) →
      (r.2.1 = 14 → ∀ e, s.entryOf c.launch c.handle = some e →
        s.drainsInto (sliceAddr c.seat.tile (s.pageState e c.seat.tile (c.zf 0 0 32)).2) e.tileSize = false) →
      (∀ z n, r.2.2 = (z, n, none) → NoneFrozen z →
        (c.counter = 2 ^ 64 → gives r.1 s { z with cmds := z.cmds.filter fun d => d.id != c.id }) ∧
        (c.counter ≠ 2 ^ 64 → ∀ a, z.translate c.field c.asid c.counter true = some a → z.natAt a 8 + 1 < 2 ^ 64 →
          gives r.1 s { z.putNat a 8 (z.natAt a 8 + 1) with cmds := z.cmds.filter fun d => d.id != c.id })) ∧
      (∀ z n e, r.2.2 = (z, n, some e) → gives r.1 s (z.failCmd c e n))) ∧
  (∀ (s : State) (c : Cmd) (code : BitVec 8), s.cmds.find? (fun d => d.id == c.id && (d.phase == 2 || d.phase == 3)) = some c →
    (code.toNat ∉ failureCodes ∨ (∀ d ∈ s.cmds, d.id = c.id → d.op = 8) → gives (.engineFailure c.id code) s s) ∧
    (let e := stoppedBy s code.toNat
     e.code = code.toNat ∧ (code.toNat ∉ [0x06, 0x08, 0x0E] → e.addr = 0 ∧ e.detail = 0) ∧ (code.toNat = 0x06 → e.detail = e.addr % 2 ^ 32) ∧
       (code.toNat = 0x0E → e.detail = e.addr % 0x800000 / 64 * 64)) ∧
    (code.toNat ∈ failureCodes → c.op ∉ [8, 14, 15] → c.phase = 2 → let r := firstParts (Config.writtenBefore s.fresh) c { s with fresh := s.fresh + 1 }
      gives (.engineFailure c.id code) s (r.1.failCmd c (stoppedBy s code.toNat) r.2) ∧
      (c.op ∈ [7, 12] → r = ({ s with fresh := s.fresh + 1 }, 0)) ∧
      (c.op = 0 ∨ c.op = 1 → c.moved = [] → ∃ k, r = (let m := copyLoop c k 0 { s with fresh := s.fresh + 1 } 0; (m.1, m.2.1))))) ∧
  (∀ (s : State) (c : Cmd) (id op : Nat), (op = 6 ∨ op = 9) → s.underWay id op = some c →
    let i : Instr := if op = 6 then .sretirePass id else .ballastPass id
    let hs := s.passFinds c
    (s.passTurn c = false ∨ hs = [] ∧ s.passWaits c = true → gives i s s) ∧
    (s.passTurn c = true → hs ≠ [] → ∃ f : Cmd → Cmd, gives i s { s.mapCmd id f with
        stm := s.stm.filter fun e => !(e.asid == c.asid && e.hdr == c.zn 16 && (hs.map (·.page)).contains e.page) || e.lock } ∧
      ∀ d, (f d).leased = d.leased ++ hs.map (·.page) ∧ (∀ h ∈ hs, (∀ x ∈ h.cmds, x ∈ (f d).awaits) ∧ (∀ x ∈ h.pieces, x ∈ (f d).frames) ∧
        ∀ x ∈ h.adds, x ∈ (f d).adds) ∧ ∀ h, passHeader s c = .ok h → (f d).length = some h.len)) ∧
  (∀ (s : State) (c : Cmd) (h : SeqHeader) (n : Nat), passHeader s c = .ok h → c.length = some n → h.len = n) ∧
  (∀ (s : State) (m : MassAdd), (∃ c ∈ s.cmds, m ∉ c.adds ∧ ∃ p ∈ c.frames, p.1 ≤ m.addr ∧ m.addr < p.1 + p.2) ↔ s.massHeld m = true) ∧
  (∀ (s : State) (c : Cmd) (id : Nat), s.underWay id 7 = some c → s.stldWaits c = true → gives (.stldCompletion id) s s) ∧
  (∀ (s z : State) (c : Cmd) (k d : Nat), s.cmds.find? (fun x => x.id == c.id && decide (x.op ≤ 2) && x.phase == 2) = some c →
    (moveCount c ≤ k ∨ k ∈ c.moved ∨ s.mayMove c k = false → engineTurn c.id k s = .next s) ∧
    (k < moveCount c → k ∉ c.moved → s.mayMove c k = true → moveRun c 1 k s (movedBytes c) = (z, d, none) →
      engineTurn c.id k s = .next (z.mapCmd c.id fun x => { x with moved := x.moved ++ [k] })) ∧
    (c.op ≤ 1 → moveRun c 1 k s (movedBytes c) = copyLoop c 1 k s (c.moved.length * 2 ^ c.zf 4 0 2)) ∧
    (c.op ≤ 1 → c.moved = [] → moveRest c s = copyLoop c (copyCount c) 0 s 0)) ∧
  (∀ (s : State) (c : Cmd) (e : Fail) (n : Nat), NoneFrozen s → (s.failCmd c e n).cmds = s.cmds.filter fun d => d.id != c.id) ∧
  (∀ (s : State) (c : Cmd), (runStinv c s).1.stm = s.stm.filter fun e => !(e.tile == c.seat.tile && e.asid == c.asid && e.hdr == c.zn 16 &&
    decide (c.zf 17 0 32 ≤ e.page ∧ e.page < c.zf 17 0 32 + c.zf 17 32 10))) ∧
  (∀ (s : State) (c : Cmd) (a : Nat), s.memoryCanonical → s.translate c.field c.asid (c.zn 16) true = some a →
    (runStinv c s).1.natAt (a + 60) 2 = s.natAt (a + 60) 2 - (s.stm.filter fun e => e.tile == c.seat.tile && e.asid == c.asid && e.hdr == c.zn 16 &&
      decide (c.zf 17 0 32 ≤ e.page ∧ e.page < c.zf 17 0 32 + c.zf 17 32 10) && e.lock).length) ∧
  (∀ (s : State) (c : Cmd) (h : SeqHeader) (f : Nat → Nat),
    let p := c.zf 17 0 32
    let n := c.zf 17 32 10
    let lock := c.zf 17 63 1 == 1
    let of : StmEntry → Bool := fun e => e.tile == c.seat.tile && e.asid == c.asid && e.hdr == c.zn 16
    let old : Nat → Bool := fun k => match s.stm.find? fun e => of e && e.page == p + k with | some e => e.lock | none => false
    let others := s.stm.filter fun e => !(of e && decide (p ≤ e.page) && decide (e.page < p + n))
    s.memoryCanonical → headerAt s c lock (c.zn 16) = .ok h → c.zf 17 42 21 = 0 → 1 ≤ n → n ≤ 512 → h.remap = 0 →
    (∀ k < n, 256 * (p + k) < h.cap ∧ s.wordGlobal (fieldOf (homeTile h.addr)) c.asid (h.ptab + 8 * (p + k)) = some (4096 * f k + 1)) →
    (others.filter fun e => e.tile == c.seat.tile).length + n ≤ 512 →
    ∃ z, runStld c s = (z, 0, none) ∧
      z.stm = others ++ (List.range n).map (fun k => ⟨c.seat.tile, c.asid, c.zn 16, p + k, 4096 * f k, none, lock || old k, s.tick⟩) ∧
      z.natAt (h.addr + 60) 2 = (s.natAt (h.addr + 60) 2 + if lock then ((List.range n).filter fun k => !old k).length else 0) % 2 ^ 16 ∧
      ∀ b, b < h.addr + 60 ∨ h.addr + 62 ≤ b → memRead z.mem b = memRead s.mem b) ∧
  (∀ (s : State) (c : Cmd) (p q : SeqHeader), s.memoryCanonical → headerAt s c false (c.zn 16) = .ok p → headerAt s c true (c.zn 17) = .ok q →
    let K := c.zf 18 0 32
    let header : State → Prop := fun z => z.natAt q.addr 8 = K ∧ z.natAt (q.addr + 8) 8 = K ∧ z.natAt (q.addr + 40) 8 = c.zn 16 ∧
      z.natAt (q.addr + 48) 4 = K
    let outside : Nat → Prop := fun b => b < q.addr ∨ q.addr + 16 ≤ b ∧ b < q.addr + 40 ∨ q.addr + 52 ≤ b
    K ≤ p.len → K ≤ q.cap → p.psize = q.psize → q.len = 0 →
    (K = 0 → ∃ z, runSfork c s = (z, 0, none) ∧ header z ∧ ∀ b, outside b → memRead z.mem b = memRead s.mem b) ∧
    (∀ fr fa qa, K = 256 → s.pageFrame c.asid p 0 = some fr → s.frameAddr c.asid p 0 = some fa → s.translate c.field c.asid q.ptab true = some qa →
      apart fa 8 qa 8 → apart fa 8 q.addr 64 → apart qa 8 q.addr 64 → s.natAt fa 8 + 1 < 2 ^ 64 →
      ∃ z, runSfork c s = (z, 8, none) ∧ header z ∧ z.natAt qa 8 = fr + 1 ∧ z.natAt fa 8 = s.natAt fa 8 + 1 ∧
        ∀ b, outside b → (b < qa ∨ qa + 8 ≤ b) → (b < fa ∨ fa + 8 ≤ b) → memRead z.mem b = memRead s.mem b)) ∧
  (∀ (s : State) (c : Cmd) (h : SeqHeader) (p A : Nat), Quiet s → c.op = 6 ∨ c.op = 9 → passHeader s c = .ok h → passPageList c h = [p] →
    s.pagePlace c.asid h p = some (A, none) → c.leased = [] → s.natAt (A + 8) 8 = 0 → s.natAt A 8 ≤ 1 →
    (c.op = 9 → h.remap = 0 ∧ 256 * p < h.cap) → s.natAt (h.addr + 16) 8 + 256 < 2 ^ 64 →
    let B := 4160 + 256 * h.payload
    let R := c.zn 21
    A + B ≤ 0xC0000000 → h.addr + 64 ≤ 0xC0000000 → R + 64 ≤ 0xC0000000 → apart A B h.addr 64 → apart A B R 64 → apart h.addr 64 R 64 →
    let word : Nat → Nat := fun i => s.natAt (A + 72 + 16 * i) 8
    let which : Nat → Bool := fun i => retires c h (256 * p + i) (word i)
    let n := ((List.range 256).filter which).length
    ∃ z, (if c.op = 6 then runSretire c s else runBallast c s) = (z, 64, none) ∧
      (∀ i < 256, z.natAt (A + 72 + 16 * i) 8 = word i + if which i then 2 ^ 48 else 0) ∧
      z.natAt (h.addr + 16) 8 = s.natAt (h.addr + 16) 8 + n ∧ memReads z.mem R 64 = leBytes 8 1 ++ leBytes 8 n ++ List.replicate 48 0 ∧
      ∀ b, (∀ i < 256, b < A + 72 + 16 * i ∨ A + 80 + 16 * i ≤ b) → (b < h.addr + 16 ∨ h.addr + 24 ≤ b) → (b < R ∨ R + 64 ≤ b) →
        memRead z.mem b = memRead s.mem b) ∧
  (∀ (s : State) (c : Cmd) (te ie de be : Entry) (idx : List Nat) (rows : List (List Val)) (own a : Nat), Quiet s →
    s.entryOf c.launch (c.zf 8 0 6) = some te → s.entryOf c.launch (c.zf 8 6 6) = some ie → s.entryOf c.launch (c.zf 8 12 6) = some de →
    s.entryOf c.launch (c.zf 8 18 6) = some be → te.map = 1 → te.home % 512 = own → own < 384 →
    poolList s c ie (c.zf 8 32 32) (c.zf 9 0 32) = .ok idx → poolList s c be (c.zf 9 32 32) 0 = .ok [c.zf 8 32 32] → idx.length ≤ 64 →
    (∀ i ∈ idx, i < te.extRow) → poolRows s c te (c.zf 10 32 32) idx = .ok rows → s.localElem true de c.seat.tile (c.zf 10 0 32) 0 = some a →
    a + 256 ≤ 0xC0000000 →
    let m := min 64 de.extCol
    let column : Nat → List Val := fun j => rows.map fun r => r.getD j (.num false 0 0)
    let sum : Nat → Nat := fun j => if te.fmt = 1 then (BitVec.ofInt 32 (max (-2 ^ 31) (min (2 ^ 31 - 1) ((column j).map (unitsOf 0)).sum))).toNat
      else windowOf false (val32 0 :: column j)
    ∃ z, runPool c s = (z, 4 * m, none) ∧ Wrote s z a (4 * m) fun k => BitVec.ofNat 8 (sum (k / 4) / 256 ^ (k % 4))) ∧
  (∀ (s z : State) (c : Cmd) (e : Entry), s.entryOf c.launch c.handle = some e → c.phase = 2 →
    let own := c.seat.tile
    let k := c.zf 0 0 32
    let from_ := (s.pageState e own k).2
    (c.op = 14 → s.copyRange c.field c.asid true (own * 0x800000 + from_) (c.zn 1) e.tileSize = (z, none) →
      runPaging c s = (z.putNat (own * 0x800000 + (e.base + 8 * k)) 8 (c.zn 1 + 2), e.tileSize, none)) ∧
    (c.op = 15 → s.copyRange c.field c.asid true from_ (c.zn 1) e.tileSize = (z, none) →
      runPaging c s = (z.putNat (own * 0x800000 + (e.base + 8 * k)) 8 (c.zn 1 % 0x800000), e.tileSize, none)))

/-- A packed COPY (R250, R251) from one range of the slices to another that it does not meet moves every byte and changes no other, with no sequence
about whose slots it would have to leave alone (R106). So does a packed COPYM to the same place of every tile that its mask selects (R252); a CEXP of
one frame whose offsets agree with its bitmaps writes the tile that it holds, row-major (R77, R253); an FPUT and an FGET between ranges of
this device write what was read and add 1 to RCTR, if they have one (R258). -/
def Obligations.CopyMovesItsElements : Prop :=
  (∀ (s : State) (c : Cmd), c.op = 0 → c.zf 4 2 1 = 0 → c.zn 3 = 0 → c.zn 5 = 0 → s.memoryCanonical → s.poison = [] →
    (∀ a < 0xC0000000, s.reachable a = true) → s.knownSequences = [] →
    let n := 2 ^ c.zf 4 0 2 * (c.zf 2 0 32 * c.zf 2 32 32)
    c.zn 0 + n ≤ 0xC0000000 → c.zn 1 + n ≤ 0xC0000000 → c.zn 0 + n ≤ c.zn 1 ∨ c.zn 1 + n ≤ c.zn 0 → c.zf 6 0 64 = 0 → c.zf 7 0 64 = 0 →
    ∃ z, copyLoop c (copyCount c) 0 s 0 = (z, n, none) ∧ z.memoryCanonical ∧
      (∀ k < n, memRead z.mem (c.zn 1 + k) = memRead s.mem (c.zn 0 + k)) ∧
      (∀ a, a < c.zn 1 ∨ c.zn 1 + n ≤ a → memRead z.mem a = memRead s.mem a) ∧ z.seats = s.seats ∧ z.cmds = s.cmds) ∧
  (∀ (s : State) (c : Cmd), Quiet s → c.op = 1 → c.moved = [] → c.zf 4 2 1 = 0 → c.zn 3 = 0 → c.zn 5 = 0 → copymMaskOk c = true →
    let n := 2 ^ c.zf 4 0 2 * (c.zf 2 0 32 * c.zf 2 32 32)
    let o := c.zn 1 % 0x800000
    let T := c.zn 1 / 0x800000
    let mask : BitVec 16 := BitVec.ofNat 16 (c.zf 4 16 16)
    let dest : Nat → Nat := fun b => tileAt (tileX T + b % 4) (tileY T + b / 4) * 0x800000 + o
    T < 384 → o + n ≤ 0x800000 → c.zn 0 + n ≤ 0xC0000000 → (∀ b < 16, mask.getLsbD b = true → apart (c.zn 0) n (dest b) n) →
    ∃ z d, moveRest c s = (z, d, none) ∧ z = { s with mem := z.mem } ∧ z.memoryCanonical ∧
      (∀ b < 16, mask.getLsbD b = true → ∀ k < n, memRead z.mem (dest b + k) = memRead s.mem (c.zn 0 + k)) ∧
      ∀ x, (∀ b < 16, mask.getLsbD b = true → x < dest b ∨ dest b + n ≤ x) → memRead z.mem x = memRead s.mem x) ∧
  (∀ (s : State) (c : Cmd), Quiet s → c.op = 2 → c.moved = [] → c.zf 2 0 32 = 1 →
    let f := c.zf 4 4 4
    let w := if f = 1 then 1 else if f = 2 ∨ f = 5 ∨ f = 6 then 2 else 4
    let d := c.zf 3 0 32
    let frame : Nat → Byte := fun k => if k < d then memRead s.mem (c.zn 0 + k) else 0
    1 ≤ f → f ≤ 7 → d < 2 ^ 31 → 32 ≤ d → frameAgrees frame w → rowStart frame w 15 4 ≤ d → c.zn 0 + d ≤ 0xC0000000 →
    c.zn 1 + 4096 * w ≤ 0xC0000000 → ∃ z, moveRest c s = (z, 4096 * w, none) ∧
      Wrote s z (c.zn 1) (4096 * w) fun k => BitVec.ofNat 8 (bmzElement frame f w (k / w / 64) (k / w % 64) / 256 ^ (k % w))) ∧
  (∀ (s : State) (c : Cmd), Quiet s → fabricFail s c = none → c.zf 26 0 9 = s.fabric.self →
    let n := c.zf 26 32 32
    let r := c.zn 27
    c.zn 24 + n ≤ 0xC0000000 → c.zn 25 + n ≤ 0xC0000000 →
    (∃ z, Wrote s z (c.zn 25) n (fun k => memRead s.mem (c.zn 24 + k)) ∧ (r = 0 → runFput c s = (z, n, none)) ∧
      ∀ a, r ≠ 0 → z.translate c.field c.asid r true = some a → z.natAt a 8 + 1 < 2 ^ 64 → runFput c s = (z.putNat a 8 (z.natAt a 8 + 1), n, none)) ∧
    (∀ y, (r = 0 ∧ y = s ∨ r ≠ 0 ∧ ∃ a, s.translate c.field c.asid r true = some a ∧ s.natAt a 8 + 1 < 2 ^ 64 ∧ y = s.putNat a 8 (s.natAt a 8 + 1)) →
      ∃ z, runFget c s = (z, n, none) ∧ Wrote y z (c.zn 24) n fun k => memRead s.mem (c.zn 25 + k)))

/-- What an input i that brings window q's open round to its count does (R259), y being the state before the round's effect and cs its contributions:
the result stands at START, all else in memory as before, and then 1 is added to the counter of the lowest port that names one. -/
def Spec.roundCloses (i : Instr) (s y : State) (q : Nat) (cs : List Contribution) : Prop :=
  let start := (s.redWord q 0).toNat
  let n := s.redField q 1 0 32
  let bs := reduceBytes (s.redField q 2 32 4) n cs
  let w := y.writePhys start bs
  let closed : State → State := fun z => { z with
    cmds := z.cmds.map fun (d : Cmd) => if cs.any (fun c => c.cmd == some d.id) then { d with phase := 4 } else d }.putRound q
      { s.round q with contribs := [] }
  (∀ k < n, memRead w.mem (start + k) = bs[k]?.getD 0) ∧ (∀ a, a < start ∨ start + n ≤ a → memRead w.mem a = memRead s.mem a) ∧
  match ((byPort cs).map (·.rctr)).find? (· != 0) with
  | none => exec i s = .next (closed w)
  | some a => ∀ x, w.translate 0 (s.redField q 2 48 16) a true = some x → w.natAt x 8 + 1 < 2 ^ 64 →
    exec i s = .next (closed (w.putNat x 8 (w.natAt x 8 + 1)))

/-- Reduction rounds (R259, R334): a contribution, of another device or of a command of this one, joins the open round of its window; when the count
has arrived the elements are added in ascending source-port order and written at START, and then 1 is added to the counter of the lowest port that names
one, the model's choice (notes/assumptions/49.md), a free one for another device's (notes/assumptions/7.md), the round is empty again and its own
commands wait for their acknowledgement; a timed-out round is abandoned and its own contributions fail with 0x26; an acknowledged
configuration goes live; a contributor whose round has closed completes. The two worked rows of R259 come out as it states. -/
def Obligations.ReductionRounds : Prop :=
  (∀ (s : State) (q port : Nat) (data : List (BitVec 8)), let r := s.round q
    let count := s.redField q 2 16 10
    let n := s.redField q 1 0 32
    let cs := r.contribs ++ [⟨port, none, Config.contributorCounter s.fresh, data⟩]
    q < 32 → port < 512 → r.live = true → port ≠ s.fabric.self → data.length = n → (∀ c ∈ r.contribs, c.port ≠ port) →
    (r.contribs.length + 1 < count →
      gives (.fredContribution q port none data) s ({ s with fresh := s.fresh + 1 }.putRound q { r with contribs := cs })) ∧
    (r.contribs.length + 1 = count → r.waiting = [] → s.memoryCanonical → n % 4 = 0 → s.knownSequences = [] →
      (s.redWord q 0).toNat + n ≤ 0xC0000000 → (∀ a < 0xC0000000, s.reachable a = true) →
      Spec.roundCloses (.fredContribution q port none data) s { s with fresh := s.fresh + 1 } q cs)) ∧
  (∀ (s : State) (q : Nat) (c : Cmd) (data bs : List Byte), let r := s.round q
    q < 32 → s.underWay c.id 12 = some c → s.laneStopped c 2 = false → fabricFail s c = none → c.zf 26 0 9 = s.fabric.self →
    s.redMatches q c = true → s.engRead c.field c.asid (c.zn 24) (c.zf 26 32 32) = .ok bs → r.waiting = [] →
    (∀ d ∈ r.contribs, d.cmd ≠ some c.id ∧ d.port ≠ s.fabric.self) →
    let cs := r.contribs ++ [⟨s.fabric.self, some c.id, c.zn 27, bs⟩]
    let i := Instr.fredContribution q s.fabric.self (some c.id) data
    (cs.length < s.redField q 2 16 10 → gives i s (s.putRound q { r with contribs := cs })) ∧
    (cs.length = s.redField q 2 16 10 → s.memoryCanonical → s.redField q 1 0 32 % 4 = 0 → s.knownSequences = [] →
      (s.redWord q 0).toNat + s.redField q 1 0 32 ≤ 0xC0000000 → (∀ a < 0xC0000000, s.reachable a = true) → Spec.roundCloses i s s q cs)) ∧
  (∀ (s : State) (q : Nat), let r := s.round q
    (q < 32 → r.waiting = [] → (∀ c ∈ r.contribs, c.cmd = none) → r.contribs ≠ [] → s.redField q 1 32 32 ≠ 0 →
      gives (.reductionRoundTimeout q) s (s.putRound q { r with contribs := [] })) ∧
    (∀ x id c, q < 32 → r.waiting = [] → r.contribs = [x] → x.cmd = some id → s.cmds.find? (fun d => d.id == id) = some c →
      s.redField q 1 32 32 ≠ 0 → gives (.reductionRoundTimeout q) s ((s.failCmd c ⟨0x26, 0, 0⟩ 0).putRound q { r with contribs := [] })) ∧
    (r.contribs = [] ∨ s.redField q 1 32 32 = 0 → gives (.reductionRoundTimeout q) s s) ∧
    ((s.redReg q 3).getLsbD 63 = true → s.linkStopped (linkOf (s.redReg q 0).toNat) 3 = false →
      gives (.reductionWindowAck q) s (s.putRound q { r with live := true })) ∧
    ((s.redReg q 3).getLsbD 63 = false ∨ s.linkStopped (linkOf (s.redReg q 0).toNat) 3 = true → gives (.reductionWindowAck q) s s)) ∧
  (∀ (s : State) (c : Cmd), s.cmds.find? (fun d => d.id == c.id && d.op == 12) = some c → c.phase = 4 → NoneFrozen s →
    (c.counter = 2 ^ 64 → gives (.fredAcknowledge c.id) s { s with cmds := s.cmds.filter fun d => d.id != c.id }) ∧
    (c.counter ≠ 2 ^ 64 → ∀ a, s.translate c.field c.asid c.counter true = some a → s.natAt a 8 + 1 < 2 ^ 64 →
      gives (.fredAcknowledge c.id) s { s.putNat a 8 (s.natAt a 8 + 1) with cmds := s.cmds.filter fun d => d.id != c.id })) ∧
  (let one := leBytes 4 0x3F800000
   let big := leBytes 4 0x4B800000
   reduceBytes 7 4 [⟨30, none, 0, big⟩, ⟨4, none, 0, one⟩, ⟨17, none, 0, one⟩] = leBytes 4 0x4B800001 ∧
   reduceBytes 7 4 [⟨30, none, 0, one⟩, ⟨17, none, 0, one⟩, ⟨4, none, 0, big⟩] = leBytes 4 0x4B800000)

/-! ### Stamps, noise, islands, caches and links -/

/-- Stamped words (R118, R120): a retired word is dropped with TB; an add not older than the word's stamp decays the word to now and adds;
an older one decays the addend to the stamp; bits [63:48] are kept. What a word reads as does not depend on the sweep: a word swept at
boundary b reads, then and later, as it would have unswept. -/
def Obligations.StampedWordsAddAndSweep : Prop :=
  (∀ (v g f now st hi : Nat), v < 2 ^ 32 → st < 2 ^ 16 → hi < 2 ^ 16 →
    let w := v + st * 2 ^ 32 + hi * 2 ^ 48
    let d := (now + 2 ^ 16 - st) % 2 ^ 16
    (hi % 2 = 1 → stampedAdd w g f now = (w, flTB)) ∧
    (hi % 2 = 0 → d < 2 ^ 15 → (stampedAdd w g f now).1 = (add32f (readStamped f v st now).1 g).1 + now % 2 ^ 16 * 2 ^ 32 + hi * 2 ^ 48) ∧
    (hi % 2 = 0 → 2 ^ 15 ≤ d → (stampedAdd w g f now).1 = (add32f v (mul32 g (pow32 f (2 ^ 16 - d))).1).1 + st * 2 ^ 32 + hi * 2 ^ 48)) ∧
  (∀ (v f t b now later hi : Nat), v < 2 ^ 32 → f ≤ 0x3F800000 → hi < 2 ^ 16 → b % 2 ^ 14 = 0 → b ≤ now → t ≤ now → now ≤ later → later < t + 2 ^ 16 →
    let w := sweepWord f b now (v + t % 2 ^ 16 * 2 ^ 32 + hi * 2 ^ 48)
    (readStamped f (w % 2 ^ 32) (w / 2 ^ 32 % 2 ^ 16) later).1 = (readStamped f v (t % 2 ^ 16) later).1 ∧ w / 2 ^ 48 = hi)

/-- Steps of the stamp units, noise sources, islands and translation caches (R79, R118, R326, R327, R338, R359, R360): a sweep counts its boundary
once the step has reached it, and rebases every stamped word of the identifier's live launches, here of one local stamped tensor on one tile; a noise block that passes deals words to the field's seats, and the 16th failure in a row
disables the source; an estimate sets IEST, clears the placed draws, adds its microsecond's energy in whole millijoules (that each microsecond is
truncated is the model's reading, notes/assumptions/47.md) and stretches the clock above ICAP; a relock ends; the
caches drop an identifier's entries and GENDONE rises to GEN; a corrected word is counted, and an input that is a double-bit error (R343) poisons its
word and counts it (notes/assumptions/53.md); a word of the tier is counted by no field. That a block deals one word to each seat is the
model's (notes/assumptions/14.md). -/
def Obligations.UnitsOfAFieldStep : Prop :=
  (∀ (s : State) (asid : BitVec 16), let n := asid.toNat
    let k := (assocFind n s.swept).getD 0
    let y := { s with swept := assocPut n (k + 1) s.swept }
    ((k + 1) * 2 ^ 14 ≤ s.stepOf n → s.launches = [] → gives (.stampSweep asid) s y) ∧
    (∀ l h e τ, (k + 1) * 2 ^ 14 ≤ s.stepOf n → s.memoryCanonical → s.liveEntries n = [(l, h, e)] → e.kind = 2 → e.map = 0 → e.rank = 2 →
      e.pageable = false → h ≠ 0 → l.tiles = [τ] →
      let at_ : Nat → Nat → Nat := fun r c => τ * 0x800000 + (e.base + (r / 64 * ((e.ext 1 + 63) / 64) + c / 64) * 32768 + 8 * (64 * (r % 64) + c % 64))
      ∃ t, gives (.stampSweep asid) s t ∧ t.swept = y.swept ∧
        (∀ r c, r < e.ext 0 → c < e.ext 1 → t.natAt (at_ r c) 8 = sweepWord e.decay ((k + 1) * 2 ^ 14) (s.stepOf n) (s.natAt (at_ r c) 8)) ∧
        ∀ b, (∀ r c, r < e.ext 0 → c < e.ext 1 → b < at_ r c ∨ at_ r c + 8 ≤ b) → memRead t.mem b = memRead s.mem b) ∧
    (s.stepOf n < (k + 1) * 2 ^ 14 → gives (.stampSweep asid) s s)) ∧
  (∀ (s : State) (f : Nat) (d : Field), s.fields[f]? = some d →
    let put : Field → State := fun e => { s with fields := s.fields.setIfInBounds f e }
    (d.phase = .up → d.noiseOff = false →
      gives (.saffronBlock f false) s (put { d with noiseFails := d.noiseFails + 1, noiseOff := decide (16 ≤ d.noiseFails + 1) }) ∧
      ∃ t, gives (.saffronBlock f true) s t ∧ t.fields[f]? = some { d with noiseFails := 0 } ∧
        ∀ k, 128 * f ≤ k → k < 128 * f + 128 → ∃ w, assocFind k t.streams = some ((assocFind k s.streams).getD [] ++ [w])) ∧
    (d.noiseOff = true → ∀ b, gives (.saffronBlock f b) s s) ∧
    (∀ a : BitVec 16, d.phase = .up → gives (.iestUpdate f a) s (put { d with
      iest := a.toNat, placed := 0, energy := d.energy + 7 * a.toNat / 10000, stretch := decide (d.icap < a.toNat) })) ∧
    gives (.pllRelockDone f) s (put { d with relock := false }) ∧
    (∀ a, errorField a = some f → gives (.eccWriteback a) s (put { d with corr := min (d.corr + 1) (2 ^ 32 - 1) }))) ∧
  (∀ (s : State) (asid : BitVec 16), let n := asid.toNat
    (s.idRecord n 6 < s.idRecord n 5 → gives (.generationPurgeDone asid) s
      ({ s with xlat := s.xlat.filter fun e => e.asid != n }.putNat (idWord n 6) 8 (s.idRecord n 5))) ∧
    (s.idRecord n 5 ≤ s.idRecord n 6 → gives (.generationPurgeDone asid) s s)) ∧
  (∀ (s : State) (e : SoftError) (rest : List Input) (f : Nat) (d : Field), s.inputs = .error e :: rest → s.fields[f]? = some d →
    let counted := s.fields.setIfInBounds f { d with uncorr := min (d.uncorr + 1) 65535 }
    (∀ a, e = .memory a → targetOf a ≠ 2 → a / 8 ∉ s.poison → errorField a = some f → ∃ t, step s = .next t ∧ t.mem = s.mem ∧ t.fields = counted ∧
      ∀ w, w ∈ t.poison ↔ w = a / 8 ∨ w ∈ s.poison) ∧
    (∀ a, e = .memory a → targetOf a ≠ 2 → a / 8 ∉ s.poison → errorField a = none → ∃ t, step s = .next t ∧ t.mem = s.mem ∧ t.fields = s.fields ∧
      ∀ w, w ∈ t.poison ↔ w = a / 8 ∨ w ∈ s.poison) ∧
    (∀ tile a, e = .code tile a → tile < 384 → (tile, a / 8 * 8) ∉ s.codePoison → tile / 64 = f → ∃ t, step s = .next t ∧ t.mem = s.mem ∧
      t.fields = counted ∧ t.codePoison = (tile, a / 8 * 8) :: s.codePoison))

/-- Bridle links (R333, R334): XOFF stops a lane and XON starts it; a replay that works clears the count, and the eighth that fails takes the link
down with its FLFAIL bit; training ends with the link up, while its field is (R352), or with its FLFAIL bit. -/
def Obligations.BridleLinks : Prop :=
  ∀ (s : State) (l : Nat) (k : Link), l < 36 → s.fabric.links[l]? = some k →
    let put : Link → State := fun m => { s with fabric := { s.fabric with links := s.fabric.links.setIfInBounds l m } }
    (∀ n < 4, (∃ m, gives (.bridleXoff l n) s (put m) ∧ m.replays = k.replays ∧ m.training = k.training ∧
        ∀ i < 4, m.xoff.getLsbD i = (k.xoff.getLsbD i || decide (i = n))) ∧
      ∃ m, gives (.bridleXon l n) s (put m) ∧ m.replays = k.replays ∧ m.training = k.training ∧
        ∀ i < 4, m.xoff.getLsbD i = (k.xoff.getLsbD i && decide (i ≠ n))) ∧
    (s.fabric.up.getLsbD l = true → gives (.bridleReplayRequest l true) s (put { k with replays := 0 }) ∧
      (k.replays < 7 → gives (.bridleReplayRequest l false) s (put { k with replays := k.replays + 1 })) ∧
      (7 ≤ k.replays → (∀ c ∈ s.cmds, c.onLink l = false) → ∃ t, gives (.bridleReplayRequest l false) s t ∧ t.cmds = s.cmds ∧
        t.fabric.links[l]? = some { k with replays := 0 } ∧
        ∀ i < 36, t.fabric.up.getLsbD i = (s.fabric.up.getLsbD i && decide (i ≠ l)) ∧
          t.fabric.failed.getLsbD i = (s.fabric.failed.getLsbD i || decide (i = l)))) ∧
    (s.fabric.up.getLsbD l = false → ∀ b, gives (.bridleReplayRequest l b) s s) ∧
    (k.training = true → (s.fieldUp (l / 6) = true → ∃ t, gives (.linkTrainingDone l) s t ∧ t.fabric.links[l]? = some ⟨0, 0, false⟩ ∧ t.fabric.failed = s.fabric.failed ∧
        ∀ i < 36, t.fabric.up.getLsbD i = (s.fabric.up.getLsbD i || decide (i = l))) ∧
      ∃ t, gives (.linkTrainingTimeout l) s t ∧ t.fabric.links[l]? = some { k with training := false } ∧ t.fabric.up = s.fabric.up ∧
        ∀ i < 36, t.fabric.failed.getLsbD i = (s.fabric.failed.getLsbD i || decide (i = l))) ∧
    (s.fieldUp (l / 6) = false → gives (.linkTrainingDone l) s s) ∧
    (k.training = false → gives (.linkTrainingDone l) s s ∧ gives (.linkTrainingTimeout l) s s)

/-! ### The host -/

/-- The port semaphore, the islands and the plain registers (R318 to R320, R322, R325 to R327): a port takes a free semaphore, keeps or
releases its own, clears ERR bits, and loses it with its link; a guarded write from a port that does not own it changes nothing but that
port's ERR bit; ICAP and FREQ are judged separately; GQUANT and W2BASE ignore values out of range; an unlisted offset is ignored. That a staging
register holds every bit written, reserved ones too (notes/assumptions/84.md), and that an island write that sets ERR does not clear it
(notes/assumptions/96.md), are the model's choices. A part whose
Keel is fenced presents the semaphore and the FW window only, so every other request does nothing (R349, notes/assumptions/73.md). -/
def Obligations.PortsAndIslands : Prop :=
  ∀ (s : State) (p : Nat) (v : BitVec 64) (o : Port), p < 2 → s.ports[p]? = some o →
    let put : Port → State := fun x => { s with ports := s.ports.setIfInBounds p x }
    let ignored := { s with semErr := s.semErr ||| (1#2 <<< p) }
    let owner := (bitsAt v 0 2).toNat
    let cleared := s.semErr &&& ~~~(bitsAt v 2 2)
    (s.semOwner = 0 → owner = p + 1 → gives (.portsemWrite p v) s { s with semOwner := p + 1, semErr := cleared }) ∧
    (s.semOwner = p + 1 → owner = 0 → gives (.portsemWrite p v) s { s with semOwner := 0, semErr := cleared }) ∧
    (¬ (s.semOwner = 0 ∧ owner = p + 1) → ¬ (s.semOwner = p + 1 ∧ owner = 0) → gives (.portsemWrite p v) s { s with semErr := cleared }) ∧
    (s.semOwner = p + 1 → gives (.portLinkDown p) s { put { o with up := false } with semOwner := 0 }) ∧
    (s.semOwner ≠ p + 1 → gives (.portLinkDown p) s (put { o with up := false })) ∧
    (s.semOwner ≠ p + 1 → gives (.fwcmdFetchVerify p) s ignored ∧ gives (.fwcmdWriteFlash p) s ignored ∧
      ∀ off, 0x1000 ≤ off → off < 0x2000 → off % 8 = 0 → gives (.registerWrite p off v) s ignored) ∧
    (s.fenced 0 = true → (∀ f, gives (.islandWrite p f v) s s) ∧ gives (.drawWrite p v) s s ∧ gives (.fselfWrite p v) s s ∧
      gives (.fretrainWrite p v) s s ∧ gives (.w2baseWrite p v) s s ∧ gives (.qgoRegister p) s s ∧ gives (.qgoRetire p) s s ∧
      gives (.qgoInvalid p) s s ∧ gives (.qappReserve p v) s s ∧ gives (.qappCommit p v) s s ∧ gives (.wgoArm p) s s ∧
      (∀ a, gives (.migrQuiesce p a) s s ∧ gives (.migrRelease p a) s s ∧ gives (.cxlCacheSnoop v.toNat) s s ∧
        ∀ op, gives (.fabricPortRequest a v op) s s) ∧
      (∀ w, gives (.fredWindowSet p w v) s s ∧ gives (.fredWindowClear p w v) s s) ∧
      (∀ off w, gives (.bar2Access p off w) s s ∧ gives (.hdmAccess p off w) s s) ∧
      ∀ off, off < 0x1000 ∨ 0x2000 ≤ off → gives (.registerWrite p off v) s s) ∧
    (s.fenced 0 = false →
    (s.semOwner ≠ p + 1 → (∀ f, gives (.islandWrite p f v) s ignored) ∧ gives (.drawWrite p v) s ignored ∧ gives (.fselfWrite p v) s ignored ∧
      gives (.fretrainWrite p v) s ignored ∧
      (∀ a, gives (.migrQuiesce p a) s ignored ∧ gives (.migrRelease p a) s ignored) ∧
      (∀ w, gives (.fredWindowSet p w v) s ignored ∧ gives (.fredWindowClear p w v) s ignored) ∧
      ∀ off, 0x2000 ≤ off → off < 0x3000 → off % 8 = 0 → gives (.registerWrite p off v) s ignored) ∧
    (s.semOwner = p + 1 → gives (.drawWrite p v) s { s with drawA := v } ∧ ∀ (f : Nat) (d : Field), s.fields[f]? = some d →
      let c := (bitsAt v 48 16).toNat
      let q := (bitsAt v 16 16).toNat
      let okC : Prop := 100 ≤ c ∧ c ≤ 1600
      let okF : Prop := 800 ≤ q ∧ q ≤ 3300 ∧ q % 25 = 0
      ∃ t e, gives (.islandWrite p f v) s t ∧ t = { s with fields := s.fields.setIfInBounds f e } ∧ e.iest = d.iest ∧ e.ready = d.ready ∧
        e.phase = d.phase ∧ (okC → e.icap = c) ∧ (¬ okC → e.icap = d.icap) ∧ (okF → e.freq = q ∧ e.relock = true) ∧
        (¬ okF → e.freq = d.freq ∧ e.relock = d.relock) ∧ (¬ (okC ∧ okF) → e.err = true) ∧
        (okC → okF → e.err = (d.err && !v.getLsbD 0)) ∧ (e.stretch = true ↔ e.icap < d.iest)) ∧
    (v.toNat < 48 → gives (.w2baseWrite p v) s (put { o with w2base := v.toNat })) ∧ (48 ≤ v.toNat → gives (.w2baseWrite p v) s s) ∧
    (let g := (bitsAt v 0 32).toNat
     (100 ≤ g → g ≤ 1000000 → gives (.registerWrite p 0x0088 v) s { s with gquant := g }) ∧
     (¬ (100 ≤ g ∧ g ≤ 1000000) → gives (.registerWrite p 0x0088 v) s s)) ∧
    (∀ k : Fin 4, gives (.registerWrite p (0x0100 + 8 * k.val) v) s (put { o with qreg := o.qreg.setIfInBounds k.val v })) ∧
    (∀ k : Fin 3, gives (.registerWrite p (0x0200 + 8 * k.val) v) s (put { o with wstage := o.wstage.setIfInBounds k.val v })) ∧
    gives (.registerWrite p 0x0220 v) s (put { o with wign := o.wign && !v.getLsbD 16, wlost := o.wlost && !v.getLsbD 17 }) ∧
    (∀ off, off % 8 ≠ 0 ∨ 0x4000 ≤ off ∨ (0x0400 ≤ off ∧ off < 0x1000) ∨ (0x0018 ≤ off ∧ off < 0x0040) ∨ (0x0098 ≤ off ∧ off < 0x0100) → gives (.registerWrite p off v) s s))

/-- Accesses from outside (R258, R317, R320, R324, R353): BAR2 and, where system software has enabled it on the port, HDM reach device main memory,
eight bytes on a read; a fenced field's part reads
all ones, drops writes and reports a completer abort; a snoop answers with its line; another device's request reads, writes or adds here while the response lane, on which every answer travels, runs (R333). That
memory has one copy of a line and a read gives eight bytes is the model's (notes/assumptions/6.md). What a part whose Keel is fenced does with these
requests PortsAndIslands says. -/
def Obligations.OutsideAccesses : Prop :=
  (∀ (s : State) (p off : Nat) (o : Port) (bs : List (BitVec 8)), s.ports[p]? = some o → s.fenced 0 = false →
    let at_ : Nat → Nat := fun x => 2 ^ 60 + x
    let x := o.w2base * 2 ^ 36 + off
    let aborted : Option (List Byte) → State := fun r => { s with aer := s.aer ++ [p], result := r }
    (off < 2 ^ 36 → (s.reachable (at_ x) = true →
        gives (.bar2Access p off none) s { s with result := some (memReads s.mem (at_ x) 8) } ∧
        gives (.bar2Access p off (some bs)) s { s.writePhys (at_ x) bs with result := none }) ∧
      (s.reachable (at_ x) = false → gives (.bar2Access p off none) s (aborted (some (List.replicate 8 0xFF))) ∧
        gives (.bar2Access p off (some bs)) s (aborted none))) ∧
    (o.hdm = false → ∀ w, gives (.hdmAccess p off w) s s) ∧
    (o.hdm = true → off < 6 * 2 ^ 39 → (s.reachable (at_ off) = true →
        gives (.hdmAccess p off none) s { s with result := some (memReads s.mem (at_ off) 8) } ∧
        gives (.hdmAccess p off (some bs)) s { s.writePhys (at_ off) bs with result := none }) ∧
      (s.reachable (at_ off) = false → gives (.hdmAccess p off none) s (aborted (some (List.replicate 8 0xFF))))) ∧
    (∀ a, gives (.cxlCacheSnoop a) s { s with result := some (memReads s.mem (3 * 2 ^ 60 + a / 64 * 64) 64) })) ∧
  (∀ (s : State) (asid : BitVec 16) (addr : BitVec 64), let n := asid.toNat
    let a := addr.toNat
    s.fenced 0 = false →
    (∀ k, s.lanesStopped a k 1 = true → gives (.fabricPortRequest asid addr (.read k)) s s) ∧
    (∀ bs, s.lanesStopped a bs.length 1 = true → gives (.fabricPortRequest asid addr (.write bs)) s s) ∧
    (s.lanesStopped a 8 1 = true → gives (.fabricPortRequest asid addr .add) s s) ∧
    (∀ k bs, s.lanesStopped a k 1 = false → s.engRead 0 n a k = .ok bs → gives (.fabricPortRequest asid addr (.read k)) s { s with result := some bs }) ∧
    (∀ k e, s.lanesStopped a k 1 = false → s.engRead 0 n a k = .error e → gives (.fabricPortRequest asid addr (.read k)) s { s with result := none }) ∧
    (∀ bs z, s.lanesStopped a bs.length 1 = false → s.engWrite 0 n a bs = (z, none) → gives (.fabricPortRequest asid addr (.write bs)) s { z with result := some [] }) ∧
    (s.lanesStopped a 8 1 = false → s.translate 0 n a true = none → gives (.fabricPortRequest asid addr .add) s { s with result := none }) ∧
    (∀ x, s.lanesStopped a 8 1 = false → s.translate 0 n a true = some x → s.natAt x 8 + 1 < 2 ^ 64 →
      gives (.fabricPortRequest asid addr .add) s { s.putNat x 8 (s.natAt x 8 + 1) with result := some [] }))

/-- Queues and host watches (R322, R323, R325): a registration puts its queue in its field at CONS = LEN and reports it; a refused one, a retire
of a queue that is not registered and an invalid QGO change QSTAT only; QAPPR holds the start, 0, or the refusal's value, which an invalid header gives too (notes/assumptions/69.md); a watch is armed or
waits for an entry, is armed when one frees, and fires once. A watch's address is translated for identifier 0, the model's choice
(notes/assumptions/15.md). What a part whose Keel is fenced does with these requests PortsAndIslands says. -/
def Obligations.QueuesAndWatches : Prop :=
  ∀ (s : State) (p : Nat) (v : BitVec 64) (o : Port), p < 2 → s.ports[p]? = some o → s.fenced 0 = false →
    let asid := (bitsAt (o.qreg[2]) 0 16).toNat
    let num := (bitsAt (o.qreg[2]) 16 4).toNat
    let fld := (bitsAt (o.qreg[2]) 20 3).toNat
    let status : State → Nat → Nat → State := fun y cons why => { y with
      ports := y.ports.setIfInBounds p { o with qstat := BitVec.ofNat 64 (cons * 2 ^ 32 + why * 2 ^ 8 + (if why = 0 then 0 else 1)) } }
    let cons := match s.findQueue asid num with | some (_, u) => u.cons | none => 0
    let append : State → Word → State := fun y r => { y with ports := y.ports.setIfInBounds p { o with qappr := r } }
    (∀ h, s.registerWhy o = 0 → s.headerOk asid (o.qreg[0]).toNat true = some h → ∃ t d, gives (.qgoRegister p) s t ∧
      t.ports = (status s h.len 0).ports ∧ t.fields[fld]? = some d ∧ (⟨asid, num, (o.qreg[0]).toNat,
        (o.qreg[1]).toNat, h.len, (bitsAt (o.qreg[2]) 32 32).toNat, (bitsAt (o.qreg[2]) 24 8).toNat⟩ : Queue) ∈ d.queues) ∧
    (s.registerWhy o ≠ 0 → gives (.qgoRegister p) s (status s cons (s.registerWhy o))) ∧
    (∀ f u, s.findQueue asid num = some (f, u) → ∃ t, gives (.qgoRetire p) s t ∧ t.ports = (status s u.cons 0).ports ∧
      ∀ d ∈ t.fields.toList, ∀ w ∈ d.queues, ¬ (w.asid = asid ∧ w.number = num)) ∧
    (s.findQueue asid num = none → gives (.qgoRetire p) s (status s 0 7)) ∧ gives (.qgoInvalid p) s (status s cons 6) ∧
    (s.appendHeader v = none → gives (.qappReserve p v) s (append s 0xFFFFFFFFFFFFFFFD) ∧ gives (.qappCommit p v) s (append s 0xFFFFFFFFFFFFFFFD)) ∧
    (bitsAt v 20 11 ≠ 0 ∨ s.findQueue (bitsAt v 0 16).toNat (bitsAt v 16 4).toNat = none → s.appendHeader v = none) ∧
    (∀ a h, s.appendHeader v = some (a, h) → h.valid = false →
      gives (.qappReserve p v) s (append s (BitVec.allOnes 64)) ∧ gives (.qappCommit p v) s (append s 0xFFFFFFFFFFFFFFFE)) ∧
    (∀ a h, s.appendHeader v = some (a, h) → h.valid = true →
      (∀ x z, s.reserve a h (bitsAt v 32 32).toNat (s.stepOf a) = (some x, z) → gives (.qappReserve p v) s (append z (BitVec.ofNat 64 x))) ∧
      (∀ z, s.reserve a h (bitsAt v 32 32).toNat (s.stepOf a) = (none, z) → gives (.qappReserve p v) s (append z (BitVec.allOnes 64))) ∧
      (∀ z, s.commit a h (bitsAt v 32 32).toNat = some z → gives (.qappCommit p v) s (append z 0)) ∧
      (s.commit a h (bitsAt v 32 32).toNat = none → gives (.qappCommit p v) s (append s 0xFFFFFFFFFFFFFFFE))) ∧
    (64 ≤ (s.portWatches p).length ∨ 64 ≤ (o.wstage[2]).toNat →
      gives (.wgoArm p) s { s with ports := s.ports.setIfInBounds p { o with wign := true } }) ∧
    ((s.portWatches p).length < 64 → (o.wstage[2]).toNat < 64 → ∀ a, s.translate 0 0 (o.wstage[0]).toNat false = some a →
      gives (.wgoArm p) s { s with
        watches := s.watches ++ [⟨s.nextId, a, (o.wstage[1]).toNat, .host p (o.wstage[2]).toNat, s.watchRoom a⟩]
        nextId := s.nextId + 1 }) ∧
    (∀ w, s.storeReady p = some w → gives (.watchStoreArm p) s
      { s with watches := s.watches.map fun x => if x.id = w.id then { x with armed := true } else x }) ∧
    (s.storeReady p = none → gives (.watchStoreArm p) s s) ∧
    (∀ w k, s.watches.find? (fun x => x.id == w.id) = some w → w.waiter = .host p k →
      (w.armed = true → w.target ≤ s.natAt w.addr 8 → gives (.watchFire w.id) s
        { s with watches := s.watches.filter (fun x => x.id != w.id), irqs := s.irqs ++ [(p, k)] }) ∧
      (s.natAt w.addr 8 < w.target → gives (.watchFire w.id) s s))

/-- The fabric window and migration (R334, R348), written by the semaphore's owner: FSELF while no fabric command is in flight, a link taken down and
trained, a reduction window sent to its plane or removed; a quiesce stops placement and pre-empts the strand of the identifier on a seat, which
without a frame stays with its pre-emption asked for, a release restores placement, and a quiesce is done when no seat holds a strand of the identifier. What a part whose Keel is fenced does with these requests PortsAndIslands says. -/
def Obligations.FabricWindowAndMigration : Prop :=
  ∀ (s : State) (p w : Nat) (v : BitVec 64) (a : BitVec 16), s.semOwner = p + 1 → s.fenced 0 = false →
    let n := a.toNat
    (v.toNat < 512 → s.fabricBusy = false → gives (.fselfWrite p v) s { s with fabric := { s.fabric with self := v.toNat } }) ∧
    (512 ≤ v.toNat ∨ s.fabricBusy = true → gives (.fselfWrite p v) s s) ∧
    (v.toNat < 36 → (∀ c ∈ s.cmds, c.onLink v.toNat = false) → ∃ t k, gives (.fretrainWrite p v) s t ∧ t.fabric.links[v.toNat]? = some k ∧
      k.training = true ∧ t.fabric.failed = s.fabric.failed ∧
      ∀ i < 36, t.fabric.up.getLsbD i = (s.fabric.up.getLsbD i && decide (i ≠ v.toNat))) ∧
    (36 ≤ v.toNat → gives (.fretrainWrite p v) s s) ∧
    (w < 32 → v = 0x8000000000000000 → s.redOk w = true → ∃ t, gives (.fredWindowSet p w v) s t ∧ t.redReg w 3 = v ∧ (t.round w).live = false ∧
      ∀ k < 3, t.redReg w k = s.redReg w k ∧ t.redWord w k = s.redReg w k) ∧
    (v ≠ 0x8000000000000000 ∨ s.redOk w = false → gives (.fredWindowSet p w v) s s) ∧
    (w < 32 → v = 0 → (∀ c ∈ (s.round w).contribs ++ (s.round w).waiting, c.cmd = none) → ∃ t, gives (.fredWindowClear p w v) s t ∧
      t.redReg w 3 = 0 ∧ (t.round w).live = false ∧ (t.round w).contribs = [] ∧ t.cmds = s.cmds ∧ t.mem = s.mem) ∧
    (v ≠ 0 → gives (.fredWindowClear p w v) s s) ∧
    ((∀ x ∈ s.seats, x.2.asid ≠ n) → ∃ t, gives (.migrQuiesce p a) s t ∧ n ∈ t.quiesced ∧ t.quiescing = some n ∧ t.savedCount = 0 ∧
      t.migrDone = false ∧ t.seats = s.seats ∧ t.mem = s.mem) ∧
    (∀ q st, s.strandAt q = some st → st.asid = n → q.tile < 384 → q.seat < 2 → (∀ x ∈ s.seats, x.2.asid = n → x.1 = SeatId.key q) →
      rising s.seats = true → st.gang = false → st.handler = none → st.wait ≠ .exit → (∀ x y, st.wait ≠ .park x y) → st.gate = [] → st.adds = [] →
      (∀ k base z, s.claimFrame n = .got k base z → ∃ t x, gives (.migrQuiesce p a) s t ∧ n ∈ t.quiesced ∧ t.quiescing = some n ∧
        t.savedCount = 1 ∧ t.migrDone = false ∧ t.strandAt q = none ∧ t.savedAt n (base + 262144 * k) = some x ∧ x.regs = st.regs ∧
        x.pend = st.pend ∧ x.z = st.z ∧ x.clk = st.clk ∧ ∀ r, r ≠ q → r.seat < 2 → t.strandAt r = s.strandAt r) ∧
      (∀ z, s.claimFrame n = .short z → ∃ t, gives (.migrQuiesce p a) s t ∧ n ∈ t.quiesced ∧ t.quiescing = some n ∧ t.savedCount = 0 ∧
        t.seats = s.seats ∧ SeatId.key q ∈ t.wanted)) ∧
    (∃ t, gives (.migrRelease p a) s t ∧ t.quiesced = s.quiesced.filter (fun m => m != n) ∧ t.seats = s.seats ∧ t.mem = s.mem) ∧
    (s.quiescing = some n → (∀ x ∈ s.seats, x.2.asid ≠ n) → gives (.quiesceDone a) s { s with quiescing := none, migrDone := true }) ∧
    (s.quiescing ≠ some n ∨ (∃ x ∈ s.seats, x.2.asid = n) → gives (.quiesceDone a) s s)

/-! ### Bring-up, fencing and the security unit -/

/-- Bring-up (R7, R349, R350, R354): Keel comes up when the boot flash's image verifies with an SVN at or above the floor and at most four tiles failed, and that image runs; a field goes from power-good to lock
to self-test to training, and after its last crossing to a neighbour that is up it is released; a step that misses its limit, or more than
four failed tiles, fences it; a field without a neighbour that is up goes to the end of the order. -/
def Obligations.FieldsComeUp : Prop :=
  (∀ (s : State) (image : List Byte) (n : Nat), s.keel = false → s.phaseOf 0 = .off →
    let held := if s.security.flash = [] then image else s.security.flash
    let img := if held = [] then Config.bootImage else held
    let accepted : Prop := Config.imageVerifies img = true ∧ s.security.svnFloor ≤ Config.imageVersion img
    (accepted → n ≤ 4 → s.phaseOf 1 ≠ .deferred → ∃ t, gives (.keelPowerOn image n) s t ∧ t.fieldUp 0 = true ∧ t.keel = true ∧ t.phaseOf 1 = .powering ∧
      t.bringup = [1, 2, 3, 4, 5] ∧ t.security.running = held) ∧
    (¬ accepted ∨ 4 < n → ∃ t, gives (.keelPowerOn image n) s t ∧ t.phaseOf 0 = .fenced ∧ t.keel = false)) ∧
  (∀ (s : State) (f : Nat), f < 6 →
    let fenced : Instr → Prop := fun i => ∃ t, gives i s t ∧ t.phaseOf f = .fenced ∧ f ∉ t.bringup
    (s.phaseOf f = .powering → gives (.fieldPowerGood f) s (s.setPhase f .locking) ∧ fenced (.fieldPowerGoodTimeout f)) ∧
    (s.phaseOf f = .locking → gives (.fieldPllLock f) s (s.setPhase f .testing) ∧ fenced (.fieldPllLockTimeout f)) ∧
    (s.phaseOf f = .testing → fenced (.fieldBistTimeout f) ∧ (∀ n, 4 < n → fenced (.fieldBistDone f n)) ∧
      ∀ n ≤ 4, (s.upNeighbours f ≠ [] → ∃ t d, gives (.fieldBistDone f n) s t ∧ t.fields[f]? = some d ∧ d.phase = .training ∧ d.trained = [] ∧
        d.spares = n) ∧
      (s.upNeighbours f = [] → ∀ g rest, s.bringup.filter (fun h => h != f) = g :: rest → g < 6 → s.phaseOf g ≠ .deferred →
        ∃ t, gives (.fieldBistDone f n) s t ∧ t.phaseOf f = .deferred ∧ t.phaseOf g = .powering ∧ t.bringup = g :: rest ++ [f])) ∧
    (s.phaseOf f = .training → ∀ g ∈ s.upNeighbours f, fenced (.crossingTrainTimeout f g) ∧
      (∀ d, s.fields[f]? = some d → (∀ h ∈ s.upNeighbours f, h = g ∨ h ∈ d.trained) → ∃ t, gives (.crossingTrained f g) s t ∧
        t.fieldUp f = true ∧ f ∉ t.bringup) ∧
      (∀ d h, s.fields[f]? = some d → h ∈ s.upNeighbours f → h ≠ g → h ∉ d.trained → g ∉ d.trained → gives (.crossingTrained f g) s
        { s with fields := s.fields.setIfInBounds f { d with trained := d.trained ++ [g] } })))

/-- Run-time fencing and hot reset (R351 to R353, R355, R356, R364): a crossing that loses training fences the higher-numbered of its two fields, whose
seats lose their strands, and with it a neighbour that was training to it, the model's reading (notes/assumptions/82.md); a hot reset leaves no launch, command or strand and every register at its reset value, and keeps memory, the
containers, the fuse floor, the SVN floor and the flash, whose image then runs. What a reset keeps beside the fuses is the model's (notes/assumptions/3.md). -/
def Obligations.FencingAndHotReset : Prop :=
  (∀ (s : State) (f g : Nat), f < 6 → g < 6 → s.fieldUp f = true → s.fieldUp g = true →
    ((f % 2 = 0 ∧ g = f + 1) ∨ (g % 2 = 0 ∧ f = g + 1) ∨ f = g + 2 ∨ g = f + 2 → rising s.seats = true →
      max f g ∉ s.bringup → ∃ t, gives (.crossingTrainingLoss f g) s t ∧ t.phaseOf (max f g) = .fenced ∧
        (∀ q, q.tile / 64 = max f g → q.seat < 2 → t.strandAt q = none) ∧ (∀ d, t.fields[max f g]? = some d → d.queues = [] ∧ d.ready = []) ∧
        ∀ h ∈ neighbours (max f g), ∀ d, s.fields[h]? = some d → d.phase = .training → max f g ∉ d.trained →
          (∀ k, s.phaseOf k = .training → k = h) → t.phaseOf h = .fenced) ∧
    (¬ ((f % 2 = 0 ∧ g = f + 1) ∨ (g % 2 = 0 ∧ f = g + 1) ∨ f = g + 2 ∨ g = f + 2) → gives (.crossingTrainingLoss f g) s s)) ∧
  (∀ s : State, ∃ t, gives .hotReset s t ∧ t.launches = [] ∧ t.cmds = [] ∧ t.seats = [] ∧ t.flight = [] ∧ t.watches = [] ∧ t.stm = [] ∧
    t.windows = [] ∧ t.xlat = [] ∧ t.fields = State.reset.fields ∧ t.ports = State.reset.ports ∧ t.fabric = State.reset.fabric ∧
    t.semOwner = 0 ∧ t.semErr = 0 ∧ t.drawA = State.reset.drawA ∧ t.gquant = 2000 ∧ t.keel = false ∧ t.mem = s.mem ∧ t.saved = s.saved ∧
    t.security.floor = s.security.floor ∧ t.security.index = 1024 * s.security.floor ∧ t.security.svnFloor = s.security.svnFloor ∧ t.security.flash = s.security.flash ∧
    t.security.running = s.security.flash ∧
    t.security.image = none ∧ t.security.fwStat = 0)

/-- The security unit and the firmware window (R354 to R358): a command joins the unit's queue, once Keel has power, unless its port is busy and is served in arrival
order; a command whose port's link is down is refused with reason 2, the model's reading (notes/assumptions/51.md); seals write TAG, verifies
compare it; an attestation burns the floor before its block's first signature, takes the next index
and writes the report with its signature, and the new state, into host memory; the index exhausted and a bad length refuse; firmware is fetched, verified against its
signature and the SVN floor, and written to flash. The key operations' values are free (notes/assumptions/7.md). -/
def Obligations.SecurityAndFirmware : Prop :=
  (∀ (s : State) (p : Nat) (o : Port), p < 2 → s.ports[p]? = some o →
    let r := o.sealReg
    let sealed : State → Seal → State := fun y x => { y with ports := y.ports.setIfInBounds p { o with sealReg := x } }
    (∀ i ∈ [(Instr.scmdSeal p, 1), (.scmdVerify p, 2), (.scmdAttest p, 3), (.scmdLoadState p, 4)],
      (r.sstat % 4 = 1 ∨ s.keel = false → gives i.1 s s) ∧
      (s.keel = true → r.sstat % 4 ≠ 1 → gives i.1 s { sealed s { r with sstat := 1 } with
        security := { s.security with busy := s.security.busy ++ [(p, i.2)] } })) ∧
    (∀ (c : Nat) (rest : List (Nat × Nat)), s.security.busy = (p, c) :: rest →
      let y := { s with security := { s.security with busy := rest } }
      let tag := sealTag r.context (s.hostBytes r.saddr r.slen)
      let refused : Nat → Prop := fun why => gives .securityCommandDone s (sealed y { r with sstat := 3 + why * 2 ^ 8 })
      (c = 1 ∨ c = 2 → 2 ^ 26 < r.slen → refused 1) ∧ (r.slen ≤ 2 ^ 26 → o.up = false → refused 2) ∧
      (o.up = true → r.slen ≤ 2 ^ 26 →
        (c = 1 → gives .securityCommandDone s (sealed y { r with sstat := 2, tag := tagWords tag })) ∧
        (c = 2 → gives .securityCommandDone s (sealed y { r with sstat := 2 + (if tagWords tag = r.tag then 4 else 0) }))) ∧
      (o.up = true → c = 3 → 2 ^ 20 ≤ s.security.index → refused 4) ∧
      (o.up = true → c = 3 → s.security.index < 2 ^ 20 → ∃ t, gives .securityCommandDone s t ∧ t.security.index = s.security.index + 1 ∧
        t.security.floor = max s.security.floor (s.security.index / 1024 + 1) ∧
        t.ports = (sealed y { r with sstat := 2 }).ports ∧ t.seats = s.seats ∧
        (s.memoryCanonical → r.saddr + 2948 ≤ r.stateAddr ∨ r.stateAddr + 64 ≤ r.saddr →
          let k := s.security.index
          let bits : (Nat → Bool) → Nat := fun f => ((List.range 6).map fun n => if f n then 2 ^ n else 0).sum
          let report := ((List.range 4).map fun n => leBytes 8 (r.tag[n]?.getD 0).toNat).flatten ++ leBytes 32 s.security.firmwareDigest.toNat ++
            leBytes 8 (s.readRegister 0 0).toNat ++ leBytes 8 k ++ leBytes 8 (max s.security.floor (k / 1024 + 1)) ++
            leBytes 8 (bits (fun f => s.fieldUp f) + bits (fun f => decide (s.phaseOf f = .fenced)) * 2 ^ 8 +
              (s.fields.toList.map (·.spares)).sum * 2 ^ 16) ++ List.replicate 32 0
          memReads t.mem (physOf 2 r.saddr) 128 = report ∧ (∀ n < 2820, memRead t.mem (physOf 2 r.saddr + 128 + n) = Config.signature k report n) ∧
          memReads t.mem (physOf 2 r.stateAddr) 64 = leBytes 8 (k + 1) ++ List.replicate 24 0 ++ leBytes 32 (Config.stateTag (k + 1)).toNat ∧
          ∀ b, (b < physOf 2 r.saddr ∨ physOf 2 r.saddr + 2948 ≤ b) → (b < physOf 2 r.stateAddr ∨ physOf 2 r.stateAddr + 64 ≤ b) →
            memRead t.mem b = memRead s.mem b)) ∧
      (o.up = true → c = 4 → ∃ t, gives .securityCommandDone s t ∧ t.ports = (sealed y { r with sstat := 2 }).ports ∧ t.mem = s.mem ∧
        (let bs := s.hostBytes r.saddr 64
         let k := leNat (bs.take 8)
         (bs.drop 32 ≠ leBytes 32 (Config.stateTag k).toNat → t.security = y.security) ∧
         (bs.drop 32 = leBytes 32 (Config.stateTag k).toNat → (bs.drop 8).take 24 = List.replicate 24 0 →
           t.security.index = max s.security.index (max k (1024 * s.security.started))))))) ∧
  (∀ s : State, s.security.busy = [] → gives .securityCommandDone s s) ∧
  (∀ (s : State) (p : Nat), s.semOwner = p + 1 →
    (s.security.fwStat = 1 → gives (.fwcmdFetchVerify p) s s ∧ gives (.fwcmdWriteFlash p) s s) ∧
    (s.security.fwStat ≠ 1 →
      gives (.fwcmdFetchVerify p) s { s with security := { s.security with fwStat := 1, fwReason := 0, fwCmd := 1 } } ∧
      gives (.fwcmdWriteFlash p) s { s with security := { s.security with fwStat := 1, fwReason := 0, fwCmd := 2 } })) ∧
  (∀ s : State, let u := s.security
    let img := s.hostBytes u.fwAddr (min u.fwLen (2 ^ 24))
    let done : Security → Prop := fun x => gives .fwCommandDone s { s with security := x }
    (u.fwStat ≠ 1 → gives .fwCommandDone s s) ∧
    (u.fwStat = 1 → u.fwCmd = 1 →
      (2 ^ 24 < u.fwLen → done { u with fwStat := 3, fwReason := 3, image := none }) ∧
      (u.fwLen ≤ 2 ^ 24 → Config.imageVerifies img = false → done { u with fwStat := 3, fwReason := 1, image := none }) ∧
      (u.fwLen ≤ 2 ^ 24 → Config.imageVerifies img = true → Config.imageVersion img < u.svnFloor →
        done { u with fwStat := 3, fwReason := 2, image := none }) ∧
      (u.fwLen ≤ 2 ^ 24 → Config.imageVerifies img = true → u.svnFloor ≤ Config.imageVersion img →
        done { u with fwStat := 2, fwReason := 0, image := some img })) ∧
    (u.fwStat = 1 → u.fwCmd = 2 → (u.image = none → done { u with fwStat := 3, fwReason := 1 }) ∧
      ∀ i, u.image = some i → done { u with fwStat := 0, fwReason := 0, flash := i, svnFloor := max u.svnFloor (Config.imageVersion i) }))
end

