-- ==== Sys2Proof/Laws/Exec.lean ====
section
/-!
SUPPORT. The dispatch, arm by arm: what exec does with each instruction is its meaning.
-/

namespace Sys2Proof.Machine

theorem exec_nop (g : BitVec 4) (s : State) : exec (.nop g) s = execNop g s := rfl
theorem exec_stall (g : BitVec 4) (n : BitVec 8) (x : Option (BitVec 8)) (s : State) : exec (.stall g n x) s = execStall g n x s := rfl
theorem exec_add (g : BitVec 4) (d : BitVec 6) (a : BitVec 6) (b : BitVec 6) (s : State) : exec (.add g d a b) s = execAdd g d a b s := rfl
theorem exec_sub (g : BitVec 4) (d : BitVec 6) (a : BitVec 6) (b : BitVec 6) (s : State) : exec (.sub g d a b) s = execSub g d a b s := rfl
theorem exec_mul (g : BitVec 4) (d : BitVec 6) (a : BitVec 6) (b : BitVec 6) (s : State) : exec (.mul g d a b) s = execMul g d a b s := rfl
theorem exec_mulh (g : BitVec 4) (d : BitVec 6) (a : BitVec 6) (b : BitVec 6) (s : State) : exec (.mulh g d a b) s = execMulh g d a b s := rfl
theorem exec_mulhn (g : BitVec 4) (d : BitVec 6) (a : BitVec 6) (b : BitVec 6) (s : State) : exec (.mulhn g d a b) s = execMulhn g d a b s := rfl
theorem exec_div (g : BitVec 4) (d : BitVec 6) (a : BitVec 6) (b : BitVec 6) (s : State) : exec (.div g d a b) s = execDiv g d a b s := rfl
theorem exec_divn (g : BitVec 4) (d : BitVec 6) (a : BitVec 6) (b : BitVec 6) (s : State) : exec (.divn g d a b) s = execDivn g d a b s := rfl
theorem exec_rem (g : BitVec 4) (d : BitVec 6) (a : BitVec 6) (b : BitVec 6) (s : State) : exec (.rem g d a b) s = execRem g d a b s := rfl
theorem exec_remn (g : BitVec 4) (d : BitVec 6) (a : BitVec 6) (b : BitVec 6) (s : State) : exec (.remn g d a b) s = execRemn g d a b s := rfl
theorem exec_and (g : BitVec 4) (d : BitVec 6) (a : BitVec 6) (b : BitVec 6) (s : State) : exec (.and g d a b) s = execAnd g d a b s := rfl
theorem exec_or (g : BitVec 4) (d : BitVec 6) (a : BitVec 6) (b : BitVec 6) (s : State) : exec (.or g d a b) s = execOr g d a b s := rfl
theorem exec_xor (g : BitVec 4) (d : BitVec 6) (a : BitVec 6) (b : BitVec 6) (s : State) : exec (.xor g d a b) s = execXor g d a b s := rfl
theorem exec_andn (g : BitVec 4) (d : BitVec 6) (a : BitVec 6) (b : BitVec 6) (s : State) : exec (.andn g d a b) s = execAndn g d a b s := rfl
theorem exec_shl (g : BitVec 4) (d : BitVec 6) (a : BitVec 6) (b : BitVec 6) (s : State) : exec (.shl g d a b) s = execShl g d a b s := rfl
theorem exec_shr (g : BitVec 4) (d : BitVec 6) (a : BitVec 6) (b : BitVec 6) (s : State) : exec (.shr g d a b) s = execShr g d a b s := rfl
theorem exec_sra (g : BitVec 4) (d : BitVec 6) (a : BitVec 6) (b : BitVec 6) (s : State) : exec (.sra g d a b) s = execSra g d a b s := rfl
theorem exec_min (g : BitVec 4) (d : BitVec 6) (a : BitVec 6) (b : BitVec 6) (s : State) : exec (.min g d a b) s = execMin g d a b s := rfl
theorem exec_max (g : BitVec 4) (d : BitVec 6) (a : BitVec 6) (b : BitVec 6) (s : State) : exec (.max g d a b) s = execMax g d a b s := rfl
theorem exec_minn (g : BitVec 4) (d : BitVec 6) (a : BitVec 6) (b : BitVec 6) (s : State) : exec (.minn g d a b) s = execMinn g d a b s := rfl
theorem exec_maxn (g : BitVec 4) (d : BitVec 6) (a : BitVec 6) (b : BitVec 6) (s : State) : exec (.maxn g d a b) s = execMaxn g d a b s := rfl
theorem exec_clz (g : BitVec 4) (d : BitVec 6) (a : BitVec 6) (s : State) : exec (.clz g d a) s = execClz g d a s := rfl
theorem exec_ctz (g : BitVec 4) (d : BitVec 6) (a : BitVec 6) (s : State) : exec (.ctz g d a) s = execCtz g d a s := rfl
theorem exec_popc (g : BitVec 4) (d : BitVec 6) (a : BitVec 6) (s : State) : exec (.popc g d a) s = execPopc g d a s := rfl
theorem exec_add32 (g : BitVec 4) (d : BitVec 6) (a : BitVec 6) (b : BitVec 6) (s : State) : exec (.add32 g d a b) s = execAdd32 g d a b s := rfl
theorem exec_sub32 (g : BitVec 4) (d : BitVec 6) (a : BitVec 6) (b : BitVec 6) (s : State) : exec (.sub32 g d a b) s = execSub32 g d a b s := rfl
theorem exec_addi (g : BitVec 4) (d : BitVec 6) (a : BitVec 6) (i_ : BitVec 8) (x : Option (BitVec 8)) (s : State) : exec (.addi g d a i_ x) s = execAddi g d a i_ x s := rfl
theorem exec_andi (g : BitVec 4) (d : BitVec 6) (a : BitVec 6) (i_ : BitVec 8) (x : Option (BitVec 8)) (s : State) : exec (.andi g d a i_ x) s = execAndi g d a i_ x s := rfl
theorem exec_ori (g : BitVec 4) (d : BitVec 6) (a : BitVec 6) (i_ : BitVec 8) (x : Option (BitVec 8)) (s : State) : exec (.ori g d a i_ x) s = execOri g d a i_ x s := rfl
theorem exec_xori (g : BitVec 4) (d : BitVec 6) (a : BitVec 6) (i_ : BitVec 8) (x : Option (BitVec 8)) (s : State) : exec (.xori g d a i_ x) s = execXori g d a i_ x s := rfl
theorem exec_shli (g : BitVec 4) (d : BitVec 6) (a : BitVec 6) (s_ : BitVec 6) (x : Option (BitVec 8)) (s : State) : exec (.shli g d a s_ x) s = execShli g d a s_ x s := rfl
theorem exec_shri (g : BitVec 4) (d : BitVec 6) (a : BitVec 6) (s_ : BitVec 6) (x : Option (BitVec 8)) (s : State) : exec (.shri g d a s_ x) s = execShri g d a s_ x s := rfl
theorem exec_srai (g : BitVec 4) (d : BitVec 6) (a : BitVec 6) (s_ : BitVec 6) (x : Option (BitVec 8)) (s : State) : exec (.srai g d a s_ x) s = execSrai g d a s_ x s := rfl
theorem exec_movi (g : BitVec 4) (d : BitVec 6) (i_ : BitVec 8) (x : Option (BitVec 8)) (s : State) : exec (.movi g d i_ x) s = execMovi g d i_ x s := rfl
theorem exec_movk (g : BitVec 4) (d : BitVec 6) (h : BitVec 2) (i_ : BitVec 8) (x : Option (BitVec 8)) (s : State) : exec (.movk g d h i_ x) s = execMovk g d h i_ x s := rfl
theorem exec_cmpeq (g : BitVec 4) (p : BitVec 4) (a : BitVec 6) (b : BitVec 6) (s : State) : exec (.cmpeq g p a b) s = execCmpeq g p a b s := rfl
theorem exec_cmpne (g : BitVec 4) (p : BitVec 4) (a : BitVec 6) (b : BitVec 6) (s : State) : exec (.cmpne g p a b) s = execCmpne g p a b s := rfl
theorem exec_cmplt (g : BitVec 4) (p : BitVec 4) (a : BitVec 6) (b : BitVec 6) (s : State) : exec (.cmplt g p a b) s = execCmplt g p a b s := rfl
theorem exec_cmple (g : BitVec 4) (p : BitVec 4) (a : BitVec 6) (b : BitVec 6) (s : State) : exec (.cmple g p a b) s = execCmple g p a b s := rfl
theorem exec_cmpltn (g : BitVec 4) (p : BitVec 4) (a : BitVec 6) (b : BitVec 6) (s : State) : exec (.cmpltn g p a b) s = execCmpltn g p a b s := rfl
theorem exec_cmplen (g : BitVec 4) (p : BitVec 4) (a : BitVec 6) (b : BitVec 6) (s : State) : exec (.cmplen g p a b) s = execCmplen g p a b s := rfl
theorem exec_cmpeqi (g : BitVec 4) (p : BitVec 4) (a : BitVec 6) (i_ : BitVec 9) (x : Option (BitVec 8)) (s : State) : exec (.cmpeqi g p a i_ x) s = execCmpeqi g p a i_ x s := rfl
theorem exec_cmplti (g : BitVec 4) (p : BitVec 4) (a : BitVec 6) (i_ : BitVec 9) (x : Option (BitVec 8)) (s : State) : exec (.cmplti g p a i_ x) s = execCmplti g p a i_ x s := rfl
theorem exec_cmplei (g : BitVec 4) (p : BitVec 4) (a : BitVec 6) (i_ : BitVec 9) (x : Option (BitVec 8)) (s : State) : exec (.cmplei g p a i_ x) s = execCmplei g p a i_ x s := rfl
theorem exec_tbit (g : BitVec 4) (p : BitVec 4) (a : BitVec 6) (n : BitVec 6) (s : State) : exec (.tbit g p a n) s = execTbit g p a n s := rfl
theorem exec_pand (g : BitVec 4) (d : BitVec 4) (a : BitVec 4) (b : BitVec 4) (s : State) : exec (.pand g d a b) s = execPand g d a b s := rfl
theorem exec_por (g : BitVec 4) (d : BitVec 4) (a : BitVec 4) (b : BitVec 4) (s : State) : exec (.por g d a b) s = execPor g d a b s := rfl
theorem exec_pxor (g : BitVec 4) (d : BitVec 4) (a : BitVec 4) (b : BitVec 4) (s : State) : exec (.pxor g d a b) s = execPxor g d a b s := rfl
theorem exec_pandn (g : BitVec 4) (d : BitVec 4) (a : BitVec 4) (b : BitVec 4) (s : State) : exec (.pandn g d a b) s = execPandn g d a b s := rfl
theorem exec_pmov (g : BitVec 4) (d : BitVec 4) (a : BitVec 4) (s : State) : exec (.pmov g d a) s = execPmov g d a s := rfl
theorem exec_pset (g : BitVec 4) (d : BitVec 4) (v : BitVec 4) (s : State) : exec (.pset g d v) s = execPset g d v s := rfl
theorem exec_pload (g : BitVec 4) (x : BitVec 6) (s : State) : exec (.pload g x) s = execPload g x s := rfl
theorem exec_pstore (g : BitVec 4) (x : BitVec 6) (s : State) : exec (.pstore g x) s = execPstore g x s := rfl
theorem exec_br (g : BitVec 4) (o : BitVec 20) (x : Option (BitVec 8)) (s : State) : exec (.br g o x) s = execBr g o x s := rfl
theorem exec_call (g : BitVec 4) (o : BitVec 20) (x : Option (BitVec 8)) (s : State) : exec (.call g o x) s = execCall g o x s := rfl
theorem exec_jmp (g : BitVec 4) (a : BitVec 6) (s : State) : exec (.jmp g a) s = execJmp g a s := rfl
theorem exec_callx (g : BitVec 4) (a : BitVec 6) (s : State) : exec (.callx g a) s = execCallx g a s := rfl
theorem exec_loop (g : BitVec 4) (a : BitVec 6) (e : BitVec 4) (l : BitVec 10) (x : Option (BitVec 8)) (s : State) : exec (.loop g a e l x) s = execLoop g a e l x s := rfl
theorem exec_mark (g : BitVec 4) (s : State) : exec (.mark g) s = execMark g s := rfl
theorem exec_park (g : BitVec 4) (a : BitVec 6) (b : BitVec 6) (s : State) : exec (.park g a b) s = execPark g a b s := rfl
theorem exec_exit (g : BitVec 4) (s : State) : exec (.exit g) s = execExit g s := rfl
theorem exec_trap (g : BitVec 4) (c : BitVec 8) (s : State) : exec (.trap g c) s = execTrap g c s := rfl
theorem exec_spool (g : BitVec 4) (n : BitVec 4) (l : BitVec 3) (s : State) : exec (.spool g n l) s = execSpool g n l s := rfl
theorem exec_spbrk (g : BitVec 4) (l : BitVec 3) (s : State) : exec (.spbrk g l) s = execSpbrk g l s := rfl
theorem exec_eret (g : BitVec 4) (s : State) : exec (.eret g) s = execEret g s := rfl
theorem exec_ld8 (g : BitVec 4) (h : BitVec 6) (d : BitVec 6) (c : BitVec 6) (x : Option (BitVec 8)) (s : State) : exec (.ld8 g h d c x) s = execLd8 g h d c x s := rfl
theorem exec_ld16 (g : BitVec 4) (h : BitVec 6) (d : BitVec 6) (c : BitVec 6) (x : Option (BitVec 8)) (s : State) : exec (.ld16 g h d c x) s = execLd16 g h d c x s := rfl
theorem exec_ld32 (g : BitVec 4) (h : BitVec 6) (d : BitVec 6) (c : BitVec 6) (x : Option (BitVec 8)) (s : State) : exec (.ld32 g h d c x) s = execLd32 g h d c x s := rfl
theorem exec_ld64 (g : BitVec 4) (h : BitVec 6) (d : BitVec 6) (c : BitVec 6) (x : Option (BitVec 8)) (s : State) : exec (.ld64 g h d c x) s = execLd64 g h d c x s := rfl
theorem exec_ld8s (g : BitVec 4) (h : BitVec 6) (d : BitVec 6) (c : BitVec 6) (x : Option (BitVec 8)) (s : State) : exec (.ld8s g h d c x) s = execLd8s g h d c x s := rfl
theorem exec_ld16s (g : BitVec 4) (h : BitVec 6) (d : BitVec 6) (c : BitVec 6) (x : Option (BitVec 8)) (s : State) : exec (.ld16s g h d c x) s = execLd16s g h d c x s := rfl
theorem exec_ld32s (g : BitVec 4) (h : BitVec 6) (d : BitVec 6) (c : BitVec 6) (x : Option (BitVec 8)) (s : State) : exec (.ld32s g h d c x) s = execLd32s g h d c x s := rfl
theorem exec_st8 (g : BitVec 4) (h : BitVec 6) (d : BitVec 6) (c : BitVec 6) (x : Option (BitVec 8)) (s : State) : exec (.st8 g h d c x) s = execSt8 g h d c x s := rfl
theorem exec_st16 (g : BitVec 4) (h : BitVec 6) (d : BitVec 6) (c : BitVec 6) (x : Option (BitVec 8)) (s : State) : exec (.st16 g h d c x) s = execSt16 g h d c x s := rfl
theorem exec_st32 (g : BitVec 4) (h : BitVec 6) (d : BitVec 6) (c : BitVec 6) (x : Option (BitVec 8)) (s : State) : exec (.st32 g h d c x) s = execSt32 g h d c x s := rfl
theorem exec_st64 (g : BitVec 4) (h : BitVec 6) (d : BitVec 6) (c : BitVec 6) (x : Option (BitVec 8)) (s : State) : exec (.st64 g h d c x) s = execSt64 g h d c x s := rfl
theorem exec_ldv (g : BitVec 4) (h : BitVec 6) (d : BitVec 5) (c : BitVec 6) (x : Option (BitVec 8)) (s : State) : exec (.ldv g h d c x) s = execLdv g h d c x s := rfl
theorem exec_stv (g : BitVec 4) (h : BitVec 6) (d : BitVec 5) (c : BitVec 6) (x : Option (BitVec 8)) (s : State) : exec (.stv g h d c x) s = execStv g h d c x s := rfl
theorem exec_ldvx (g : BitVec 4) (h : BitVec 6) (d : BitVec 5) (c : BitVec 6) (x : Option (BitVec 8)) (s : State) : exec (.ldvx g h d c x) s = execLdvx g h d c x s := rfl
theorem exec_stvx (g : BitVec 4) (h : BitVec 6) (d : BitVec 5) (c : BitVec 6) (x : Option (BitVec 8)) (s : State) : exec (.stvx g h d c x) s = execStvx g h d c x s := rfl
theorem exec_ldt (g : BitVec 4) (h : BitVec 6) (d : BitVec 3) (c : BitVec 6) (x : Option (BitVec 8)) (s : State) : exec (.ldt g h d c x) s = execLdt g h d c x s := rfl
theorem exec_stt (g : BitVec 4) (h : BitVec 6) (d : BitVec 3) (c : BitVec 6) (x : Option (BitVec 8)) (s : State) : exec (.stt g h d c x) s = execStt g h d c x s := rfl
theorem exec_lds (g : BitVec 4) (h : BitVec 6) (d : BitVec 6) (c : BitVec 6) (x : Option (BitVec 8)) (s : State) : exec (.lds g h d c x) s = execLds g h d c x s := rfl
theorem exec_ldsv (g : BitVec 4) (h : BitVec 6) (d : BitVec 5) (c : BitVec 6) (x : Option (BitVec 8)) (s : State) : exec (.ldsv g h d c x) s = execLdsv g h d c x s := rfl
theorem exec_spld (g : BitVec 4) (r : BitVec 6) (s_ : BitVec 9) (s : State) : exec (.spld g r s_) s = execSpld g r s_ s := rfl
theorem exec_spst (g : BitVec 4) (r : BitVec 6) (s_ : BitVec 9) (s : State) : exec (.spst g r s_) s = execSpst g r s_ s := rfl
theorem exec_spldv (g : BitVec 4) (r : BitVec 5) (s_ : BitVec 9) (s : State) : exec (.spldv g r s_) s = execSpldv g r s_ s := rfl
theorem exec_spstv (g : BitVec 4) (r : BitVec 5) (s_ : BitVec 9) (s : State) : exec (.spstv g r s_) s = execSpstv g r s_ s := rfl
theorem exec_spldp (g : BitVec 4) (r : BitVec 6) (s_ : BitVec 9) (s : State) : exec (.spldp g r s_) s = execSpldp g r s_ s := rfl
theorem exec_spstp (g : BitVec 4) (r : BitVec 6) (s_ : BitVec 9) (s : State) : exec (.spstp g r s_) s = execSpstp g r s_ s := rfl
theorem exec_vadd (g : BitVec 4) (d : BitVec 5) (a : BitVec 5) (b : BitVec 5) (k : BitVec 3) (s : State) : exec (.vadd g d a b k) s = execVadd g d a b k s := rfl
theorem exec_vsub (g : BitVec 4) (d : BitVec 5) (a : BitVec 5) (b : BitVec 5) (k : BitVec 3) (s : State) : exec (.vsub g d a b k) s = execVsub g d a b k s := rfl
theorem exec_vmul (g : BitVec 4) (d : BitVec 5) (a : BitVec 5) (b : BitVec 5) (k : BitVec 3) (s : State) : exec (.vmul g d a b k) s = execVmul g d a b k s := rfl
theorem exec_vand (g : BitVec 4) (d : BitVec 5) (a : BitVec 5) (b : BitVec 5) (k : BitVec 3) (s : State) : exec (.vand g d a b k) s = execVand g d a b k s := rfl
theorem exec_vor (g : BitVec 4) (d : BitVec 5) (a : BitVec 5) (b : BitVec 5) (k : BitVec 3) (s : State) : exec (.vor g d a b k) s = execVor g d a b k s := rfl
theorem exec_vxor (g : BitVec 4) (d : BitVec 5) (a : BitVec 5) (b : BitVec 5) (k : BitVec 3) (s : State) : exec (.vxor g d a b k) s = execVxor g d a b k s := rfl
theorem exec_vshl (g : BitVec 4) (d : BitVec 5) (a : BitVec 5) (b : BitVec 5) (k : BitVec 3) (s : State) : exec (.vshl g d a b k) s = execVshl g d a b k s := rfl
theorem exec_vshr (g : BitVec 4) (d : BitVec 5) (a : BitVec 5) (b : BitVec 5) (k : BitVec 3) (s : State) : exec (.vshr g d a b k) s = execVshr g d a b k s := rfl
theorem exec_vsra (g : BitVec 4) (d : BitVec 5) (a : BitVec 5) (b : BitVec 5) (k : BitVec 3) (s : State) : exec (.vsra g d a b k) s = execVsra g d a b k s := rfl
theorem exec_vmin (g : BitVec 4) (d : BitVec 5) (a : BitVec 5) (b : BitVec 5) (k : BitVec 3) (s : State) : exec (.vmin g d a b k) s = execVmin g d a b k s := rfl
theorem exec_vmax (g : BitVec 4) (d : BitVec 5) (a : BitVec 5) (b : BitVec 5) (k : BitVec 3) (s : State) : exec (.vmax g d a b k) s = execVmax g d a b k s := rfl
theorem exec_vminn (g : BitVec 4) (d : BitVec 5) (a : BitVec 5) (b : BitVec 5) (k : BitVec 3) (s : State) : exec (.vminn g d a b k) s = execVminn g d a b k s := rfl
theorem exec_vmaxn (g : BitVec 4) (d : BitVec 5) (a : BitVec 5) (b : BitVec 5) (k : BitVec 3) (s : State) : exec (.vmaxn g d a b k) s = execVmaxn g d a b k s := rfl
theorem exec_vsel (g : BitVec 4) (d : BitVec 5) (a : BitVec 5) (b : BitVec 5) (k : BitVec 3) (s : State) : exec (.vsel g d a b k) s = execVsel g d a b k s := rfl
theorem exec_vcmpeq (g : BitVec 4) (d : BitVec 3) (a : BitVec 5) (b : BitVec 5) (k : BitVec 3) (s : State) : exec (.vcmpeq g d a b k) s = execVcmpeq g d a b k s := rfl
theorem exec_vcmplt (g : BitVec 4) (d : BitVec 3) (a : BitVec 5) (b : BitVec 5) (k : BitVec 3) (s : State) : exec (.vcmplt g d a b k) s = execVcmplt g d a b k s := rfl
theorem exec_vcmple (g : BitVec 4) (d : BitVec 3) (a : BitVec 5) (b : BitVec 5) (k : BitVec 3) (s : State) : exec (.vcmple g d a b k) s = execVcmple g d a b k s := rfl
theorem exec_vcmpltn (g : BitVec 4) (d : BitVec 3) (a : BitVec 5) (b : BitVec 5) (k : BitVec 3) (s : State) : exec (.vcmpltn g d a b k) s = execVcmpltn g d a b k s := rfl
theorem exec_viota (g : BitVec 4) (d : BitVec 5) (k : BitVec 3) (s : State) : exec (.viota g d k) s = execViota g d k s := rfl
theorem exec_vbcast (g : BitVec 4) (d : BitVec 5) (x : BitVec 6) (t : BitVec 4) (k : BitVec 3) (s : State) : exec (.vbcast g d x t k) s = execVbcast g d x t k s := rfl
theorem exec_vext (g : BitVec 4) (d : BitVec 6) (a : BitVec 5) (b : BitVec 6) (s : State) : exec (.vext g d a b) s = execVext g d a b s := rfl
theorem exec_vins (g : BitVec 4) (d : BitVec 5) (a : BitVec 6) (b : BitVec 6) (s : State) : exec (.vins g d a b) s = execVins g d a b s := rfl
theorem exec_vpopc (g : BitVec 4) (d : BitVec 6) (k : BitVec 3) (s : State) : exec (.vpopc g d k) s = execVpopc g d k s := rfl
theorem exec_vfirst (g : BitVec 4) (d : BitVec 6) (k : BitVec 3) (s : State) : exec (.vfirst g d k) s = execVfirst g d k s := rfl
theorem exec_vpack (g : BitVec 4) (d : BitVec 5) (a : BitVec 5) (k : BitVec 3) (s : State) : exec (.vpack g d a k) s = execVpack g d a k s := rfl
theorem exec_kand (g : BitVec 4) (d : BitVec 3) (a : BitVec 3) (b : BitVec 3) (s : State) : exec (.kand g d a b) s = execKand g d a b s := rfl
theorem exec_kor (g : BitVec 4) (d : BitVec 3) (a : BitVec 3) (b : BitVec 3) (s : State) : exec (.kor g d a b) s = execKor g d a b s := rfl
theorem exec_kxor (g : BitVec 4) (d : BitVec 3) (a : BitVec 3) (b : BitVec 3) (s : State) : exec (.kxor g d a b) s = execKxor g d a b s := rfl
theorem exec_kmov (g : BitVec 4) (d : BitVec 3) (a : BitVec 3) (s : State) : exec (.kmov g d a) s = execKmov g d a s := rfl
theorem exec_vmov (g : BitVec 4) (d : BitVec 5) (a : BitVec 5) (b : BitVec 5) (k : BitVec 3) (s : State) : exec (.vmov g d a b k) s = execVmov g d a b k s := rfl
theorem exec_vtag (g : BitVec 4) (d : BitVec 5) (t : BitVec 4) (s : State) : exec (.vtag g d t) s = execVtag g d t s := rfl
theorem exec_vfmt (g : BitVec 4) (d : BitVec 6) (a : BitVec 5) (s : State) : exec (.vfmt g d a) s = execVfmt g d a s := rfl
theorem exec_mload (g : BitVec 4) (s_ : BitVec 3) (t : BitVec 1) (s : State) : exec (.mload g s_ t) s = execMload g s_ t s := rfl
theorem exec_mloadg (g : BitVec 4) (s_ : BitVec 3) (t : BitVec 1) (s : State) : exec (.mloadg g s_ t) s = execMloadg g s_ t s := rfl
theorem exec_mpush (g : BitVec 4) (a : BitVec 2) (s_ : BitVec 3) (r : BitVec 6) (h : BitVec 1) (t : BitVec 1) (s : State) : exec (.mpush g a s_ r h t) s = execMpush g a s_ r h t s := rfl
theorem exec_mpushl (g : BitVec 4) (a : BitVec 2) (r : BitVec 6) (h : BitVec 1) (t : BitVec 1) (s : State) : exec (.mpushl g a r h t) s = execMpushl g a r h t s := rfl
theorem exec_mpushg (g : BitVec 4) (a : BitVec 2) (s_ : BitVec 3) (r : BitVec 6) (h : BitVec 1) (t : BitVec 1) (s : State) : exec (.mpushg g a s_ r h t) s = execMpushg g a s_ r h t s := rfl
theorem exec_mzero (g : BitVec 4) (a : BitVec 2) (f : BitVec 4) (s : State) : exec (.mzero g a f) s = execMzero g a f s := rfl
theorem exec_minit (g : BitVec 4) (a : BitVec 2) (s_ : BitVec 3) (s : State) : exec (.minit g a s_) s = execMinit g a s_ s := rfl
theorem exec_mshift (g : BitVec 4) (a : BitVec 2) (k : BitVec 7) (s : State) : exec (.mshift g a k) s = execMshift g a k s := rfl
theorem exec_mswap (g : BitVec 4) (a : BitVec 2) (s : State) : exec (.mswap g a) s = execMswap g a s := rfl
theorem exec_mdrain (g : BitVec 4) (a : BitVec 2) (r : BitVec 6) (m : BitVec 7) (s : State) : exec (.mdrain g a r m) s = execMdrain g a r m s := rfl
theorem exec_gset (g : BitVec 4) (t : BitVec 3) (x : BitVec 6) (s : State) : exec (.gset g t x) s = execGset g t x s := rfl
theorem exec_gidx (g : BitVec 4) (t : BitVec 3) (v : BitVec 5) (k : BitVec 1) (e : BitVec 7) (s : State) : exec (.gidx g t v k e) s = execGidx g t v k e s := rfl
theorem exec_gdiag (g : BitVec 4) (t : BitVec 3) (v : BitVec 5) (e : BitVec 7) (s : State) : exec (.gdiag g t v e) s = execGdiag g t v e s := rfl
theorem exec_gband (g : BitVec 4) (t : BitVec 3) (x : BitVec 6) (k : BitVec 1) (v : BitVec 5) (s : State) : exec (.gband g t x k v) s = execGband g t x k v s := rfl
theorem exec_tzero (g : BitVec 4) (t : BitVec 3) (f : BitVec 4) (s : State) : exec (.tzero g t f) s = execTzero g t f s := rfl
theorem exec_tmove (g : BitVec 4) (t : BitVec 3) (a : BitVec 3) (s : State) : exec (.tmove g t a) s = execTmove g t a s := rfl
theorem exec_tfill (g : BitVec 4) (t : BitVec 3) (x : BitVec 6) (f : BitVec 4) (s : State) : exec (.tfill g t x f) s = execTfill g t x f s := rfl
theorem exec_tsetv (g : BitVec 4) (t : BitVec 3) (v : BitVec 5) (i_ : BitVec 6) (s : State) : exec (.tsetv g t v i_) s = execTsetv g t v i_ s := rfl
theorem exec_tgetv (g : BitVec 4) (t : BitVec 3) (v : BitVec 5) (i_ : BitVec 6) (s : State) : exec (.tgetv g t v i_) s = execTgetv g t v i_ s := rfl
theorem exec_ttag (g : BitVec 4) (t : BitVec 3) (f : BitVec 4) (s : State) : exec (.ttag g t f) s = execTtag g t f s := rfl
theorem exec_tfmt (g : BitVec 4) (t : BitVec 3) (x : BitVec 6) (s : State) : exec (.tfmt g t x) s = execTfmt g t x s := rfl
theorem exec_xpand (g : BitVec 4) (d : BitVec 3) (s_ : BitVec 5) (f : BitVec 4) (i_ : BitVec 6) (s : State) : exec (.xpand g d s_ f i_) s = execXpand g d s_ f i_ s := rfl
theorem exec_xpose (g : BitVec 4) (d : BitVec 3) (s_ : BitVec 3) (s : State) : exec (.xpose g d s_) s = execXpose g d s_ s := rfl
theorem exec_xconv (g : BitVec 4) (d : BitVec 3) (s_ : BitVec 3) (f : BitVec 4) (r : BitVec 3) (x : BitVec 1) (s : State) : exec (.xconv g d s_ f r x) s = execXconv g d s_ f r x s := rfl
theorem exec_vconv (g : BitVec 4) (d : BitVec 5) (s_ : BitVec 5) (f : BitVec 4) (r : BitVec 3) (k : BitVec 3) (s : State) : exec (.vconv g d s_ f r k) s = execVconv g d s_ f r k s := rfl
theorem exec_xperm (g : BitVec 4) (d : BitVec 5) (s_ : BitVec 5) (b : BitVec 5) (k : BitVec 3) (s : State) : exec (.xperm g d s_ b k) s = execXperm g d s_ b k s := rfl
theorem exec_xpack (g : BitVec 4) (d : BitVec 5) (s_ : BitVec 3) (i_ : BitVec 6) (s : State) : exec (.xpack g d s_ i_) s = execXpack g d s_ i_ s := rfl
theorem exec_dfcfg (g : BitVec 4) (n : BitVec 4) (f : BitVec 4) (r : BitVec 3) (z : BitVec 1) (k : BitVec 8) (s : State) : exec (.dfcfg g n f r z k) s = execDfcfg g n f r z k s := rfl
theorem exec_dfdstNone (g : BitVec 4) (s : State) : exec (.dfdstNone g) s = execDfdstNone g s := rfl
theorem exec_dfdstT (g : BitVec 4) (n : BitVec 3) (s : State) : exec (.dfdstT g n) s = execDfdstT g n s := rfl
theorem exec_dfdstH (g : BitVec 4) (h : BitVec 6) (c : BitVec 6) (s : State) : exec (.dfdstH g h c) s = execDfdstH g h c s := rfl
theorem exec_dfscale (g : BitVec 4) (x : BitVec 1) (b : BitVec 1) (s_ : BitVec 5) (v : BitVec 5) (s : State) : exec (.dfscale g x b s_ v) s = execDfscale g x b s_ v s := rfl
theorem exec_dfmask (g : BitVec 4) (h : BitVec 6) (x : BitVec 6) (q : BitVec 5) (s : State) : exec (.dfmask g h x q) s = execDfmask g h x q s := rfl
theorem exec_dfrow (g : BitVec 4) (m : BitVec 1) (s_ : BitVec 1) (x : BitVec 5) (y : BitVec 5) (s : State) : exec (.dfrow g m s_ x y) s = execDfrow g m s_ x y s := rfl
theorem exec_dfmass (g : BitVec 4) (h : BitVec 6) (x : BitVec 6) (n : BitVec 2) (s : State) : exec (.dfmass g h x n) s = execDfmass g h x n s := rfl
theorem exec_dfv (g : BitVec 4) (d : BitVec 5) (a : BitVec 5) (b : BitVec 5) (f : BitVec 5) (s : State) : exec (.dfv g d a b f) s = execDfv g d a b f s := rfl
theorem exec_dfstat (g : BitVec 4) (d : BitVec 6) (w : BitVec 3) (s : State) : exec (.dfstat g d w) s = execDfstat g d w s := rfl
theorem exec_copy (g : BitVec 4) (q : BitVec 1) (r : BitVec 1) (s_ : BitVec 3) (k : BitVec 6) (m : BitVec 6) (w : BitVec 1) (s : State) : exec (.copy g q r s_ k m w) s = execCopy g q r s_ k m w s := rfl
theorem exec_copym (g : BitVec 4) (q : BitVec 1) (r : BitVec 1) (s_ : BitVec 3) (k : BitVec 6) (m : BitVec 6) (w : BitVec 1) (s : State) : exec (.copym g q r s_ k m w) s = execCopym g q r s_ k m w s := rfl
theorem exec_cexp (g : BitVec 4) (q : BitVec 1) (r : BitVec 1) (s_ : BitVec 3) (k : BitVec 6) (m : BitVec 6) (w : BitVec 1) (s : State) : exec (.cexp g q r s_ k m w) s = execCexp g q r s_ k m w s := rfl
theorem exec_gath (g : BitVec 4) (v : BitVec 5) (s : State) : exec (.gath g v) s = execGath g v s := rfl
theorem exec_pool (g : BitVec 4) (q : BitVec 1) (r : BitVec 1) (s_ : BitVec 3) (k : BitVec 6) (m : BitVec 6) (w : BitVec 1) (s : State) : exec (.pool g q r s_ k m w) s = execPool g q r s_ k m w s := rfl
theorem exec_sfork (g : BitVec 4) (q : BitVec 1) (r : BitVec 1) (s_ : BitVec 3) (k : BitVec 6) (m : BitVec 6) (w : BitVec 1) (s : State) : exec (.sfork g q r s_ k m w) s = execSfork g q r s_ k m w s := rfl
theorem exec_sretire (g : BitVec 4) (q : BitVec 1) (r : BitVec 1) (s_ : BitVec 3) (k : BitVec 6) (m : BitVec 6) (w : BitVec 1) (s : State) : exec (.sretire g q r s_ k m w) s = execSretire g q r s_ k m w s := rfl
theorem exec_stld (g : BitVec 4) (q : BitVec 1) (r : BitVec 1) (s_ : BitVec 3) (k : BitVec 6) (m : BitVec 6) (w : BitVec 1) (s : State) : exec (.stld g q r s_ k m w) s = execStld g q r s_ k m w s := rfl
theorem exec_stinv (g : BitVec 4) (q : BitVec 1) (r : BitVec 1) (s_ : BitVec 3) (k : BitVec 6) (m : BitVec 6) (w : BitVec 1) (s : State) : exec (.stinv g q r s_ k m w) s = execStinv g q r s_ k m w s := rfl
theorem exec_ballast (g : BitVec 4) (q : BitVec 1) (r : BitVec 1) (s_ : BitVec 3) (k : BitVec 6) (m : BitVec 6) (w : BitVec 1) (s : State) : exec (.ballast g q r s_ k m w) s = execBallast g q r s_ k m w s := rfl
theorem exec_fput (g : BitVec 4) (q : BitVec 1) (r : BitVec 1) (s_ : BitVec 3) (k : BitVec 6) (m : BitVec 6) (w : BitVec 1) (s : State) : exec (.fput g q r s_ k m w) s = execFput g q r s_ k m w s := rfl
theorem exec_fget (g : BitVec 4) (q : BitVec 1) (r : BitVec 1) (s_ : BitVec 3) (k : BitVec 6) (m : BitVec 6) (w : BitVec 1) (s : State) : exec (.fget g q r s_ k m w) s = execFget g q r s_ k m w s := rfl
theorem exec_fred (g : BitVec 4) (q : BitVec 1) (r : BitVec 1) (s_ : BitVec 3) (k : BitVec 6) (m : BitVec 6) (w : BitVec 1) (s : State) : exec (.fred g q r s_ k m w) s = execFred g q r s_ k m w s := rfl
theorem exec_launch (g : BitVec 4) (r : BitVec 1) (s_ : BitVec 3) (p : BitVec 3) (s : State) : exec (.launch g r s_ p) s = execLaunch g r s_ p s := rfl
theorem exec_offload (g : BitVec 4) (q : BitVec 1) (r : BitVec 1) (s_ : BitVec 3) (k : BitVec 6) (h : BitVec 6) (s : State) : exec (.offload g q r s_ k h) s = execOffload g q r s_ k h s := rfl
theorem exec_recall (g : BitVec 4) (q : BitVec 1) (r : BitVec 1) (s_ : BitVec 3) (k : BitVec 6) (h : BitVec 6) (s : State) : exec (.recall g q r s_ k h) s = execRecall g q r s_ k h s := rfl
theorem exec_cadd (g : BitVec 4) (o : BitVec 2) (s_ : BitVec 3) (a : BitVec 6) (b : BitVec 6) (s : State) : exec (.cadd g o s_ a b) s = execCadd g o s_ a b s := rfl
theorem exec_cwait (g : BitVec 4) (o : BitVec 2) (s_ : BitVec 3) (a : BitVec 6) (b : BitVec 6) (s : State) : exec (.cwait g o s_ a b) s = execCwait g o s_ a b s := rfl
theorem exec_cread (g : BitVec 4) (o : BitVec 2) (s_ : BitVec 3) (a : BitVec 6) (b : BitVec 6) (s : State) : exec (.cread g o s_ a b) s = execCread g o s_ a b s := rfl
theorem exec_craise (g : BitVec 4) (o : BitVec 2) (s_ : BitVec 3) (a : BitVec 6) (b : BitVec 6) (s : State) : exec (.craise g o s_ a b) s = execCraise g o s_ a b s := rfl
theorem exec_aadd (g : BitVec 4) (d : BitVec 6) (a : BitVec 6) (b : BitVec 6) (s : State) : exec (.aadd g d a b) s = execAadd g d a b s := rfl
theorem exec_amin (g : BitVec 4) (d : BitVec 6) (a : BitVec 6) (b : BitVec 6) (s : State) : exec (.amin g d a b) s = execAmin g d a b s := rfl
theorem exec_amax (g : BitVec 4) (d : BitVec 6) (a : BitVec 6) (b : BitVec 6) (s : State) : exec (.amax g d a b) s = execAmax g d a b s := rfl
theorem exec_axchg (g : BitVec 4) (d : BitVec 6) (a : BitVec 6) (b : BitVec 6) (s : State) : exec (.axchg g d a b) s = execAxchg g d a b s := rfl
theorem exec_acas (g : BitVec 4) (d : BitVec 6) (a : BitVec 6) (b : BitVec 6) (s : State) : exec (.acas g d a b) s = execAcas g d a b s := rfl
theorem exec_aand (g : BitVec 4) (d : BitVec 6) (a : BitVec 6) (b : BitVec 6) (s : State) : exec (.aand g d a b) s = execAand g d a b s := rfl
theorem exec_aor (g : BitVec 4) (d : BitVec 6) (a : BitVec 6) (b : BitVec 6) (s : State) : exec (.aor g d a b) s = execAor g d a b s := rfl
theorem exec_sadd (g : BitVec 4) (d : BitVec 6) (a : BitVec 6) (b : BitVec 6) (s : State) : exec (.sadd g d a b) s = execSadd g d a b s := rfl
theorem exec_fbegin (g : BitVec 4) (f : BitVec 3) (k : BitVec 4) (s_ : BitVec 3) (s : State) : exec (.fbegin g f k s_) s = execFbegin g f k s_ s := rfl
theorem exec_fwait (g : BitVec 4) (f : BitVec 3) (s : State) : exec (.fwait g f) s = execFwait g f s := rfl
theorem exec_join (g : BitVec 4) (o : BitVec 2) (s_ : BitVec 3) (a : BitVec 6) (s : State) : exec (.join g o s_ a) s = execJoin g o s_ a s := rfl
theorem exec_leave (g : BitVec 4) (o : BitVec 2) (s_ : BitVec 3) (a : BitVec 6) (s : State) : exec (.leave g o s_ a) s = execLeave g o s_ a s := rfl
theorem exec_tbar (g : BitVec 4) (o : BitVec 2) (s_ : BitVec 3) (a : BitVec 6) (b : BitVec 6) (s : State) : exec (.tbar g o s_ a b) s = execTbar g o s_ a b s := rfl
theorem exec_tarrive (g : BitVec 4) (o : BitVec 2) (s_ : BitVec 3) (a : BitVec 6) (b : BitVec 6) (s : State) : exec (.tarrive g o s_ a b) s = execTarrive g o s_ a b s := rfl
theorem exec_stepadv (g : BitVec 4) (b : BitVec 6) (s : State) : exec (.stepadv g b) s = execStepadv g b s := rfl
theorem exec_srsv (g : BitVec 4) (d : BitVec 6) (a : BitVec 6) (b : BitVec 6) (s : State) : exec (.srsv g d a b) s = execSrsv g d a b s := rfl
theorem exec_scmt (g : BitVec 4) (a : BitVec 6) (b : BitVec 6) (s : State) : exec (.scmt g a b) s = execScmt g a b s := rfl
theorem exec_spin (g : BitVec 4) (d : BitVec 6) (a : BitVec 6) (b : BitVec 6) (s : State) : exec (.spin g d a b) s = execSpin g d a b s := rfl
theorem exec_sunpin (g : BitVec 4) (d : BitVec 6) (a : BitVec 6) (b : BitVec 6) (s : State) : exec (.sunpin g d a b) s = execSunpin g d a b s := rfl
theorem exec_sqsnap (g : BitVec 4) (d : BitVec 6) (a : BitVec 6) (n : BitVec 2) (s : State) : exec (.sqsnap g d a n) s = execSqsnap g d a n s := rfl
theorem exec_movs (g : BitVec 4) (d : BitVec 6) (n : BitVec 10) (s : State) : exec (.movs g d n) s = execMovs g d n s := rfl
theorem exec_movsw (g : BitVec 4) (a : BitVec 6) (n : BitVec 10) (s : State) : exec (.movsw g a n) s = execMovsw g a n s := rfl
theorem exec_setpri (g : BitVec 4) (a : BitVec 6) (s : State) : exec (.setpri g a) s = execSetpri g a s := rfl
theorem exec_noisectlLive (g : BitVec 4) (s : State) : exec (.noisectlLive g) s = execNoisectlLive g s := rfl
theorem exec_noisectlLog (g : BitVec 4) (a : BitVec 6) (s : State) : exec (.noisectlLog g a) s = execNoisectlLog g a s := rfl
theorem exec_noisectlReplay (g : BitVec 4) (a : BitVec 6) (b : BitVec 6) (s : State) : exec (.noisectlReplay g a b) s = execNoisectlReplay g a b s := rfl
theorem exec_chkmode (g : BitVec 4) (o : BitVec 1) (s : State) : exec (.chkmode g o) s = execChkmode g o s := rfl
theorem exec_traprd (g : BitVec 4) (d : BitVec 6) (n : BitVec 3) (s : State) : exec (.traprd g d n) s = execTraprd g d n s := rfl
theorem exec_idle (g : BitVec 4) (a : BitVec 6) (s : State) : exec (.idle g a) s = execIdle g a s := rfl
theorem exec_lend (c : BitVec 8) (b : BitVec 8) (a : BitVec 8) (s : State) : exec (.lend c b a) s = execLend c b a s := rfl
theorem exec_rep (n : BitVec 8) (z : BitVec 2) (y : BitVec 2) (x : BitVec 2) (s : State) : exec (.rep n z y x) s = execRep n z y x s := rfl
theorem exec_resultLanding (q : SeatId) (s : State) : exec (.resultLanding q) s = execResultLanding q s := rfl
theorem exec_drainBeat (q : SeatId) (s : State) : exec (.drainBeat q) s = execDrainBeat q s := rfl
theorem exec_massAddAnswer (q : SeatId) (s : State) : exec (.massAddAnswer q) s = execMassAddAnswer q s := rfl
theorem exec_homeOperationPerformed (n : Nat) (s : State) : exec (.homeOperationPerformed n) s = execHomeOperationPerformed n s := rfl
theorem exec_counterWaitSatisfied (q : SeatId) (s : State) : exec (.counterWaitSatisfied q) s = execCounterWaitSatisfied q s := rfl
theorem exec_teamBarrierRelease (q : SeatId) (s : State) : exec (.teamBarrierRelease q) s = execTeamBarrierRelease q s := rfl
theorem exec_fencePerformed (q : SeatId) (s : State) : exec (.fencePerformed q) s = execFencePerformed q s := rfl
theorem exec_idleExpiry (q : SeatId) (s : State) : exec (.idleExpiry q) s = execIdleExpiry q s := rfl
theorem exec_watchConditionMet (n : Nat) (s : State) : exec (.watchConditionMet n) s = execWatchConditionMet n s := rfl
theorem exec_strandPlacement (f : Nat) (s : State) : exec (.strandPlacement f) s = execStrandPlacement f s := rfl
theorem exec_recordCreationRetry (f : Nat) (s : State) : exec (.recordCreationRetry f) s = execRecordCreationRetry f s := rfl
theorem exec_preemption (q : SeatId) (s : State) : exec (.preemption q) s = execPreemption q s := rfl
theorem exec_gangQuantumExpiry (f : Nat) (s : State) : exec (.gangQuantumExpiry f) s = execGangQuantumExpiry f s := rfl
theorem exec_agingPeriodExpiry (f n : Nat) (s : State) : exec (.agingPeriodExpiry f n) s = execAgingPeriodExpiry f n s := rfl
theorem exec_balancingTick (f : Nat) (s : State) : exec (.balancingTick f) s = execBalancingTick f s := rfl
theorem exec_triggerFire (f n : Nat) (s : State) : exec (.triggerFire f n) s = execTriggerFire f n s := rfl
theorem exec_engineNodeFire (f n : Nat) (s : State) : exec (.engineNodeFire f n) s = execEngineNodeFire f n s := rfl
theorem exec_pendingEntryFreed (f : Nat) (s : State) : exec (.pendingEntryFreed f) s = execPendingEntryFreed f s := rfl
theorem exec_launchCompletion (l : Nat) (s : State) : exec (.launchCompletion l) s = execLaunchCompletion l s := rfl
theorem exec_submissionConsume (f : Nat) (s : State) : exec (.submissionConsume f) s = execSubmissionConsume f s := rfl
theorem exec_copyCompletion (c : Nat) (s : State) : exec (.copyCompletion c) s = execCopyCompletion c s := rfl
theorem exec_copymCompletion (c : Nat) (s : State) : exec (.copymCompletion c) s = execCopymCompletion c s := rfl
theorem exec_cexpCompletion (c : Nat) (s : State) : exec (.cexpCompletion c) s = execCexpCompletion c s := rfl
theorem exec_poolCompletion (c : Nat) (s : State) : exec (.poolCompletion c) s = execPoolCompletion c s := rfl
theorem exec_sforkCompletion (c : Nat) (s : State) : exec (.sforkCompletion c) s = execSforkCompletion c s := rfl
theorem exec_sretirePass (c : Nat) (s : State) : exec (.sretirePass c) s = execSretirePass c s := rfl
theorem exec_stldCompletion (c : Nat) (s : State) : exec (.stldCompletion c) s = execStldCompletion c s := rfl
theorem exec_stinvCompletion (c : Nat) (s : State) : exec (.stinvCompletion c) s = execStinvCompletion c s := rfl
theorem exec_ballastPass (c : Nat) (s : State) : exec (.ballastPass c) s = execBallastPass c s := rfl
theorem exec_fputCompletion (c : Nat) (s : State) : exec (.fputCompletion c) s = execFputCompletion c s := rfl
theorem exec_fgetCompletion (c : Nat) (s : State) : exec (.fgetCompletion c) s = execFgetCompletion c s := rfl
theorem exec_fredContribution (w port : Nat) (c : Option Nat) (data : List (BitVec 8)) (s : State) : exec (.fredContribution w port c data) s = execFredContribution w port c data s := rfl
theorem exec_fredAcknowledge (c : Nat) (s : State) : exec (.fredAcknowledge c) s = execFredAcknowledge c s := rfl
theorem exec_reductionRoundTimeout (w : Nat) (s : State) : exec (.reductionRoundTimeout w) s = execReductionRoundTimeout w s := rfl
theorem exec_reductionWindowAck (w : Nat) (s : State) : exec (.reductionWindowAck w) s = execReductionWindowAck w s := rfl
theorem exec_offloadCompletion (c : Nat) (s : State) : exec (.offloadCompletion c) s = execOffloadCompletion c s := rfl
theorem exec_recallCompletion (c : Nat) (s : State) : exec (.recallCompletion c) s = execRecallCompletion c s := rfl
theorem exec_engineFailure (c : Nat) (code : BitVec 8) (s : State) : exec (.engineFailure c code) s = execEngineFailure c code s := rfl
theorem exec_stampSweep (asid : BitVec 16) (s : State) : exec (.stampSweep asid) s = execStampSweep asid s := rfl
theorem exec_saffronBlock (f : Nat) (pass : Bool) (s : State) : exec (.saffronBlock f pass) s = execSaffronBlock f pass s := rfl
theorem exec_iestUpdate (f : Nat) (amps : BitVec 16) (s : State) : exec (.iestUpdate f amps) s = execIestUpdate f amps s := rfl
theorem exec_pllRelockDone (f : Nat) (s : State) : exec (.pllRelockDone f) s = execPllRelockDone f s := rfl
theorem exec_generationPurgeDone (asid : BitVec 16) (s : State) : exec (.generationPurgeDone asid) s = execGenerationPurgeDone asid s := rfl
theorem exec_eccWriteback (addr : Nat) (s : State) : exec (.eccWriteback addr) s = execEccWriteback addr s := rfl
theorem exec_bridleXoff (link lane : Nat) (s : State) : exec (.bridleXoff link lane) s = execBridleXoff link lane s := rfl
theorem exec_bridleXon (link lane : Nat) (s : State) : exec (.bridleXon link lane) s = execBridleXon link lane s := rfl
theorem exec_bridleReplayRequest (link : Nat) (ok : Bool) (s : State) : exec (.bridleReplayRequest link ok) s = execBridleReplayRequest link ok s := rfl
theorem exec_linkTrainingDone (link : Nat) (s : State) : exec (.linkTrainingDone link) s = execLinkTrainingDone link s := rfl
theorem exec_linkTrainingTimeout (link : Nat) (s : State) : exec (.linkTrainingTimeout link) s = execLinkTrainingTimeout link s := rfl
theorem exec_portsemWrite (port : Nat) (v : BitVec 64) (s : State) : exec (.portsemWrite port v) s = execPortsemWrite port v s := rfl
theorem exec_islandWrite (port f : Nat) (v : BitVec 64) (s : State) : exec (.islandWrite port f v) s = execIslandWrite port f v s := rfl
theorem exec_drawWrite (port : Nat) (v : BitVec 64) (s : State) : exec (.drawWrite port v) s = execDrawWrite port v s := rfl
theorem exec_w2baseWrite (port : Nat) (v : BitVec 64) (s : State) : exec (.w2baseWrite port v) s = execW2baseWrite port v s := rfl
theorem exec_bar2Access (port off : Nat) (w : Option (List (BitVec 8))) (s : State) : exec (.bar2Access port off w) s = execBar2Access port off w s := rfl
theorem exec_qgoRegister (port : Nat) (s : State) : exec (.qgoRegister port) s = execQgoRegister port s := rfl
theorem exec_qgoRetire (port : Nat) (s : State) : exec (.qgoRetire port) s = execQgoRetire port s := rfl
theorem exec_qgoInvalid (port : Nat) (s : State) : exec (.qgoInvalid port) s = execQgoInvalid port s := rfl
theorem exec_qappReserve (port : Nat) (v : BitVec 64) (s : State) : exec (.qappReserve port v) s = execQappReserve port v s := rfl
theorem exec_qappCommit (port : Nat) (v : BitVec 64) (s : State) : exec (.qappCommit port v) s = execQappCommit port v s := rfl
theorem exec_wgoArm (port : Nat) (s : State) : exec (.wgoArm port) s = execWgoArm port s := rfl
theorem exec_watchStoreArm (port : Nat) (s : State) : exec (.watchStoreArm port) s = execWatchStoreArm port s := rfl
theorem exec_watchFire (n : Nat) (s : State) : exec (.watchFire n) s = execWatchFire n s := rfl
theorem exec_scmdSeal (port : Nat) (s : State) : exec (.scmdSeal port) s = execScmdSeal port s := rfl
theorem exec_scmdVerify (port : Nat) (s : State) : exec (.scmdVerify port) s = execScmdVerify port s := rfl
theorem exec_scmdAttest (port : Nat) (s : State) : exec (.scmdAttest port) s = execScmdAttest port s := rfl
theorem exec_scmdLoadState (port : Nat) (s : State) : exec (.scmdLoadState port) s = execScmdLoadState port s := rfl
theorem exec_securityCommandDone (s : State) : exec (.securityCommandDone) s = execSecurityCommandDone s := rfl
theorem exec_fwcmdFetchVerify (port : Nat) (s : State) : exec (.fwcmdFetchVerify port) s = execFwcmdFetchVerify port s := rfl
theorem exec_fwcmdWriteFlash (port : Nat) (s : State) : exec (.fwcmdWriteFlash port) s = execFwcmdWriteFlash port s := rfl
theorem exec_fwCommandDone (s : State) : exec (.fwCommandDone) s = execFwCommandDone s := rfl
theorem exec_fselfWrite (port : Nat) (v : BitVec 64) (s : State) : exec (.fselfWrite port v) s = execFselfWrite port v s := rfl
theorem exec_fretrainWrite (port : Nat) (v : BitVec 64) (s : State) : exec (.fretrainWrite port v) s = execFretrainWrite port v s := rfl
theorem exec_fredWindowSet (port w : Nat) (v : BitVec 64) (s : State) : exec (.fredWindowSet port w v) s = execFredWindowSet port w v s := rfl
theorem exec_fredWindowClear (port w : Nat) (v : BitVec 64) (s : State) : exec (.fredWindowClear port w v) s = execFredWindowClear port w v s := rfl
theorem exec_migrQuiesce (port : Nat) (asid : BitVec 16) (s : State) : exec (.migrQuiesce port asid) s = execMigrQuiesce port asid s := rfl
theorem exec_migrRelease (port : Nat) (asid : BitVec 16) (s : State) : exec (.migrRelease port asid) s = execMigrRelease port asid s := rfl
theorem exec_quiesceDone (asid : BitVec 16) (s : State) : exec (.quiesceDone asid) s = execQuiesceDone asid s := rfl
theorem exec_registerWrite (port off : Nat) (v : BitVec 64) (s : State) : exec (.registerWrite port off v) s = execRegisterWrite port off v s := rfl
theorem exec_portLinkDown (port : Nat) (s : State) : exec (.portLinkDown port) s = execPortLinkDown port s := rfl
theorem exec_hotReset (s : State) : exec (.hotReset) s = execHotReset s := rfl
theorem exec_keelPowerOn (image : List Byte) (failed : Nat) (s : State) : exec (.keelPowerOn image failed) s = execKeelPowerOn image failed s := rfl
theorem exec_fieldPowerGood (f : Nat) (s : State) : exec (.fieldPowerGood f) s = execFieldPowerGood f s := rfl
theorem exec_fieldPowerGoodTimeout (f : Nat) (s : State) : exec (.fieldPowerGoodTimeout f) s = execFieldPowerGoodTimeout f s := rfl
theorem exec_fieldPllLock (f : Nat) (s : State) : exec (.fieldPllLock f) s = execFieldPllLock f s := rfl
theorem exec_fieldPllLockTimeout (f : Nat) (s : State) : exec (.fieldPllLockTimeout f) s = execFieldPllLockTimeout f s := rfl
theorem exec_fieldBistDone (f failed : Nat) (s : State) : exec (.fieldBistDone f failed) s = execFieldBistDone f failed s := rfl
theorem exec_fieldBistTimeout (f : Nat) (s : State) : exec (.fieldBistTimeout f) s = execFieldBistTimeout f s := rfl
theorem exec_crossingTrained (f g : Nat) (s : State) : exec (.crossingTrained f g) s = execCrossingTrained f g s := rfl
theorem exec_crossingTrainTimeout (f g : Nat) (s : State) : exec (.crossingTrainTimeout f g) s = execCrossingTrainTimeout f g s := rfl
theorem exec_crossingTrainingLoss (f g : Nat) (s : State) : exec (.crossingTrainingLoss f g) s = execCrossingTrainingLoss f g s := rfl
theorem exec_illegalBundle (mask : BitVec 4) (reason : BitVec 8) (s : State) : exec (.illegalBundle mask reason) s = execIllegalBundle mask reason s := rfl
theorem exec_fabricPortRequest (asid : BitVec 16) (addr : BitVec 64) (op : FabricOp) (s : State) : exec (.fabricPortRequest asid addr op) s = execFabricPortRequest asid addr op s := rfl
theorem exec_hdmAccess (port off : Nat) (w : Option (List (BitVec 8))) (s : State) : exec (.hdmAccess port off w) s = execHdmAccess port off w s := rfl
theorem exec_cxlCacheSnoop (addr : Nat) (s : State) : exec (.cxlCacheSnoop addr) s = execCxlCacheSnoop addr s := rfl

end Sys2Proof.Machine
end

