-- ==== Sys2Proof/Laws/State.lean ====
section
/-!
SUPPORT. One lemma for each field of the state under each update of it, so that no proof unfolds a record update; and the strand that a
seat holds after an update.
-/

namespace Sys2Proof.Machine

/-! ### A strand put on a seat -/

@[simp] theorem State.putStrand_mem (s : State) (q : SeatId) (st : Strand) : (s.putStrand q st).mem = s.mem := rfl
@[simp] theorem State.putStrand_poison (s : State) (q : SeatId) (st : Strand) : (s.putStrand q st).poison = s.poison := rfl
@[simp] theorem State.putStrand_codePoison (s : State) (q : SeatId) (st : Strand) : (s.putStrand q st).codePoison = s.codePoison := rfl
@[simp] theorem State.putStrand_streams (s : State) (q : SeatId) (st : Strand) : (s.putStrand q st).streams = s.streams := rfl
@[simp] theorem State.putStrand_stm (s : State) (q : SeatId) (st : Strand) : (s.putStrand q st).stm = s.stm := rfl
@[simp] theorem State.putStrand_windows (s : State) (q : SeatId) (st : Strand) : (s.putStrand q st).windows = s.windows := rfl
@[simp] theorem State.putStrand_fields (s : State) (q : SeatId) (st : Strand) : (s.putStrand q st).fields = s.fields := rfl
@[simp] theorem State.putStrand_keel (s : State) (q : SeatId) (st : Strand) : (s.putStrand q st).keel = s.keel := rfl
@[simp] theorem State.putStrand_bringup (s : State) (q : SeatId) (st : Strand) : (s.putStrand q st).bringup = s.bringup := rfl
@[simp] theorem State.putStrand_images (s : State) (q : SeatId) (st : Strand) : (s.putStrand q st).images = s.images := rfl
@[simp] theorem State.putStrand_launches (s : State) (q : SeatId) (st : Strand) : (s.putStrand q st).launches = s.launches := rfl
@[simp] theorem State.putStrand_cmds (s : State) (q : SeatId) (st : Strand) : (s.putStrand q st).cmds = s.cmds := rfl
@[simp] theorem State.putStrand_flight (s : State) (q : SeatId) (st : Strand) : (s.putStrand q st).flight = s.flight := rfl
@[simp] theorem State.putStrand_watches (s : State) (q : SeatId) (st : Strand) : (s.putStrand q st).watches = s.watches := rfl
@[simp] theorem State.putStrand_saved (s : State) (q : SeatId) (st : Strand) : (s.putStrand q st).saved = s.saved := rfl
@[simp] theorem State.putStrand_wanted (s : State) (q : SeatId) (st : Strand) : (s.putStrand q st).wanted = s.wanted := rfl
@[simp] theorem State.putStrand_gangs (s : State) (q : SeatId) (st : Strand) : (s.putStrand q st).gangs = s.gangs := rfl
@[simp] theorem State.putStrand_quiesced (s : State) (q : SeatId) (st : Strand) : (s.putStrand q st).quiesced = s.quiesced := rfl
@[simp] theorem State.putStrand_quiescing (s : State) (q : SeatId) (st : Strand) : (s.putStrand q st).quiescing = s.quiescing := rfl
@[simp] theorem State.putStrand_savedCount (s : State) (q : SeatId) (st : Strand) : (s.putStrand q st).savedCount = s.savedCount := rfl
@[simp] theorem State.putStrand_migr (s : State) (q : SeatId) (st : Strand) : (s.putStrand q st).migr = s.migr := rfl
@[simp] theorem State.putStrand_migrDone (s : State) (q : SeatId) (st : Strand) : (s.putStrand q st).migrDone = s.migrDone := rfl
@[simp] theorem State.putStrand_xlat (s : State) (q : SeatId) (st : Strand) : (s.putStrand q st).xlat = s.xlat := rfl
@[simp] theorem State.putStrand_swept (s : State) (q : SeatId) (st : Strand) : (s.putStrand q st).swept = s.swept := rfl
@[simp] theorem State.putStrand_semOwner (s : State) (q : SeatId) (st : Strand) : (s.putStrand q st).semOwner = s.semOwner := rfl
@[simp] theorem State.putStrand_semErr (s : State) (q : SeatId) (st : Strand) : (s.putStrand q st).semErr = s.semErr := rfl
@[simp] theorem State.putStrand_drawA (s : State) (q : SeatId) (st : Strand) : (s.putStrand q st).drawA = s.drawA := rfl
@[simp] theorem State.putStrand_gquant (s : State) (q : SeatId) (st : Strand) : (s.putStrand q st).gquant = s.gquant := rfl
@[simp] theorem State.putStrand_ports (s : State) (q : SeatId) (st : Strand) : (s.putStrand q st).ports = s.ports := rfl
@[simp] theorem State.putStrand_security (s : State) (q : SeatId) (st : Strand) : (s.putStrand q st).security = s.security := rfl
@[simp] theorem State.putStrand_fabric (s : State) (q : SeatId) (st : Strand) : (s.putStrand q st).fabric = s.fabric := rfl
@[simp] theorem State.putStrand_irqs (s : State) (q : SeatId) (st : Strand) : (s.putStrand q st).irqs = s.irqs := rfl
@[simp] theorem State.putStrand_aer (s : State) (q : SeatId) (st : Strand) : (s.putStrand q st).aer = s.aer := rfl
@[simp] theorem State.putStrand_cur (s : State) (q : SeatId) (st : Strand) : (s.putStrand q st).cur = s.cur := rfl
@[simp] theorem State.putStrand_inputs (s : State) (q : SeatId) (st : Strand) : (s.putStrand q st).inputs = s.inputs := rfl
@[simp] theorem State.putStrand_raised (s : State) (q : SeatId) (st : Strand) : (s.putStrand q st).raised = s.raised := rfl
@[simp] theorem State.putStrand_inBundle (s : State) (q : SeatId) (st : Strand) : (s.putStrand q st).inBundle = s.inBundle := rfl
@[simp] theorem State.putStrand_result (s : State) (q : SeatId) (st : Strand) : (s.putStrand q st).result = s.result := rfl
@[simp] theorem State.putStrand_fresh (s : State) (q : SeatId) (st : Strand) : (s.putStrand q st).fresh = s.fresh := rfl
@[simp] theorem State.putStrand_tick (s : State) (q : SeatId) (st : Strand) : (s.putStrand q st).tick = s.tick := rfl
@[simp] theorem State.putStrand_nextId (s : State) (q : SeatId) (st : Strand) : (s.putStrand q st).nextId = s.nextId := rfl
@[simp] theorem State.setStrand_mem (s : State) (st : Strand) : (s.setStrand st).mem = s.mem := rfl
@[simp] theorem State.setStrand_poison (s : State) (st : Strand) : (s.setStrand st).poison = s.poison := rfl
@[simp] theorem State.setStrand_codePoison (s : State) (st : Strand) : (s.setStrand st).codePoison = s.codePoison := rfl
@[simp] theorem State.setStrand_streams (s : State) (st : Strand) : (s.setStrand st).streams = s.streams := rfl
@[simp] theorem State.setStrand_stm (s : State) (st : Strand) : (s.setStrand st).stm = s.stm := rfl
@[simp] theorem State.setStrand_windows (s : State) (st : Strand) : (s.setStrand st).windows = s.windows := rfl
@[simp] theorem State.setStrand_fields (s : State) (st : Strand) : (s.setStrand st).fields = s.fields := rfl
@[simp] theorem State.setStrand_keel (s : State) (st : Strand) : (s.setStrand st).keel = s.keel := rfl
@[simp] theorem State.setStrand_bringup (s : State) (st : Strand) : (s.setStrand st).bringup = s.bringup := rfl
@[simp] theorem State.setStrand_images (s : State) (st : Strand) : (s.setStrand st).images = s.images := rfl
@[simp] theorem State.setStrand_launches (s : State) (st : Strand) : (s.setStrand st).launches = s.launches := rfl
@[simp] theorem State.setStrand_cmds (s : State) (st : Strand) : (s.setStrand st).cmds = s.cmds := rfl
@[simp] theorem State.setStrand_flight (s : State) (st : Strand) : (s.setStrand st).flight = s.flight := rfl
@[simp] theorem State.setStrand_watches (s : State) (st : Strand) : (s.setStrand st).watches = s.watches := rfl
@[simp] theorem State.setStrand_saved (s : State) (st : Strand) : (s.setStrand st).saved = s.saved := rfl
@[simp] theorem State.setStrand_wanted (s : State) (st : Strand) : (s.setStrand st).wanted = s.wanted := rfl
@[simp] theorem State.setStrand_gangs (s : State) (st : Strand) : (s.setStrand st).gangs = s.gangs := rfl
@[simp] theorem State.setStrand_quiesced (s : State) (st : Strand) : (s.setStrand st).quiesced = s.quiesced := rfl
@[simp] theorem State.setStrand_quiescing (s : State) (st : Strand) : (s.setStrand st).quiescing = s.quiescing := rfl
@[simp] theorem State.setStrand_savedCount (s : State) (st : Strand) : (s.setStrand st).savedCount = s.savedCount := rfl
@[simp] theorem State.setStrand_migr (s : State) (st : Strand) : (s.setStrand st).migr = s.migr := rfl
@[simp] theorem State.setStrand_migrDone (s : State) (st : Strand) : (s.setStrand st).migrDone = s.migrDone := rfl
@[simp] theorem State.setStrand_xlat (s : State) (st : Strand) : (s.setStrand st).xlat = s.xlat := rfl
@[simp] theorem State.setStrand_swept (s : State) (st : Strand) : (s.setStrand st).swept = s.swept := rfl
@[simp] theorem State.setStrand_semOwner (s : State) (st : Strand) : (s.setStrand st).semOwner = s.semOwner := rfl
@[simp] theorem State.setStrand_semErr (s : State) (st : Strand) : (s.setStrand st).semErr = s.semErr := rfl
@[simp] theorem State.setStrand_drawA (s : State) (st : Strand) : (s.setStrand st).drawA = s.drawA := rfl
@[simp] theorem State.setStrand_gquant (s : State) (st : Strand) : (s.setStrand st).gquant = s.gquant := rfl
@[simp] theorem State.setStrand_ports (s : State) (st : Strand) : (s.setStrand st).ports = s.ports := rfl
@[simp] theorem State.setStrand_security (s : State) (st : Strand) : (s.setStrand st).security = s.security := rfl
@[simp] theorem State.setStrand_fabric (s : State) (st : Strand) : (s.setStrand st).fabric = s.fabric := rfl
@[simp] theorem State.setStrand_irqs (s : State) (st : Strand) : (s.setStrand st).irqs = s.irqs := rfl
@[simp] theorem State.setStrand_aer (s : State) (st : Strand) : (s.setStrand st).aer = s.aer := rfl
@[simp] theorem State.setStrand_cur (s : State) (st : Strand) : (s.setStrand st).cur = s.cur := rfl
@[simp] theorem State.setStrand_inputs (s : State) (st : Strand) : (s.setStrand st).inputs = s.inputs := rfl
@[simp] theorem State.setStrand_raised (s : State) (st : Strand) : (s.setStrand st).raised = s.raised := rfl
@[simp] theorem State.setStrand_inBundle (s : State) (st : Strand) : (s.setStrand st).inBundle = s.inBundle := rfl
@[simp] theorem State.setStrand_result (s : State) (st : Strand) : (s.setStrand st).result = s.result := rfl
@[simp] theorem State.setStrand_fresh (s : State) (st : Strand) : (s.setStrand st).fresh = s.fresh := rfl
@[simp] theorem State.setStrand_tick (s : State) (st : Strand) : (s.setStrand st).tick = s.tick := rfl
@[simp] theorem State.setStrand_nextId (s : State) (st : Strand) : (s.setStrand st).nextId = s.nextId := rfl
@[simp] theorem State.freeSeat_mem (s : State) (q : SeatId) : (s.freeSeat q).mem = s.mem := rfl
@[simp] theorem State.freeSeat_poison (s : State) (q : SeatId) : (s.freeSeat q).poison = s.poison := rfl
@[simp] theorem State.freeSeat_codePoison (s : State) (q : SeatId) : (s.freeSeat q).codePoison = s.codePoison := rfl
@[simp] theorem State.freeSeat_streams (s : State) (q : SeatId) : (s.freeSeat q).streams = s.streams := rfl
@[simp] theorem State.freeSeat_stm (s : State) (q : SeatId) : (s.freeSeat q).stm = s.stm := rfl
@[simp] theorem State.freeSeat_windows (s : State) (q : SeatId) : (s.freeSeat q).windows = s.windows := rfl
@[simp] theorem State.freeSeat_fields (s : State) (q : SeatId) : (s.freeSeat q).fields = s.fields := rfl
@[simp] theorem State.freeSeat_keel (s : State) (q : SeatId) : (s.freeSeat q).keel = s.keel := rfl
@[simp] theorem State.freeSeat_bringup (s : State) (q : SeatId) : (s.freeSeat q).bringup = s.bringup := rfl
@[simp] theorem State.freeSeat_images (s : State) (q : SeatId) : (s.freeSeat q).images = s.images := rfl
@[simp] theorem State.freeSeat_launches (s : State) (q : SeatId) : (s.freeSeat q).launches = s.launches := rfl
@[simp] theorem State.freeSeat_cmds (s : State) (q : SeatId) : (s.freeSeat q).cmds = s.cmds := rfl
@[simp] theorem State.freeSeat_flight (s : State) (q : SeatId) : (s.freeSeat q).flight = s.flight := rfl
@[simp] theorem State.freeSeat_watches (s : State) (q : SeatId) : (s.freeSeat q).watches = s.watches := rfl
@[simp] theorem State.freeSeat_saved (s : State) (q : SeatId) : (s.freeSeat q).saved = s.saved := rfl
@[simp] theorem State.freeSeat_gangs (s : State) (q : SeatId) : (s.freeSeat q).gangs = s.gangs := rfl
@[simp] theorem State.freeSeat_quiesced (s : State) (q : SeatId) : (s.freeSeat q).quiesced = s.quiesced := rfl
@[simp] theorem State.freeSeat_quiescing (s : State) (q : SeatId) : (s.freeSeat q).quiescing = s.quiescing := rfl
@[simp] theorem State.freeSeat_savedCount (s : State) (q : SeatId) : (s.freeSeat q).savedCount = s.savedCount := rfl
@[simp] theorem State.freeSeat_migr (s : State) (q : SeatId) : (s.freeSeat q).migr = s.migr := rfl
@[simp] theorem State.freeSeat_migrDone (s : State) (q : SeatId) : (s.freeSeat q).migrDone = s.migrDone := rfl
@[simp] theorem State.freeSeat_xlat (s : State) (q : SeatId) : (s.freeSeat q).xlat = s.xlat := rfl
@[simp] theorem State.freeSeat_swept (s : State) (q : SeatId) : (s.freeSeat q).swept = s.swept := rfl
@[simp] theorem State.freeSeat_semOwner (s : State) (q : SeatId) : (s.freeSeat q).semOwner = s.semOwner := rfl
@[simp] theorem State.freeSeat_semErr (s : State) (q : SeatId) : (s.freeSeat q).semErr = s.semErr := rfl
@[simp] theorem State.freeSeat_drawA (s : State) (q : SeatId) : (s.freeSeat q).drawA = s.drawA := rfl
@[simp] theorem State.freeSeat_gquant (s : State) (q : SeatId) : (s.freeSeat q).gquant = s.gquant := rfl
@[simp] theorem State.freeSeat_ports (s : State) (q : SeatId) : (s.freeSeat q).ports = s.ports := rfl
@[simp] theorem State.freeSeat_security (s : State) (q : SeatId) : (s.freeSeat q).security = s.security := rfl
@[simp] theorem State.freeSeat_fabric (s : State) (q : SeatId) : (s.freeSeat q).fabric = s.fabric := rfl
@[simp] theorem State.freeSeat_irqs (s : State) (q : SeatId) : (s.freeSeat q).irqs = s.irqs := rfl
@[simp] theorem State.freeSeat_aer (s : State) (q : SeatId) : (s.freeSeat q).aer = s.aer := rfl
@[simp] theorem State.freeSeat_cur (s : State) (q : SeatId) : (s.freeSeat q).cur = s.cur := rfl
@[simp] theorem State.freeSeat_inputs (s : State) (q : SeatId) : (s.freeSeat q).inputs = s.inputs := rfl
@[simp] theorem State.freeSeat_raised (s : State) (q : SeatId) : (s.freeSeat q).raised = s.raised := rfl
@[simp] theorem State.freeSeat_inBundle (s : State) (q : SeatId) : (s.freeSeat q).inBundle = s.inBundle := rfl
@[simp] theorem State.freeSeat_result (s : State) (q : SeatId) : (s.freeSeat q).result = s.result := rfl
@[simp] theorem State.freeSeat_fresh (s : State) (q : SeatId) : (s.freeSeat q).fresh = s.fresh := rfl
@[simp] theorem State.freeSeat_tick (s : State) (q : SeatId) : (s.freeSeat q).tick = s.tick := rfl
@[simp] theorem State.freeSeat_nextId (s : State) (q : SeatId) : (s.freeSeat q).nextId = s.nextId := rfl

/-! ### Bytes written -/

@[simp] theorem State.writePhys_codePoison (s : State) (a : Nat) (bs : List Byte) : (s.writePhys a bs).codePoison = s.codePoison := rfl
@[simp] theorem State.writePhys_seats (s : State) (a : Nat) (bs : List Byte) : (s.writePhys a bs).seats = s.seats := rfl
@[simp] theorem State.writePhys_streams (s : State) (a : Nat) (bs : List Byte) : (s.writePhys a bs).streams = s.streams := rfl
@[simp] theorem State.writePhys_stm (s : State) (a : Nat) (bs : List Byte) : (s.writePhys a bs).stm = s.stm := rfl
@[simp] theorem State.writePhys_windows (s : State) (a : Nat) (bs : List Byte) : (s.writePhys a bs).windows = s.windows := rfl
@[simp] theorem State.writePhys_fields (s : State) (a : Nat) (bs : List Byte) : (s.writePhys a bs).fields = s.fields := rfl
@[simp] theorem State.writePhys_keel (s : State) (a : Nat) (bs : List Byte) : (s.writePhys a bs).keel = s.keel := rfl
@[simp] theorem State.writePhys_bringup (s : State) (a : Nat) (bs : List Byte) : (s.writePhys a bs).bringup = s.bringup := rfl
@[simp] theorem State.writePhys_images (s : State) (a : Nat) (bs : List Byte) : (s.writePhys a bs).images = s.images := rfl
@[simp] theorem State.writePhys_launches (s : State) (a : Nat) (bs : List Byte) : (s.writePhys a bs).launches = s.launches := rfl
@[simp] theorem State.writePhys_cmds (s : State) (a : Nat) (bs : List Byte) : (s.writePhys a bs).cmds = s.cmds := rfl
@[simp] theorem State.writePhys_flight (s : State) (a : Nat) (bs : List Byte) : (s.writePhys a bs).flight = s.flight := rfl
@[simp] theorem State.writePhys_watches (s : State) (a : Nat) (bs : List Byte) : (s.writePhys a bs).watches = s.watches := rfl
@[simp] theorem State.writePhys_saved (s : State) (a : Nat) (bs : List Byte) : (s.writePhys a bs).saved = s.saved := rfl
@[simp] theorem State.writePhys_wanted (s : State) (a : Nat) (bs : List Byte) : (s.writePhys a bs).wanted = s.wanted := rfl
@[simp] theorem State.writePhys_gangs (s : State) (a : Nat) (bs : List Byte) : (s.writePhys a bs).gangs = s.gangs := rfl
@[simp] theorem State.writePhys_quiesced (s : State) (a : Nat) (bs : List Byte) : (s.writePhys a bs).quiesced = s.quiesced := rfl
@[simp] theorem State.writePhys_quiescing (s : State) (a : Nat) (bs : List Byte) : (s.writePhys a bs).quiescing = s.quiescing := rfl
@[simp] theorem State.writePhys_savedCount (s : State) (a : Nat) (bs : List Byte) : (s.writePhys a bs).savedCount = s.savedCount := rfl
@[simp] theorem State.writePhys_migr (s : State) (a : Nat) (bs : List Byte) : (s.writePhys a bs).migr = s.migr := rfl
@[simp] theorem State.writePhys_migrDone (s : State) (a : Nat) (bs : List Byte) : (s.writePhys a bs).migrDone = s.migrDone := rfl
@[simp] theorem State.writePhys_xlat (s : State) (a : Nat) (bs : List Byte) : (s.writePhys a bs).xlat = s.xlat := rfl
@[simp] theorem State.writePhys_swept (s : State) (a : Nat) (bs : List Byte) : (s.writePhys a bs).swept = s.swept := rfl
@[simp] theorem State.writePhys_semOwner (s : State) (a : Nat) (bs : List Byte) : (s.writePhys a bs).semOwner = s.semOwner := rfl
@[simp] theorem State.writePhys_semErr (s : State) (a : Nat) (bs : List Byte) : (s.writePhys a bs).semErr = s.semErr := rfl
@[simp] theorem State.writePhys_drawA (s : State) (a : Nat) (bs : List Byte) : (s.writePhys a bs).drawA = s.drawA := rfl
@[simp] theorem State.writePhys_gquant (s : State) (a : Nat) (bs : List Byte) : (s.writePhys a bs).gquant = s.gquant := rfl
@[simp] theorem State.writePhys_ports (s : State) (a : Nat) (bs : List Byte) : (s.writePhys a bs).ports = s.ports := rfl
@[simp] theorem State.writePhys_security (s : State) (a : Nat) (bs : List Byte) : (s.writePhys a bs).security = s.security := rfl
@[simp] theorem State.writePhys_fabric (s : State) (a : Nat) (bs : List Byte) : (s.writePhys a bs).fabric = s.fabric := rfl
@[simp] theorem State.writePhys_irqs (s : State) (a : Nat) (bs : List Byte) : (s.writePhys a bs).irqs = s.irqs := rfl
@[simp] theorem State.writePhys_aer (s : State) (a : Nat) (bs : List Byte) : (s.writePhys a bs).aer = s.aer := rfl
@[simp] theorem State.writePhys_cur (s : State) (a : Nat) (bs : List Byte) : (s.writePhys a bs).cur = s.cur := rfl
@[simp] theorem State.writePhys_inputs (s : State) (a : Nat) (bs : List Byte) : (s.writePhys a bs).inputs = s.inputs := rfl
@[simp] theorem State.writePhys_raised (s : State) (a : Nat) (bs : List Byte) : (s.writePhys a bs).raised = s.raised := rfl
@[simp] theorem State.writePhys_inBundle (s : State) (a : Nat) (bs : List Byte) : (s.writePhys a bs).inBundle = s.inBundle := rfl
@[simp] theorem State.writePhys_result (s : State) (a : Nat) (bs : List Byte) : (s.writePhys a bs).result = s.result := rfl
@[simp] theorem State.writePhys_fresh (s : State) (a : Nat) (bs : List Byte) : (s.writePhys a bs).fresh = s.fresh := rfl
@[simp] theorem State.writePhys_tick (s : State) (a : Nat) (bs : List Byte) : (s.writePhys a bs).tick = s.tick := rfl
@[simp] theorem State.writePhys_nextId (s : State) (a : Nat) (bs : List Byte) : (s.writePhys a bs).nextId = s.nextId := rfl
@[simp] theorem State.writePhys_mem (s : State) (a : Nat) (bs : List Byte) : (s.writePhys a bs).mem = memWrites s.mem a bs := rfl
@[simp] theorem State.putNat_codePoison (s : State) (a n v : Nat) : (s.putNat a n v).codePoison = s.codePoison := rfl
@[simp] theorem State.putNat_seats (s : State) (a n v : Nat) : (s.putNat a n v).seats = s.seats := rfl
@[simp] theorem State.putNat_streams (s : State) (a n v : Nat) : (s.putNat a n v).streams = s.streams := rfl
@[simp] theorem State.putNat_stm (s : State) (a n v : Nat) : (s.putNat a n v).stm = s.stm := rfl
@[simp] theorem State.putNat_windows (s : State) (a n v : Nat) : (s.putNat a n v).windows = s.windows := rfl
@[simp] theorem State.putNat_fields (s : State) (a n v : Nat) : (s.putNat a n v).fields = s.fields := rfl
@[simp] theorem State.putNat_keel (s : State) (a n v : Nat) : (s.putNat a n v).keel = s.keel := rfl
@[simp] theorem State.putNat_bringup (s : State) (a n v : Nat) : (s.putNat a n v).bringup = s.bringup := rfl
@[simp] theorem State.putNat_images (s : State) (a n v : Nat) : (s.putNat a n v).images = s.images := rfl
@[simp] theorem State.putNat_launches (s : State) (a n v : Nat) : (s.putNat a n v).launches = s.launches := rfl
@[simp] theorem State.putNat_cmds (s : State) (a n v : Nat) : (s.putNat a n v).cmds = s.cmds := rfl
@[simp] theorem State.putNat_flight (s : State) (a n v : Nat) : (s.putNat a n v).flight = s.flight := rfl
@[simp] theorem State.putNat_watches (s : State) (a n v : Nat) : (s.putNat a n v).watches = s.watches := rfl
@[simp] theorem State.putNat_saved (s : State) (a n v : Nat) : (s.putNat a n v).saved = s.saved := rfl
@[simp] theorem State.putNat_wanted (s : State) (a n v : Nat) : (s.putNat a n v).wanted = s.wanted := rfl
@[simp] theorem State.putNat_gangs (s : State) (a n v : Nat) : (s.putNat a n v).gangs = s.gangs := rfl
@[simp] theorem State.putNat_quiesced (s : State) (a n v : Nat) : (s.putNat a n v).quiesced = s.quiesced := rfl
@[simp] theorem State.putNat_quiescing (s : State) (a n v : Nat) : (s.putNat a n v).quiescing = s.quiescing := rfl
@[simp] theorem State.putNat_savedCount (s : State) (a n v : Nat) : (s.putNat a n v).savedCount = s.savedCount := rfl
@[simp] theorem State.putNat_migr (s : State) (a n v : Nat) : (s.putNat a n v).migr = s.migr := rfl
@[simp] theorem State.putNat_migrDone (s : State) (a n v : Nat) : (s.putNat a n v).migrDone = s.migrDone := rfl
@[simp] theorem State.putNat_xlat (s : State) (a n v : Nat) : (s.putNat a n v).xlat = s.xlat := rfl
@[simp] theorem State.putNat_swept (s : State) (a n v : Nat) : (s.putNat a n v).swept = s.swept := rfl
@[simp] theorem State.putNat_semOwner (s : State) (a n v : Nat) : (s.putNat a n v).semOwner = s.semOwner := rfl
@[simp] theorem State.putNat_semErr (s : State) (a n v : Nat) : (s.putNat a n v).semErr = s.semErr := rfl
@[simp] theorem State.putNat_drawA (s : State) (a n v : Nat) : (s.putNat a n v).drawA = s.drawA := rfl
@[simp] theorem State.putNat_gquant (s : State) (a n v : Nat) : (s.putNat a n v).gquant = s.gquant := rfl
@[simp] theorem State.putNat_ports (s : State) (a n v : Nat) : (s.putNat a n v).ports = s.ports := rfl
@[simp] theorem State.putNat_security (s : State) (a n v : Nat) : (s.putNat a n v).security = s.security := rfl
@[simp] theorem State.putNat_fabric (s : State) (a n v : Nat) : (s.putNat a n v).fabric = s.fabric := rfl
@[simp] theorem State.putNat_irqs (s : State) (a n v : Nat) : (s.putNat a n v).irqs = s.irqs := rfl
@[simp] theorem State.putNat_aer (s : State) (a n v : Nat) : (s.putNat a n v).aer = s.aer := rfl
@[simp] theorem State.putNat_cur (s : State) (a n v : Nat) : (s.putNat a n v).cur = s.cur := rfl
@[simp] theorem State.putNat_inputs (s : State) (a n v : Nat) : (s.putNat a n v).inputs = s.inputs := rfl
@[simp] theorem State.putNat_raised (s : State) (a n v : Nat) : (s.putNat a n v).raised = s.raised := rfl
@[simp] theorem State.putNat_inBundle (s : State) (a n v : Nat) : (s.putNat a n v).inBundle = s.inBundle := rfl
@[simp] theorem State.putNat_result (s : State) (a n v : Nat) : (s.putNat a n v).result = s.result := rfl
@[simp] theorem State.putNat_fresh (s : State) (a n v : Nat) : (s.putNat a n v).fresh = s.fresh := rfl
@[simp] theorem State.putNat_tick (s : State) (a n v : Nat) : (s.putNat a n v).tick = s.tick := rfl
@[simp] theorem State.putNat_nextId (s : State) (a n v : Nat) : (s.putNat a n v).nextId = s.nextId := rfl
@[simp] theorem State.putNat_mem (s : State) (a n v : Nat) : (s.putNat a n v).mem = memWrites s.mem a (leBytes n v) := rfl

/-! ### A result queued -/

@[simp] theorem Strand.land_regs (st : Strand) (l : Nat) (r : Res) : (st.land l r).regs = st.regs := rfl
@[simp] theorem Strand.land_shadow (st : Strand) (l : Nat) (r : Res) : (st.land l r).shadow = st.shadow := rfl
@[simp] theorem Strand.land_markOrder (st : Strand) (l : Nat) (r : Res) : (st.land l r).markOrder = st.markOrder := rfl
@[simp] theorem Strand.land_markConsumed (st : Strand) (l : Nat) (r : Res) : (st.land l r).markConsumed = st.markConsumed := rfl
@[simp] theorem Strand.land_t (st : Strand) (l : Nat) (r : Res) : (st.land l r).t = st.t := rfl
@[simp] theorem Strand.land_aw (st : Strand) (l : Nat) (r : Res) : (st.land l r).aw = st.aw := rfl
@[simp] theorem Strand.land_av (st : Strand) (l : Nat) (r : Res) : (st.land l r).av = st.av := rfl
@[simp] theorem Strand.land_g (st : Strand) (l : Nat) (r : Res) : (st.land l r).g = st.g := rfl
@[simp] theorem Strand.land_z (st : Strand) (l : Nat) (r : Res) : (st.land l r).z = st.z := rfl
@[simp] theorem Strand.land_fence (st : Strand) (l : Nat) (r : Res) : (st.land l r).fence = st.fence := rfl
@[simp] theorem Strand.land_slatch (st : Strand) (l : Nat) (r : Res) : (st.land l r).slatch = st.slatch := rfl
@[simp] theorem Strand.land_glatch (st : Strand) (l : Nat) (r : Res) : (st.land l r).glatch = st.glatch := rfl
@[simp] theorem Strand.land_drains (st : Strand) (l : Nat) (r : Res) : (st.land l r).drains = st.drains := rfl
@[simp] theorem Strand.land_adds (st : Strand) (l : Nat) (r : Res) : (st.land l r).adds = st.adds := rfl
@[simp] theorem Strand.land_gate (st : Strand) (l : Nat) (r : Res) : (st.land l r).gate = st.gate := rfl
@[simp] theorem Strand.land_order (st : Strand) (l : Nat) (r : Res) : (st.land l r).order = st.order := rfl
@[simp] theorem Strand.land_clk (st : Strand) (l : Nat) (r : Res) : (st.land l r).clk = st.clk := rfl
@[simp] theorem Strand.land_issued (st : Strand) (l : Nat) (r : Res) : (st.land l r).issued = st.issued := rfl
@[simp] theorem Strand.land_stall (st : Strand) (l : Nat) (r : Res) : (st.land l r).stall = st.stall := rfl
@[simp] theorem Strand.land_wait (st : Strand) (l : Nat) (r : Res) : (st.land l r).wait = st.wait := rfl
@[simp] theorem Strand.land_swap (st : Strand) (l : Nat) (r : Res) : (st.land l r).swap = st.swap := rfl
@[simp] theorem Strand.land_ctl (st : Strand) (l : Nat) (r : Res) : (st.land l r).ctl = st.ctl := rfl
@[simp] theorem Strand.land_marked (st : Strand) (l : Nat) (r : Res) : (st.land l r).marked = st.marked := rfl
@[simp] theorem Strand.land_drawn (st : Strand) (l : Nat) (r : Res) : (st.land l r).drawn = st.drawn := rfl
@[simp] theorem Strand.land_recAddr (st : Strand) (l : Nat) (r : Res) : (st.land l r).recAddr = st.recAddr := rfl
@[simp] theorem Strand.land_team (st : Strand) (l : Nat) (r : Res) : (st.land l r).team = st.team := rfl
@[simp] theorem Strand.land_asid (st : Strand) (l : Nat) (r : Res) : (st.land l r).asid = st.asid := rfl
@[simp] theorem Strand.land_pri (st : Strand) (l : Nat) (r : Res) : (st.land l r).pri = st.pri := rfl
@[simp] theorem Strand.land_service (st : Strand) (l : Nat) (r : Res) : (st.land l r).service = st.service := rfl
@[simp] theorem Strand.land_draw (st : Strand) (l : Nat) (r : Res) : (st.land l r).draw = st.draw := rfl
@[simp] theorem Strand.land_gang (st : Strand) (l : Nat) (r : Res) : (st.land l r).gang = st.gang := rfl
@[simp] theorem Strand.land_chk (st : Strand) (l : Nat) (r : Res) : (st.land l r).chk = st.chk := rfl
@[simp] theorem Strand.land_noise (st : Strand) (l : Nat) (r : Res) : (st.land l r).noise = st.noise := rfl
@[simp] theorem Strand.land_launch (st : Strand) (l : Nat) (r : Res) : (st.land l r).launch = st.launch := rfl
@[simp] theorem Strand.land_named (st : Strand) (l : Nat) (r : Res) : (st.land l r).named = st.named := rfl
@[simp] theorem Strand.land_handler (st : Strand) (l : Nat) (r : Res) : (st.land l r).handler = st.handler := rfl
@[simp] theorem Strand.land_trapRec (st : Strand) (l : Nat) (r : Res) : (st.land l r).trapRec = st.trapRec := rfl
@[simp] theorem Strand.land_pend (st : Strand) (l : Nat) (r : Res) : (st.land l r).pend = st.pend ++ [⟨st.clk + l, st.order, r⟩] := rfl

end Sys2Proof.Machine
end

