-- ==== Sys2Proof/Laws/Memory.lean ====
section
/-!
SUPPORT. Laws of sparse data and of memory: what is found after a change, and that every change of memory keeps its canonical form.
-/

namespace Sys2Proof.Machine

/-! ### Sparse data -/

variable {α : Type}

@[simp] theorem assocFind_put_self (k : Nat) (a : α) (m : Assoc α) : assocFind k (assocPut k a m) = some a := by
  induction m with
  | nil => simp [assocPut, assocFind]
  | cons c t ih =>
    obtain ⟨j, b⟩ := c
    simp only [assocPut]
    split
    · simp [assocFind]
    · split
      · simp [assocFind]
      · rename_i h1 h2
        simp [assocFind, ih, show ¬ j = k from fun e => h2 e.symm]

theorem assocFind_put_other {j k : Nat} (h : j ≠ k) (a : α) (m : Assoc α) : assocFind j (assocPut k a m) = assocFind j m := by
  induction m with
  | nil => simp [assocPut, assocFind, Ne.symm h]
  | cons c t ih =>
    obtain ⟨i, b⟩ := c
    simp only [assocPut]
    split
    · simp [assocFind, Ne.symm h]
    · split
      · rename_i e; subst e; simp [assocFind, Ne.symm h]
      · simp only [assocFind]; split <;> simp_all

theorem assocFind_drop_other {j k : Nat} (h : j ≠ k) (m : Assoc α) : assocFind j (assocDrop k m) = assocFind j m := by
  induction m with
  | nil => rfl
  | cons c t ih =>
    obtain ⟨i, b⟩ := c
    simp only [assocDrop]
    split
    · rename_i e; subst e; simp [assocFind, Ne.symm h]
    · simp only [assocFind]; split <;> simp_all

/-- Above a bound nothing below it is listed. -/
theorem assocFind_below {k : Nat} {m : Assoc α} : ∀ {l : Nat}, risingFrom (some l) m = true → k ≤ l → assocFind k m = none := by
  induction m with
  | nil => intros; rfl
  | cons c t ih =>
    obtain ⟨i, b⟩ := c
    intro l h hk
    simp only [risingFrom, Bool.and_eq_true, decide_eq_true_eq] at h
    simp only [assocFind, show ¬ i = k by omega, if_false]
    exact ih h.2 (by omega)

theorem risingFrom_weaken {m : Assoc α} {l l' : Nat} (h : risingFrom (some l) m = true) (hl : l' ≤ l) : risingFrom (some l') m = true := by
  cases m with
  | nil => rfl
  | cons c t =>
    obtain ⟨i, b⟩ := c
    simp only [risingFrom, Bool.and_eq_true, decide_eq_true_eq] at h ⊢
    exact ⟨by omega, h.2⟩

theorem risingFrom_none {m : Assoc α} {l : Nat} (h : risingFrom (some l) m = true) : risingFrom none m = true := by
  cases m with
  | nil => rfl
  | cons c t => obtain ⟨i, b⟩ := c; simp_all [risingFrom]

theorem assocFind_drop_self {m : Assoc α} {k : Nat} : ∀ {lo : Option Nat}, risingFrom lo m = true → assocFind k (assocDrop k m) = none := by
  induction m with
  | nil => intros; rfl
  | cons c t ih =>
    obtain ⟨i, b⟩ := c
    intro lo h
    simp only [risingFrom, Bool.and_eq_true] at h
    simp only [assocDrop]
    split
    · rename_i e; subst e; exact assocFind_below h.2 (Nat.le_refl _)
    · rename_i e; simp only [assocFind, e, if_false]; exact ih h.2

/-- A lower bound admits a key. -/
def aboveBound (lo : Option Nat) (k : Nat) : Prop := ∀ l, lo = some l → l < k

theorem risingFrom_put {m : Assoc α} {k : Nat} {a : α} : ∀ {lo : Option Nat}, risingFrom lo m = true → aboveBound lo k →
    risingFrom lo (assocPut k a m) = true := by
  induction m with
  | nil => intro lo _ hk; cases lo <;> simp_all [assocPut, risingFrom, aboveBound]
  | cons c t ih =>
    obtain ⟨i, b⟩ := c
    intro lo h hk
    have hb : ∀ (j : Nat) (x : α) (u : Assoc α), risingFrom lo ((j, x) :: u) = true ↔ aboveBound lo j ∧ risingFrom (some j) u = true := by
      intro j x u; cases lo <;> simp [risingFrom, aboveBound]
    rw [hb] at h
    simp only [assocPut]
    split
    · rename_i hlt; rw [hb]; exact ⟨hk, by simp [risingFrom, hlt, h.2]⟩
    · split
      · rename_i e; subst e; rw [hb]; exact h
      · rw [hb]; exact ⟨h.1, ih h.2 (fun l hl => by cases hl; omega)⟩

theorem risingFrom_drop {m : Assoc α} {k : Nat} : ∀ {lo : Option Nat}, risingFrom lo m = true → risingFrom lo (assocDrop k m) = true := by
  induction m with
  | nil => intros; rfl
  | cons c t ih =>
    obtain ⟨i, b⟩ := c
    intro lo h
    simp only [risingFrom, Bool.and_eq_true] at h
    simp only [assocDrop]
    split
    · cases lo with
      | none => exact risingFrom_none h.2
      | some l => exact risingFrom_weaken h.2 (by have := h.1; simp at this; omega)
    · simp only [risingFrom, Bool.and_eq_true]; exact ⟨h.1, ih h.2⟩

/-! ### The canonical form of memory -/

/-- The canonical form: rising addresses and no listed zero. -/
theorem wfFrom_iff {m : Memory} : ∀ {lo : Option Nat}, wfFrom lo m = true ↔ risingFrom lo m = true ∧ ∀ c ∈ m, c.2 ≠ 0 := by
  induction m with
  | nil => simp [wfFrom, risingFrom]
  | cons c t ih =>
    obtain ⟨i, b⟩ := c
    intro lo
    simp only [wfFrom, risingFrom, Bool.and_eq_true, bne_iff_ne, ih, List.mem_cons, forall_eq_or_imp]
    tauto

theorem mem_assocPut {m : Assoc α} {k : Nat} {a : α} {c : Nat × α} (h : c ∈ assocPut k a m) : c = (k, a) ∨ c ∈ m := by
  induction m with
  | nil => simpa [assocPut] using h
  | cons d t ih =>
    obtain ⟨i, b⟩ := d
    simp only [assocPut] at h
    split at h
    · simp_all
    · split at h
      · simp_all; tauto
      · simp only [List.mem_cons] at h ⊢; rcases h with h | h
        · exact .inr (.inl h)
        · rcases ih h with h | h
          · exact .inl h
          · exact .inr (.inr h)

theorem mem_assocDrop {m : Assoc α} {k : Nat} {c : Nat × α} (h : c ∈ assocDrop k m) : c ∈ m := by
  induction m with
  | nil => simp [assocDrop] at h
  | cons d t ih =>
    obtain ⟨i, b⟩ := d
    simp only [assocDrop] at h
    split at h
    · simp_all
    · simp only [List.mem_cons] at h ⊢; tauto

theorem memWrite_wf {m : Memory} (h : m.wf = true) (a : Nat) (b : Byte) : (memWrite m a b).wf = true := by
  obtain ⟨hr, hz⟩ := wfFrom_iff.1 h
  unfold memWrite
  split
  · exact wfFrom_iff.2 ⟨risingFrom_drop hr, fun c hc => hz c (mem_assocDrop hc)⟩
  · rename_i hb
    refine wfFrom_iff.2 ⟨risingFrom_put hr (by simp [aboveBound]), fun c hc => ?_⟩
    rcases mem_assocPut hc with rfl | hc
    · exact hb
    · exact hz c hc

theorem memWrites_wf {m : Memory} (h : m.wf = true) (a : Nat) (bs : List Byte) : (memWrites m a bs).wf = true := by
  induction bs generalizing m a with
  | nil => exact h
  | cons b t ih => exact ih (memWrite_wf h a b) (a + 1)

theorem reset_memory_wf : Memory.wf State.reset.mem = true := rfl

/-! ### Reading what was written -/

theorem memRead_memWrite_self {m : Memory} (h : m.wf = true) (a : Nat) (b : Byte) : memRead (memWrite m a b) a = b := by
  obtain ⟨hr, -⟩ := wfFrom_iff.1 h
  unfold memWrite memRead
  split
  · rename_i hb; simp [assocFind_drop_self hr, hb]
  · simp

theorem memRead_memWrite_other {a x : Nat} (hx : x ≠ a) (m : Memory) (b : Byte) : memRead (memWrite m a b) x = memRead m x := by
  unfold memWrite memRead
  split
  · rw [assocFind_drop_other hx]
  · rw [assocFind_put_other hx]

/-- Bytes outside the range written read as before. -/
theorem memRead_memWrites_outside {a x : Nat} {bs : List Byte} (hx : x < a ∨ a + bs.length ≤ x) (m : Memory) :
    memRead (memWrites m a bs) x = memRead m x := by
  induction bs generalizing m a with
  | nil => rfl
  | cons b t ih =>
    simp only [List.length_cons] at hx
    rw [memWrites, ih (by omega), memRead_memWrite_other (by omega)]

/-- Byte k of the range written reads as it was written. -/
theorem memRead_memWrites_inside {m : Memory} (h : m.wf = true) {a k : Nat} {bs : List Byte} (hk : k < bs.length) :
    memRead (memWrites m a bs) (a + k) = bs[k] := by
  induction bs generalizing m a k with
  | nil => simp at hk
  | cons b t ih =>
    cases k with
    | zero =>
      rw [memWrites, memRead_memWrites_outside (by omega)]
      simpa using memRead_memWrite_self h a b
    | succ k =>
      simp only [List.length_cons] at hk
      have := ih (memWrite_wf h a b) (a := a + 1) (k := k) (by omega)
      rw [memWrites, show a + (k + 1) = a + 1 + k by omega, this]; simp

theorem leNat_leBytes (k n : Nat) : leNat (leBytes k n) = n % 256 ^ k := by
  induction k generalizing n with
  | zero => simp [leNat, leBytes, Nat.mod_one]
  | succ k ih =>
    simp only [leBytes, leNat, ih, BitVec.toNat_ofNat]
    have := Nat.mod_mul (x := n) (a := 256) (b := 256 ^ k)
    rw [show 256 ^ (k + 1) = 256 * 256 ^ k by ring]; omega

@[simp] theorem length_leBytes (k n : Nat) : (leBytes k n).length = k := by
  induction k generalizing n with
  | zero => rfl
  | succ k ih => simp [leBytes, ih]

theorem length_memReads (m : Memory) (a n : Nat) : (memReads m a n).length = n := by
  induction n generalizing a with
  | zero => rfl
  | succ n ih => simp [memReads, ih]

theorem memReads_congr {m m' : Memory} {a n : Nat} (h : ∀ x, a ≤ x → x < a + n → memRead m x = memRead m' x) :
    memReads m a n = memReads m' a n := by
  induction n generalizing a with
  | zero => rfl
  | succ n ih => simp only [memReads]; rw [h a (by omega) (by omega), ih (fun x h1 h2 => h x (by omega) (by omega))]

theorem memReads_memWrites {m : Memory} (h : m.wf = true) (a : Nat) (bs : List Byte) : memReads (memWrites m a bs) a bs.length = bs := by
  induction bs generalizing m a with
  | nil => rfl
  | cons b t ih =>
    simp only [List.length_cons, memReads, memWrites]
    rw [memRead_memWrites_outside (by omega), memRead_memWrite_self h, ih (memWrite_wf h a b)]

/-- A number put at an address reads back. -/
theorem State.natAt_putNat {s : State} (h : s.mem.wf = true) (a n v : Nat) : (s.putNat a n v).natAt a n = v % 256 ^ n := by
  have := memReads_memWrites h a (leBytes n v)
  rw [length_leBytes] at this
  simp [State.natAt, memNat, this, leNat_leBytes]

/-- A number beside the bytes put reads as before. -/
theorem State.natAt_putNat_apart {s : State} {a n x k v : Nat} (h : x + k ≤ a ∨ a + n ≤ x) : (s.putNat a n v).natAt x k = s.natAt x k := by
  unfold State.natAt memNat
  rw [memReads_congr (m := (s.putNat a n v).mem) (m' := s.mem)]
  intro y h1 h2
  rw [State.putNat_mem, memRead_memWrites_outside (by simp; omega)]

theorem State.writePhys_canonical {s : State} (h : s.memoryCanonical) (a : Nat) (bs : List Byte) : (s.writePhys a bs).memoryCanonical :=
  memWrites_wf h a bs

theorem State.putNat_canonical {s : State} (h : s.memoryCanonical) (a n v : Nat) : (s.putNat a n v).memoryCanonical := memWrites_wf h a _

theorem State.writePieces_canonical {s : State} (h : s.memoryCanonical) (ps : List (Nat × Nat)) (bs : List Byte) :
    (s.writePieces ps bs).memoryCanonical := by
  induction ps generalizing s bs with
  | nil => exact h
  | cons p t ih => exact ih (s.writePhys_canonical h p.1 _) _

theorem State.writeGlobal_canonical {s t : State} {f asid va : Nat} {bs : List Byte} (h : s.memoryCanonical)
    (e : s.writeGlobal f asid va bs = some t) : t.memoryCanonical := by
  obtain ⟨ps, -, rfl⟩ := Option.map_eq_some_iff.mp e
  exact s.writePieces_canonical h ps bs

theorem State.writeCells_canonical {s : State} (h : s.memoryCanonical) (cells : List (Nat × Byte)) : (s.writeCells cells).memoryCanonical := by
  show Memory.wf (cells.foldl (fun m c => memWrite m c.1 c.2) s.mem) = true
  have h : Memory.wf s.mem = true := h
  generalize s.mem = m at h ⊢
  induction cells generalizing m with
  | nil => exact h
  | cons c t ih => exact ih _ (memWrite_wf h c.1 c.2)

theorem State.counterAdd_canonical {s : State} (h : s.memoryCanonical) (a v : Nat) : (s.counterAdd a v).1.memoryCanonical := by
  unfold State.counterAdd
  dsimp only
  split <;> exact s.putNat_canonical h a 8 _

/-! ### The strand on a seat -/

@[simp] theorem State.strandAt_putStrand_self (s : State) (q : SeatId) (st : Strand) : (s.putStrand q st).strandAt q = some st := by
  simp [State.strandAt, State.putStrand]

theorem State.strandAt_putStrand_other {s : State} {q r : SeatId} (h : SeatId.key r ≠ SeatId.key q) (st : Strand) :
    (s.putStrand q st).strandAt r = s.strandAt r := by
  simp [State.strandAt, State.putStrand, assocFind_put_other h]

@[simp] theorem State.strand_setStrand (s : State) (st : Strand) : (s.setStrand st).strand = some st := by
  simp [State.strand, State.setStrand]

@[simp] theorem assocPut_put (k : Nat) (a b : α) (m : Assoc α) : assocPut k b (assocPut k a m) = assocPut k b m := by
  induction m with
  | nil => simp [assocPut]
  | cons c t ih =>
    obtain ⟨i, d⟩ := c
    simp only [assocPut]
    split
    · rename_i h; simp [assocPut]
    · split
      · rename_i e; subst e; simp [assocPut]
      · rename_i h1 h2; simp [assocPut, h1, h2, ih]

@[simp] theorem State.setStrand_setStrand (s : State) (st st' : Strand) : (s.setStrand st).setStrand st' = s.setStrand st' := by
  simp [State.setStrand, State.putStrand]

@[simp] theorem State.strand_writePhys (s : State) (a : Nat) (bs : List Byte) : (s.writePhys a bs).strand = s.strand := rfl
@[simp] theorem State.strand_putNat (s : State) (a n v : Nat) : (s.putNat a n v).strand = s.strand := rfl

end Sys2Proof.Machine
end

