-- ==== Sys2Proof/Laws/Slot.lean ====
section
/-!
SUPPORT. What a slot of the current seat does (R164, R174): one lemma for each outcome of the frame of a slot, and all of them together.
-/

namespace Sys2Proof.Machine

/-- No trap is left to be settled: none was raised, or the bundle settles it. -/
def State.quiet (s : State) : Prop := s.raised = none ∨ s.inBundle = true

theorem settleTrap_quiet {s : State} (h : s.quiet) : settleTrap s = s := by
  unfold settleTrap
  rcases h with h | h
  · rw [h]; split <;> rfl
  · rw [h]; rfl

theorem runSlot_idle {g : BitVec 4} {act : Strand → State → Except Trap State} {s : State} (h : s.strand = none) :
    runSlot g act s = .fault .idleSeat := by simp [runSlot, h]

theorem runSlot_off {g : BitVec 4} {act : Strand → State → Except Trap State} {s : State} {st : Strand} (h : s.strand = some st)
    (hg : st.pr g = false) : runSlot g act s = .next s := by simp [runSlot, h, hg]

theorem runSlot_ok {g : BitVec 4} {act : Strand → State → Except Trap State} {s t : State} {st : Strand} (h : s.strand = some st)
    (hg : st.pr g = true) (ha : act st s = .ok t) (hq : t.quiet) : runSlot g act s = .next t := by
  simp [runSlot, h, hg, ha, settleTrap_quiet hq]

theorem runSlot_trap {g : BitVec 4} {act : Strand → State → Except Trap State} {s : State} {st : Strand} {e : Trap}
    (h : s.strand = some st) (hg : st.pr g = true) (ha : act st s = .error e) (hb : s.inBundle = true) :
    runSlot g act s = .next { s with raised := some e } := by
  simp [runSlot, h, hg, ha, settleTrap, hb]

/-- Everything that a slot can do when it answers a next state. -/
theorem runSlot_cases {g : BitVec 4} {act : Strand → State → Except Trap State} {s t : State} (h : runSlot g act s = .next t) :
    ∃ st, s.strand = some st ∧ ((st.pr g = false ∧ t = s) ∨ (st.pr g = true ∧
      ((∃ u, act st s = .ok u ∧ t = settleTrap u) ∨ ∃ e, act st s = .error e ∧ t = settleTrap { s with raised := some e }))) := by
  unfold runSlot at h
  split at h
  · cases h
  · rename_i st hs
    refine ⟨st, hs, ?_⟩
    split at h
    · rename_i hg; cases h; exact .inl ⟨by simpa using hg, rfl⟩
    · rename_i hg
      refine .inr ⟨by simpa using hg, ?_⟩
      split at h
      · rename_i u hu; cases h; exact .inl ⟨u, hu, rfl⟩
      · rename_i e he; cases h; exact .inr ⟨e, he, rfl⟩

/-- A slot never answers a refusal. -/
theorem runSlot_never_refused {g : BitVec 4} {act : Strand → State → Except Trap State} {s : State} {r : Refusal} :
    runSlot g act s ≠ .refused r := by
  unfold runSlot
  split
  · intro h; cases h
  · split
    · intro h; cases h
    · split <;> intro h <;> cases h

theorem quiet_setStrand {s : State} (h : s.quiet) (st : Strand) : (s.setStrand st).quiet := h

theorem strandSlot_on {g : BitVec 4} {f : Strand → Strand} {s : State} {st : Strand} (h : s.strand = some st) (hg : st.pr g = true)
    (hq : s.quiet) : strandSlot g f s = .next (s.setStrand (f st)) := runSlot_ok h hg rfl (quiet_setStrand hq _)

theorem checkedSlot_on {g : BitVec 4} {f : Strand → Except Trap Strand} {s : State} {st st' : Strand} (h : s.strand = some st)
    (hg : st.pr g = true) (hq : s.quiet) (hf : f st = .ok st') : checkedSlot g f s = .next (s.setStrand st') :=
  runSlot_ok h hg (by simp [hf]) (quiet_setStrand hq _)

theorem checkedSlot_trap {g : BitVec 4} {f : Strand → Except Trap Strand} {s : State} {st : Strand} {e : Trap} (h : s.strand = some st)
    (hg : st.pr g = true) (hb : s.inBundle = true) (hf : f st = .error e) : checkedSlot g f s = .next { s with raised := some e } :=
  runSlot_trap h hg (by simp [hf]) hb

/-- Of a strand's operations on their way, none is picked by a test that none meets. -/
theorem pickOps_none {p : HomeOp → Bool} (hp : ∀ o, p o = false) (l : List HomeOp) : pickOps p l = ([], false) := by
  induction l with
  | nil => rfl
  | cons o t ih => simp [pickOps, ih, hp]

/-- Settling no bytes settles nothing. -/
@[simp] theorem settleWords_nil (s : State) (st : Strand) : s.settleWords st [] = s := by
  simp [State.settleWords, State.settleOps, pickOps_none]

/-- Nothing on its way: there is nothing to settle. -/
theorem settleOps_idle {s : State} {st : Strand} {p : HomeOp → Bool} (h : (s.flight.filter fun o => o.before s.cur st) = []) : s.settleOps st p = s := by
  simp [State.settleOps, h, pickOps]

/-- A mark with nothing gated changes only the seat's strand (R244). -/
theorem mark_empty {s : State} {st : Strand} (h : s.strand = some st) (hg : st.gate = []) :
    s.mark = .ok (s.setStrand { st with marked := true }) := by
  simp [State.mark, State.flushGate, State.ownCells, h, hg, performGate]

theorem markSlot_on {g : BitVec 4} {act : Strand → State → Except Trap State} {s u t : State} {st st' : Strand} (h : s.strand = some st)
    (hg : st.pr g = true) (hm : s.mark = .ok u) (hu : u.strand = some st') (ha : act st' u = .ok t) (hq : t.quiet) :
    markSlot g act s = .next t := runSlot_ok h hg (by simp [hm, hu, ha]) hq

theorem markSlot_trap {g : BitVec 4} {act : Strand → State → Except Trap State} {s u : State} {st st' : Strand} {e : Trap}
    (h : s.strand = some st) (hg : st.pr g = true) (hm : s.mark = .ok u) (hu : u.strand = some st') (ha : act st' u = .error e)
    (hb : s.inBundle = true) : markSlot g act s = .next { s with raised := some e } := runSlot_trap h hg (by simp [hm, hu, ha]) hb

end Sys2Proof.Machine
end

