-- ==== Sys2Proof/Machine/ObjectImage.lean ====
section
/-!
DEFINITION. Object images (R305 to R307): what a loader reads and refuses, relocates, and puts into memory and State.images (R18, R37, R57,
R58, R103, R129, R280, R281). No step of the part loads an image: a load is State.loadImage (notes/assumptions/8.md).
-/

namespace Sys2Proof.Machine

/-- Why a loader refuses an image (R305 to R307): all of them safe, since nothing is loaded. -/
inductive ImageRefusal where
  /-- MAGIC is not 0x0000_6384. -/
  | magic
  /-- VERSION is not 1. -/
  | version
  /-- A reserved bit of the header or of a section entry is set. -/
  | reserved
  /-- A section or a relocation lies outside the file or its section, or a section has a size that its content cannot have. -/
  | bounds
  /-- No section of a kind of which an image has one. -/
  | missing (kind : Nat)
  /-- A second section of a kind of which an image has at most one. -/
  | repeated (kind : Nat)
  /-- A section of an unknown kind below 0x8000. -/
  | unknownKind (kind : Nat)
  /-- A relocation of another TYPE than 1 to 5. -/
  | relocation (type : Nat)
  /-- A counter, handle, slot or frame that a relocation or a section names and that the table or the placement does not hold. -/
  | placement
  deriving DecidableEq, Repr

/-- A section as the loader reads it (R305): kind, ARG, content. -/
structure ImageSection where
  kind : Nat
  arg : Nat
  bytes : List Byte
  deriving DecidableEq, Repr

/-- An image read from its file: the entry's offset and the sections in the table's order. -/
structure ObjectImage where
  entry : Nat
  sections : List ImageSection
  deriving DecidableEq, Repr

/-- What a load is told: the identifier, the global addresses of the code and of the argument block, which word of which handle's counter array
each counter number is (R271, R304: an image does not say it, and tsas does, AsmFile.counterWords), and the external frames of away tiles by
handle + 64·tile (R281). -/
structure Placement where
  asid : Nat
  code : Nat
  args : Nat
  counters : Assoc (Nat × Nat)
  away : Assoc Nat
  deriving DecidableEq, Repr

/-! ### Reading (R305, R306) -/

/-- The number of n bytes at offset o of a file or section (R2). -/
def numAt (f : List Byte) (o n : Nat) : Nat := leNat ((f.drop o).take n)

/-- The section of table entry i. A kind from 0x8000 on is ignored: its content is not looked at. -/
def readSection (f : List Byte) (i : Nat) : Except ImageRefusal ImageSection :=
  let o := 64 + 32 * i
  let kind := numAt f o 2
  let off := numAt f (o + 8) 8
  let size := numAt f (o + 16) 8
  if f.length < o + 32 then .error .bounds
  else if numAt f (o + 2) 6 ≠ 0 then .error .reserved
  else if 0x8000 ≤ kind then .ok ⟨kind, numAt f (o + 24) 8, []⟩
  else if kind = 0 ∨ 8 < kind then .error (.unknownKind kind)
  else if off % 64 ≠ 0 ∨ f.length < off + size then .error .bounds
  else .ok ⟨kind, numAt f (o + 24) 8, (f.drop off).take size⟩

/-- Table entries i to i + n - 1. -/
def readSections (f : List Byte) : Nat → Nat → Except ImageRefusal (List ImageSection)
  | 0, _ => .ok []
  | n + 1, i =>
    match readSection f i with
    | .error e => .error e
    | .ok x => match readSections f n (i + 1) with
      | .error e => .error e
      | .ok xs => .ok (x :: xs)

/-- How many sections are of a kind. -/
def countKind (xs : List ImageSection) (k : Nat) : Nat := (xs.filter fun x => x.kind == k).length

/-- Whether a section's size suits its content (R306): whole bundles, the 8 KiB store, 64 entries of 64 bytes, two words, whole
relocations, whole away entries. -/
def sizeOk (x : ImageSection) : Bool :=
  match x.kind with
  | 1 => x.bytes.length % 16 == 0
  | 2 => x.bytes.length == 8192
  | 3 => x.bytes.length == 4096
  | 6 => x.bytes.length == 16
  | 7 => x.bytes.length % 16 == 0
  | 8 => x.bytes.length % 8 == 0
  | _ => true

/-- An image file read (R305, R306). -/
def readImage (f : List Byte) : Except ImageRefusal ObjectImage :=
  if f.length < 64 then .error .bounds
  else if numAt f 0 4 ≠ 0x6384 then .error .magic
  else if numAt f 4 2 ≠ 1 then .error .version
  else if numAt f 16 48 ≠ 0 then .error .reserved
  else match readSections f (numAt f 6 2) 0 with
    | .error e => .error e
    | .ok xs =>
      match [1, 3].find? fun k => countKind xs k == 0 with
      | some k => .error (.missing k)
      | none => match [1, 2, 3, 6, 7, 8].find? fun k => decide (1 < countKind xs k) with
        | some k => .error (.repeated k)
        | none => if xs.all sizeOk then .ok ⟨numAt f 8 8, xs⟩ else .error .bounds

/-- The content of the first section of a kind, empty without one. -/
def ObjectImage.content (o : ObjectImage) (k : Nat) : List Byte :=
  match o.sections.find? fun x => x.kind == k with
  | some x => x.bytes
  | none => []

/-- Entry h of the TTAB section (R51). -/
def ObjectImage.entryAt (o : ObjectImage) (h : Nat) : Entry :=
  Vector.ofFn fun k : Fin 8 => BitVec.ofNat 64 (numAt (o.content 3) (64 * h + 8 * k.val) 8)

/-- The tensor table: all 64 entries, the absent ones with KIND 0xF. -/
def ObjectImage.table (o : ObjectImage) : Assoc Entry := (List.range 64).map fun h => (h, o.entryAt h)

/-! ### Where elements lie (R18, R54, R55, R280, R281) -/

/-- A byte's place: a slice offset that every tile has (R57), or one global address. -/
inductive BytePlace where
  | everyTile (offset : Nat)
  | oneAddress (addr : Nat)
  deriving DecidableEq, Repr

/-- The address of a place, tile 0's copy where every tile has one (R18). -/
def BytePlace.addr : BytePlace → Nat
  | .everyTile o => o
  | .oneAddress a => a

/-- Whether tile k of entry h starts away (R281). -/
def ObjectImage.isAway (o : ObjectImage) (h k : Nat) : Bool :=
  (List.range ((o.content 8).length / 8)).any fun i =>
    numAt (o.content 8) (8 * i) 1 % 64 == h && numAt (o.content 8) (8 * i + 4) 4 == k

/-- The frame of tile k that its owner's table or BASE gives: a pageable entry's frames follow its tile table (R280). -/
def Entry.loadFrame (e : Entry) (k : Nat) : Nat :=
  if e.pageable then ceilDiv (e.base + 8 * e.tiles) 64 * 64 + k / e.owners * e.tileSize else e.frame k

/-- The place of a byte at an offset of tile k's frame in an entry whose tiles are not away (R55). -/
def Entry.place (e : Entry) (k off : Nat) : Option BytePlace :=
  match e.map with
  | 0 => some (.everyTile (e.loadFrame k + off))
  | 3 => some (.oneAddress (e.loadFrame k + off))
  | _ => (e.owner 0 k).map fun t => .oneAddress (sliceAddr t (e.loadFrame k) + off)

/-- The place of a byte at an offset of tile k's frame; none when the placement gives an away tile no frame. -/
def ObjectImage.place (o : ObjectImage) (pl : Placement) (h : Nat) (e : Entry) (k off : Nat) : Option BytePlace :=
  if e.pageable && o.isAway h k then (assocFind (h + 64 * k) pl.away).map fun a => .oneAddress (a + off) else e.place k off

/-- The coordinates of element i in row-major order, last coordinate fastest; past the last element they wrap to the first ones: the model's
choice (notes/assumptions/8.md). -/
def Entry.coords (e : Entry) (i : Nat) : List Nat :=
  ((List.range e.rank).foldl (fun (acc : List Nat × Nat) d =>
    let x := e.ext (e.rank - 1 - d)
    (acc.2 % x :: acc.1, acc.2 / x)) ([], i)).1

/-- The bytes of a tile of an entry with no element compressed (R54, R77). -/
def Entry.denseSize (e : Entry) : Nat := if e.kind = 1 then tileBytes e.fmt else e.tileSize

/-- Tile and byte offset, in the tile's dense layout (R54), of value n of data that begins at element i. A square-block element has no bytes of
its own: there the data's bytes go on from the block that holds element i. Past the last element the coordinates wrap (notes/assumptions/8.md). -/
def Entry.elementPlace (e : Entry) (i n : Nat) : Option (Nat × Nat) :=
  if isSq e.fmt then (match e.rowCol (e.coords i) 0 with
    | some (plane, r, c) =>
      let b := e.tileNumber plane r c * e.denseSize + (16 * (r % 64 / 4) + c % 64 / 4) * sqBytes e.fmt + n
      some (b / e.denseSize, b % e.denseSize)
    | none => none)
  else match e.rowCol (e.coords (i + n)) 0 with
    | some (plane, r, c) => some (e.tileNumber plane r c, e.elem * (64 * (r % 64) + c % 64))
    | none => none

/-- The address of word i of a counter array (R271). -/
def Entry.counterWord (e : Entry) (i : Nat) : Option Nat :=
  if e.kind = 4 ∧ i < e.ext 0 then (e.elementPlace i 0).bind fun (k, off) => (e.place k off).map BytePlace.addr else none

/-- base(Hn) (R18, R275, R285): the address of the first element, of a sequence its header. Every tile has its own copy of H0, whatever its HOME
(R272): base(H0) is that in tile 0's slice, as for a local entry, which is the model's reading (notes/assumptions/85.md). -/
def ObjectImage.base (o : ObjectImage) (pl : Placement) (h : Nat) : Option Nat :=
  let e := o.entryAt h
  if e.kind = 15 ∨ 63 < h then none
  else if e.kind = 3 ∨ h = 0 then some e.base
  else (o.place pl h e 0 0).map BytePlace.addr

/-- The address of a counter by its number: of its word in its array (R18, R271). -/
def ObjectImage.counter (o : ObjectImage) (pl : Placement) (n : Nat) : Option Nat :=
  (assocFind n pl.counters).bind fun (h, i) => if h ≤ 63 then (o.entryAt h).counterWord i else none

/-- The SEQ section of a handle (R306). -/
def ObjectImage.sequence (o : ObjectImage) (h : Nat) : Option (List Byte) :=
  (o.sections.find? fun x => x.kind == 5 && x.arg % 64 == h).map (·.bytes)

/-- Bytes of a slot's payload, from the header at the front of a SEQ section (R101). -/
def seqPayload (c : List Byte) : Nat := (numAt c 62 1 + 1) * 16
/-- Pages below CAP (R101, R103). -/
def seqPages (c : List Byte) : Nat := numAt c 52 4 / 256
/-- The frame of page p, from the page table behind the header. -/
def seqFrame (c : List Byte) (p : Nat) : Nat := numAt c (64 + 8 * p) 8 / 4096 * 4096

/-- payload(Hn, s) (R275). -/
def ObjectImage.payload (o : ObjectImage) (h s : Nat) : Option Nat :=
  match o.sequence h with
  | none => none
  | some c => if s / 256 < seqPages c then some (seqFrame c (s / 256) + 4160 + s % 256 * seqPayload c) else none

/-! ### Relocation (R307) -/

/-- The value that a relocation writes. -/
def ObjectImage.relocValue (o : ObjectImage) (pl : Placement) (type arg : Nat) : Except ImageRefusal Nat :=
  let r : Option Nat := match type with
    | 1 => o.base pl (arg % 64)
    | 2 => o.counter pl (arg % 2 ^ 16)
    | 3 => o.payload (arg % 64) (arg / 2 ^ 32)
    | 4 => if (o.entryAt (arg % 64)).kind = 3 then some (o.entryAt (arg % 64)).base else none
    | _ => assocFind (arg % 64 + 64 * (arg / 2 ^ 32)) pl.away
  if type = 0 ∨ 5 < type then .error (.relocation type)
  else match r with
    | some v => .ok v
    | none => .error .placement

/-- Eight bytes of a section replaced. -/
def patchWord (off v : Nat) (x : ImageSection) : ImageSection :=
  { x with bytes := x.bytes.take off ++ leBytes 8 v ++ x.bytes.drop (off + 8) }

/-- The relocations, 16 bytes each, applied in order; the values are those of the image as it was read. -/
def applyRelocs (o : ObjectImage) (pl : Placement) : List (List Byte) → List ImageSection → Except ImageRefusal (List ImageSection)
  | [], xs => .ok xs
  | r :: rs, xs =>
    let off := numAt r 0 5
    let sec := numAt r 5 2
    match o.relocValue pl (numAt r 7 1) (numAt r 8 8) with
    | .error e => .error e
    | .ok v => match xs[sec]? with
      | none => .error .bounds
      | some x => if x.bytes.length < off + 8 then .error .bounds else applyRelocs o pl rs (setAt xs sec (patchWord off v x))

/-- The image with its words relocated. -/
def ObjectImage.relocate (o : ObjectImage) (pl : Placement) : Except ImageRefusal ObjectImage :=
  match applyRelocs o pl (runsOf 16 ((o.content 7).length / 16) (o.content 7)) o.sections with
  | .ok xs => .ok { o with sections := xs }
  | .error e => .error e

/-! ### Placement (R18, R37, R57, R58, R103, R280) -/

/-- Entries whose elements an image places: not the argument block, a sequence, code that is not local (R57) or an absent one. -/
def Entry.loaded (h : Nat) (e : Entry) : Bool := h != 0 && e.kind != 3 && (e.kind != 5 || e.map == 0) && e.kind != 15

/-- Bytes to be written at a place. -/
abbrev LoadWrite := BytePlace × List Byte

/-- The word of tile k in an owner's tile table (R58, R281): resident in its own frame, or away in the external one. -/
def ObjectImage.pageWord (o : ObjectImage) (pl : Placement) (h : Nat) (e : Entry) (k : Nat) : Nat :=
  if o.isAway h k then (assocFind (h + 64 * k) pl.away).getD 0 / 64 * 64 + 2 else e.loadFrame k / 64 * 64

/-- The tile tables of a pageable entry, one in the slice of each owner; an owner writes zero for a tile that it does not own (R58, R280). -/
def ObjectImage.pageTables (o : ObjectImage) (pl : Placement) (h : Nat) (e : Entry) : List LoadWrite :=
  if !e.pageable then []
  else if e.map = 0 then [(.everyTile e.base, ((List.range e.tiles).map fun k => leBytes 8 (o.pageWord pl h e k)).flatten)]
  else (List.range e.owners).filterMap fun j => (e.ownerTile 0 j).map fun t =>
    (.oneAddress (sliceAddr t e.base),
      ((List.range e.tiles).map fun k => leBytes 8 (if k % e.owners = j then o.pageWord pl h e k else 0)).flatten)

/-- The bytes of an element in a DATA section (R63, R306): one where the section counts bytes. -/
def Entry.dataWidth (e : Entry) : Nat := if isSq e.fmt then 1 else e.elem

/-- The values of a DATA section, each with its number, cut into elements of w bytes. -/
def dataValues (w : Nat) (bs : List Byte) : List (List Byte × Nat) := (runsOf w bs.length bs).zip (List.range bs.length)

/-- The dense bytes of tile k of an entry, from the DATA sections that name its handle, zero where none does (R18). -/
def ObjectImage.denseTile (o : ObjectImage) (h : Nat) (e : Entry) (k : Nat) : List Byte :=
  let xs := o.sections.filter fun x => x.kind == 4 && x.arg % 64 == h
  let m := xs.foldl (fun m x => (dataValues e.dataWidth x.bytes).foldl (fun m (bs, n) => match e.elementPlace (x.arg / 256) n with
    | some (j, off) => if j = k then memWrites m off bs else m
    | none => m) m) []
  memReads m 0 e.denseSize

/-- The BMZ frame of a tile's dense bytes (R77), zeros behind it. -/
def Entry.packed (e : Entry) (bs : List Byte) : List Byte :=
  let t := tileOf (BitVec.ofNat 4 e.fmt) bs
  (packFrame e.fmt (fieldBits t) (sqHeads t) ++ List.replicate e.tileSize 0).take e.tileSize

/-- Every tile of an entry before its DATA is written: zeros (R18: elements that no directive names are zero; R57), of a BMZ entry the frames of its
elements, DATA and all. -/
def ObjectImage.tilesOf (o : ObjectImage) (pl : Placement) (h : Nat) (e : Entry) : List LoadWrite :=
  (List.range e.tiles).filterMap fun k => (o.place pl h e k 0).map fun p =>
    (p, if e.kind = 1 then e.packed (o.denseTile h e k) else List.replicate (if e.tiles = 1 then e.tileUse else e.tileSize) 0)

/-- The place of value n of data that begins at element i of a sequence (R275): element i + n is element (i + n) mod EXT1 of slot
(i + n) div EXT1's payload. A square-block element has no bytes of its own: there the data's bytes go on from the block that holds element
i mod EXT1 of slot i div EXT1 (notes/assumptions/8.md). -/
def Entry.slotPlace (e : Entry) (c : List Byte) (i n : Nat) : Option BytePlace :=
  let size := seqPayload c
  let (s, off) := if isSq e.fmt then
      let b := i / e.ext 1 * size + i % e.ext 1 / 16 * sqBytes e.fmt + n
      (b / size, b % size)
    else ((i + n) / e.ext 1, (i + n) % e.ext 1 * e.elem)
  if s / 256 < seqPages c then some (.oneAddress (seqFrame c (s / 256) + 4160 + s % 256 * size + off)) else none

/-- The place of value n of data that begins at element i of handle h. -/
def ObjectImage.valueAt (o : ObjectImage) (pl : Placement) (h i n : Nat) : Option BytePlace :=
  let e := o.entryAt h
  if e.kind = 3 then (match o.sequence h with
    | some c => e.slotPlace c i n
    | none => none)
  else match e.elementPlace i n with
    | some (k, off) => o.place pl h e k off
    | none => none

/-- The elements of a DATA section, from its first element on (R306), those of a BMZ entry being in its frames. A section that runs past the tensor's last element goes on at its first
ones, and of the argument block behind its 256 bytes: the model's choice (notes/assumptions/8.md). -/
def ObjectImage.dataWrites (o : ObjectImage) (pl : Placement) (x : ImageSection) : List LoadWrite :=
  let h := x.arg % 64
  if h = 0 then [(.oneAddress (pl.args + 8 * (x.arg / 256)), x.bytes)]
  else if (o.entryAt h).kind = 1 then []
  else (dataValues (o.entryAt h).dataWidth x.bytes).filterMap fun (bs, n) => (o.valueAt pl h (x.arg / 256) n).map fun p => (p, bs)

/-- A sequence (R101, R103, R306): its header, its page table, and of each page the page header, which one sequence references, the
metadata and the payloads. -/
def seqWrites (hdr : Nat) (c : List Byte) : List LoadWrite :=
  let n := seqPages c
  let page := 4096 + 256 * seqPayload c
  (.oneAddress hdr, c.take 64) :: (.oneAddress (numAt c 24 8), (c.drop 64).take (8 * n)) ::
    ((List.range n).map fun p =>
      (BytePlace.oneAddress (seqFrame c p), leBytes 8 1 ++ List.replicate 56 0 ++ (c.drop (64 + 8 * n + page * p)).take page))

/-- Everything that a load writes, later writes over earlier ones. -/
def ObjectImage.writes (o : ObjectImage) (pl : Placement) : List LoadWrite :=
  let es := (List.range 64).filterMap fun h => if Entry.loaded h (o.entryAt h) then some (h, o.entryAt h) else none
  (es.map fun (h, e) => o.tilesOf pl h e).flatten ++ (es.map fun (h, e) => o.pageTables pl h e).flatten ++
    [(.oneAddress pl.args, List.replicate 256 0)] ++
    ((o.sections.filter fun x => x.kind == 5).map fun x => seqWrites (o.entryAt (x.arg % 64)).base x.bytes).flatten ++
    ((o.sections.filter fun x => x.kind == 4).map (o.dataWrites pl)).flatten

/-- The bytes of a list of writes that every tile has, by slice offset, zeros listed (R57). -/
def localBytes (ws : List LoadWrite) : Memory :=
  ws.foldl (fun m w => match w with
    | (.everyTile o, bs) => (bs.zip (List.range bs.length)).foldl (fun m (b, n) => assocPut (o + n) b m) m
    | _ => m) []

/-- The record of the image that State.images holds. -/
def ObjectImage.record (o : ObjectImage) (pl : Placement) : Image :=
  { base := pl.code, size := (o.content 1).length, code := memWrites [] 0 (o.content 1), template := memWrites [] 0 (o.content 2),
    table := o.table, data := localBytes (o.writes pl) }

/-- The writes at global addresses performed: none where a byte is not mapped writable. -/
def placeAll (asid : Nat) : List LoadWrite → State → Option State
  | [], s => some s
  | (.everyTile _, _) :: t, s => placeAll asid t s
  | (.oneAddress a, bs) :: t, s =>
    match s.writeGlobal 0 asid a bs with
    | some s => placeAll asid t s
    | none => none

/-- Whether every away tile is one of a pageable entry and the placement gives it its external frame (R281). -/
def ObjectImage.awayPlaced (o : ObjectImage) (pl : Placement) : Bool :=
  (List.range ((o.content 8).length / 8)).all fun i =>
    let h := numAt (o.content 8) (8 * i) 1 % 64
    let k := numAt (o.content 8) (8 * i + 4) 4
    (o.entryAt h).pageable && decide (k < (o.entryAt h).tiles) && (assocFind (h + 64 * k) pl.away).isSome

/-- Whether every counter that a load names is a word of a counter array, no two of them one (R18, R271). -/
def ObjectImage.countersPlaced (o : ObjectImage) (pl : Placement) : Bool :=
  (pl.counters.all fun (n, _) => (o.counter pl n).isSome) && decide (pl.counters.map (·.2)).Nodup

/-- An image loaded by system software: read, relocated and placed (R305 to R307). -/
def State.loadImage (s : State) (pl : Placement) (f : List Byte) : Except ImageRefusal State :=
  match readImage f with
  | .error e => .error e
  | .ok o => match o.relocate pl with
    | .error e => .error e
    | .ok o => if !o.awayPlaced pl || !o.countersPlaced pl then .error .placement else match placeAll pl.asid (o.writes pl) s with
      | none => .error .placement
      | some s => .ok { s with images := assocPut pl.code (o.record pl) s.images,
                               codePoison := s.codePoison.filter fun p => !meets p.2 8 pl.code (o.record pl).size }

/-- The descriptor that submits a loaded image (R34, R271, R306): D1 and D2 from LAUNCH, one strand without it; the counter that DONE names and
the other fields are system software's. -/
def ObjectImage.descriptor (o : ObjectImage) (pl : Placement) (done : Nat) : Vector Word 8 :=
  let d : Nat → Nat := fun k => if (o.content 6).isEmpty then 2 ^ 32 + 1 else numAt (o.content 6) (8 * k) 8
  #v[BitVec.ofNat 64 (pl.code + o.entry), BitVec.ofNat 64 (d 0), BitVec.ofNat 64 (d 1), BitVec.ofNat 64 pl.args, BitVec.ofNat 64 done, 0, 0, 0]

end Sys2Proof.Machine
end

