-- ==== Sys2Proof/Machine/Assembly.lean ====
section
/-!
DEFINITION. What tsas makes of a source file (R15 to R18, R269, R271, R275, R276, R280, R285, R300 to R304): the values of expressions, the
words of a bundle with the header that it needs, the code section, the tensor table's entries, a sequence's header and a template level. Lines
are read from their characters by Machine/AsmText.lean. No step of the part assembles.
-/

namespace Sys2Proof.Machine

/-- Why tsas rejects a line (R298 to R304). -/
inductive AsmError where
  /-- Division by zero, a shift by a negative count, or a final value outside −2⁶³ to 2⁶⁴ − 1. -/
  | value
  /-- A name that is not defined when the line is read. -/
  | undefinedName (name : String)
  /-- A name defined twice. -/
  | definedTwice (name : String)
  /-- A value that does not fit even its extended field, or an operand that the slot does not have. -/
  | fit
  /-- More slots than the bundle has left. -/
  | slots
  /-- LEND beside REP, or a header written by hand other than a leading REP. -/
  | header
  /-- A line that R173 makes illegal, with the reason code. -/
  | illegal (reason : Nat)
  /-- An argument that a directive does not admit. -/
  | directive
  /-- A line that has none of the forms of R298, R299 and R303, or a modifier that its operation does not admit (R181). -/
  | form
  /-- A name that R298 does not admit. -/
  | badName (name : String)
  /-- A handle that no line declares (R299). -/
  | handle (h : Nat)
  deriving DecidableEq, Repr

/-! ### Expressions (R300) -/

/-- An expression: numbers, names, the address functions that `.data H0` admits (R18, R275), and the operators of R300 in their order of
binding. -/
inductive AsmExpr where
  | num (n : Int)
  | name (x : String)
  | base (h : Nat)
  | payload (h : Nat) (s : AsmExpr)
  | counter (n : Nat)
  | neg (a : AsmExpr)
  | compl (a : AsmExpr)
  | mul (a b : AsmExpr)
  | div (a b : AsmExpr)
  | add (a b : AsmExpr)
  | sub (a b : AsmExpr)
  | shl (a b : AsmExpr)
  | shr (a b : AsmExpr)
  | and (a b : AsmExpr)
  | or (a b : AsmExpr)
  deriving DecidableEq, Repr

/-- The names defined so far: `.equ` constants and labels by their byte offsets. -/
abbrev AsmNames := List (String × Int)

/-- A name's value. -/
def AsmNames.find (ns : AsmNames) (x : String) : Option Int := (List.find? (fun p => p.1 == x) ns).map (·.2)

/-- An operator applied to two values, exactly. -/
def asmOp : AsmExpr → Int → Int → Except AsmError Int
  | .mul _ _, x, y => .ok (x * y)
  | .div _ _, x, y => if y = 0 then .error .value else .ok (x.tdiv y)
  | .add _ _, x, y => .ok (x + y)
  | .sub _ _, x, y => .ok (x - y)
  | .shl _ _, x, y => if y < 0 then .error .value else .ok (x * 2 ^ y.toNat)
  | .shr _ _, x, y => if y < 0 then .error .value else .ok (x.fdiv (2 ^ y.toNat))
  | .and _ _, x, y => .ok (Int.land x y)
  | .or _ _, x, y => .ok (Int.lor x y)
  | _, _, _ => .error .value

/-- The value of an expression, intermediate values unbounded. An address that a relocation will write has no value here, and is admitted as the
whole value of a `.data H0` element only (R307, notes/assumptions/8.md). -/
def AsmExpr.eval (ns : AsmNames) : AsmExpr → Except AsmError Int
  | .num n => .ok n
  | .name x => match ns.find x with
    | some v => .ok v
    | none => .error (.undefinedName x)
  | .base _ => .error .directive
  | .payload _ _ => .error .directive
  | .counter _ => .error .directive
  | .neg a => (a.eval ns).map fun v => -v
  | .compl a => (a.eval ns).map fun v => -v - 1
  | .mul a b => (a.eval ns).bind fun x => (b.eval ns).bind fun y => asmOp (.mul a b) x y
  | .div a b => (a.eval ns).bind fun x => (b.eval ns).bind fun y => asmOp (.div a b) x y
  | .add a b => (a.eval ns).bind fun x => (b.eval ns).bind fun y => asmOp (.add a b) x y
  | .sub a b => (a.eval ns).bind fun x => (b.eval ns).bind fun y => asmOp (.sub a b) x y
  | .shl a b => (a.eval ns).bind fun x => (b.eval ns).bind fun y => asmOp (.shl a b) x y
  | .shr a b => (a.eval ns).bind fun x => (b.eval ns).bind fun y => asmOp (.shr a b) x y
  | .and a b => (a.eval ns).bind fun x => (b.eval ns).bind fun y => asmOp (.and a b) x y
  | .or a b => (a.eval ns).bind fun x => (b.eval ns).bind fun y => asmOp (.or a b) x y

/-- The final value of an expression: in range, then taken modulo 2⁶⁴. -/
def AsmExpr.word (ns : AsmNames) (e : AsmExpr) : Except AsmError Word :=
  (e.eval ns).bind fun v => if -(2 ^ 63) ≤ v ∧ v < 2 ^ 64 then .ok (BitVec.ofInt 64 v) else .error .value

/-! ### Immediates and headers (R16, R301, R302) -/

/-- What a slot's immediate admits without a LEND header and under one (R16, R170, R188, R195, R301). -/
structure AsmField where
  lo : Int
  hi : Int
  extLo : Int
  extHi : Int
  deriving DecidableEq, Repr

/-- A field that no header extends. -/
def AsmField.plain (lo hi : Int) : AsmField := ⟨lo, hi, lo, hi⟩

/-- An unsigned field of n bits that no header extends. -/
def AsmField.bits (n : Nat) : AsmField := .plain 0 (2 ^ n - 1)

/-- The fields of the immediates that a line gives for each operation, in the order in which it writes them; a local access has its row
offset. What of a field's values the operation excludes is R173's to say. -/
def Instr.asmFields : Instr → List AsmField
  | .stall _ _ _ => [⟨0, 255, 0, 65535⟩]
  | .addi _ _ _ _ _ | .andi _ _ _ _ _ | .ori _ _ _ _ _ | .xori _ _ _ _ _ | .movi _ _ _ _ => [⟨-128, 127, -32768, 32767⟩]
  | .shli _ _ _ _ _ | .shri _ _ _ _ _ | .srai _ _ _ _ _ => [.bits 6]
  | .movk _ _ _ _ _ => [⟨-128, 127, -32768, 65535⟩, .bits 2]
  | .cmpeqi _ _ _ _ _ | .cmplti _ _ _ _ _ | .cmplei _ _ _ _ _ => [⟨-256, 255, -65536, 65535⟩]
  | .tbit _ _ _ _ => [.bits 6]
  | .pset _ _ _ => [.bits 1]
  | .br _ _ _ | .call _ _ _ => [⟨-(2 ^ 19), 2 ^ 19 - 1, -(2 ^ 27), 2 ^ 27 - 1⟩]
  | .loop _ _ _ _ _ => [.bits 4, ⟨1, 1023, 1, 2 ^ 18 - 1⟩]
  | .trap _ _ => [.bits 8]
  | .spool _ _ _ => [.bits 4, .bits 3]
  | .spbrk _ _ => [.bits 3]
  | .ld8 _ _ _ _ _ | .ld16 _ _ _ _ _ | .ld32 _ _ _ _ _ | .ld64 _ _ _ _ _ | .ld8s _ _ _ _ _ | .ld16s _ _ _ _ _ | .ld32s _ _ _ _ _
  | .st8 _ _ _ _ _ | .st16 _ _ _ _ _ | .st32 _ _ _ _ _ | .st64 _ _ _ _ _ | .ldv _ _ _ _ _ | .stv _ _ _ _ _ | .ldvx _ _ _ _ _
  | .stvx _ _ _ _ _ | .ldt _ _ _ _ _ | .stt _ _ _ _ _ | .lds _ _ _ _ _ | .ldsv _ _ _ _ _ => [⟨0, 0, -16, 15⟩]
  | .spld _ _ _ | .spst _ _ _ | .spldv _ _ _ | .spstv _ _ _ | .spldp _ _ _ | .spstp _ _ _ => [.bits 9]
  | .mpush _ _ _ _ _ _ | .mpushl _ _ _ _ _ | .mpushg _ _ _ _ _ _ => [.bits 6]
  | .mshift _ _ _ => [.plain (-64) 63]
  | .mdrain _ _ _ _ => [.bits 6, .bits 7]
  | .gidx _ _ _ _ _ | .gdiag _ _ _ _ => [.bits 7]
  | .tsetv _ _ _ _ | .tgetv _ _ _ _ | .xpand _ _ _ _ _ | .xpack _ _ _ _ => [.bits 6]
  | .dfcfg _ _ _ _ _ _ => [.plain (-128) 127]
  | .dfstat _ _ _ | .traprd _ _ _ => [.bits 3]
  | .rep _ _ _ _ => [.bits 8, .bits 2, .bits 2, .bits 2]
  | _ => []

/-- The values of the immediates that a line may leave out (R170, R218, R229, R269); none where it must write all. -/
def Instr.asmDefaults : Instr → List Word
  | .mdrain _ _ _ _ => [0, 64]
  | .dfcfg _ _ _ _ _ _ => [0]
  | .rep _ _ _ _ => [0, 0, 0, 0]
  | .ld8 _ _ _ _ _ | .ld16 _ _ _ _ _ | .ld32 _ _ _ _ _ | .ld64 _ _ _ _ _ | .ld8s _ _ _ _ _ | .ld16s _ _ _ _ _ | .ld32s _ _ _ _ _
  | .st8 _ _ _ _ _ | .st16 _ _ _ _ _ | .st32 _ _ _ _ _ | .st64 _ _ _ _ _ | .ldv _ _ _ _ _ | .stv _ _ _ _ _ | .ldvx _ _ _ _ _
  | .stvx _ _ _ _ _ | .ldt _ _ _ _ _ | .stt _ _ _ _ _ | .lds _ _ _ _ _ | .ldsv _ _ _ _ _ => [0]
  | _ => []

/-- The byte that LEND lends for a value of which w bits stand in the slot. -/
def lendPart (lend : Bool) (w : Nat) (v : Int) : Option (BitVec 8) := if lend then some (BitVec.ofInt 8 (v.fdiv (2 ^ w))) else none

/-- The byte of a local access: its row offset over the lane mask that the line names (R170). -/
def lendAccess (lend : Bool) (x : Option (BitVec 8)) (v : Int) : Option (BitVec 8) :=
  if lend then some (BitVec.ofInt 8 (8 * v + (x.getD 0).toNat % 8)) else none

/-- An instruction with the values of its line in its fields, in its form with or without LEND: v is the only value or the one that LEND
extends, u the other ones in order. A local access keeps in the low bits of x the lane mask that the line names. -/
def Instr.withValues (lend : Bool) (v : Int) (u : Nat → Int) : Instr → Instr
  | .stall g _ _ => .stall g (BitVec.ofInt 8 v) (lendPart lend 8 v)
  | .addi g d a _ _ => .addi g d a (BitVec.ofInt 8 v) (lendPart lend 8 v)
  | .andi g d a _ _ => .andi g d a (BitVec.ofInt 8 v) (lendPart lend 8 v)
  | .ori g d a _ _ => .ori g d a (BitVec.ofInt 8 v) (lendPart lend 8 v)
  | .xori g d a _ _ => .xori g d a (BitVec.ofInt 8 v) (lendPart lend 8 v)
  | .shli g d a _ _ => .shli g d a (BitVec.ofInt 6 v) (lendPart lend 8 v)
  | .shri g d a _ _ => .shri g d a (BitVec.ofInt 6 v) (lendPart lend 8 v)
  | .srai g d a _ _ => .srai g d a (BitVec.ofInt 6 v) (lendPart lend 8 v)
  | .movi g d _ _ => .movi g d (BitVec.ofInt 8 v) (lendPart lend 8 v)
  | .movk g d _ _ _ => .movk g d (BitVec.ofInt 2 (u 0)) (BitVec.ofInt 8 v) (lendPart lend 8 v)
  | .cmpeqi g p a _ _ => .cmpeqi g p a (BitVec.ofInt 9 v) (lendPart lend 9 v)
  | .cmplti g p a _ _ => .cmplti g p a (BitVec.ofInt 9 v) (lendPart lend 9 v)
  | .cmplei g p a _ _ => .cmplei g p a (BitVec.ofInt 9 v) (lendPart lend 9 v)
  | .br g _ _ => .br g (BitVec.ofInt 20 v) (lendPart lend 20 v)
  | .call g _ _ => .call g (BitVec.ofInt 20 v) (lendPart lend 20 v)
  | .loop g a _ _ _ => .loop g a (BitVec.ofInt 4 (u 0)) (BitVec.ofInt 10 v) (lendPart lend 10 v)
  | .tbit g p a _ => .tbit g p a (BitVec.ofInt 6 v)
  | .pset g d _ => .pset g d (BitVec.ofInt 4 v)
  | .trap g _ => .trap g (BitVec.ofInt 8 v)
  | .spool g _ _ => .spool g (BitVec.ofInt 4 v) (BitVec.ofInt 3 (u 0))
  | .spbrk g _ => .spbrk g (BitVec.ofInt 3 v)
  | .spld g r _ => .spld g r (BitVec.ofInt 9 v)
  | .spst g r _ => .spst g r (BitVec.ofInt 9 v)
  | .spldv g r _ => .spldv g r (BitVec.ofInt 9 v)
  | .spstv g r _ => .spstv g r (BitVec.ofInt 9 v)
  | .spldp g r _ => .spldp g r (BitVec.ofInt 9 v)
  | .spstp g r _ => .spstp g r (BitVec.ofInt 9 v)
  | .mpush g a s _ h t => .mpush g a s (BitVec.ofInt 6 v) h t
  | .mpushl g a _ h t => .mpushl g a (BitVec.ofInt 6 v) h t
  | .mpushg g a s _ h t => .mpushg g a s (BitVec.ofInt 6 v) h t
  | .mshift g a _ => .mshift g a (BitVec.ofInt 7 v)
  | .mdrain g a _ _ => .mdrain g a (BitVec.ofInt 6 v) (BitVec.ofInt 7 (u 0))
  | .gidx g t w k _ => .gidx g t w k (BitVec.ofInt 7 v)
  | .gdiag g t w _ => .gdiag g t w (BitVec.ofInt 7 v)
  | .tsetv g t w _ => .tsetv g t w (BitVec.ofInt 6 v)
  | .tgetv g t w _ => .tgetv g t w (BitVec.ofInt 6 v)
  | .xpand g d s f _ => .xpand g d s f (BitVec.ofInt 6 v)
  | .xpack g d s _ => .xpack g d s (BitVec.ofInt 6 v)
  | .dfcfg g n f r z _ => .dfcfg g n f r z (BitVec.ofInt 8 v)
  | .dfstat g d _ => .dfstat g d (BitVec.ofInt 3 v)
  | .traprd g d _ => .traprd g d (BitVec.ofInt 3 v)
  | .rep _ _ _ _ => .rep (BitVec.ofInt 8 v) (BitVec.ofInt 2 (u 2)) (BitVec.ofInt 2 (u 1)) (BitVec.ofInt 2 (u 0))
  | .ld8 g h d c x => .ld8 g h d c (lendAccess lend x v)
  | .ld16 g h d c x => .ld16 g h d c (lendAccess lend x v)
  | .ld32 g h d c x => .ld32 g h d c (lendAccess lend x v)
  | .ld64 g h d c x => .ld64 g h d c (lendAccess lend x v)
  | .ld8s g h d c x => .ld8s g h d c (lendAccess lend x v)
  | .ld16s g h d c x => .ld16s g h d c (lendAccess lend x v)
  | .ld32s g h d c x => .ld32s g h d c (lendAccess lend x v)
  | .st8 g h d c x => .st8 g h d c (lendAccess lend x v)
  | .st16 g h d c x => .st16 g h d c (lendAccess lend x v)
  | .st32 g h d c x => .st32 g h d c (lendAccess lend x v)
  | .st64 g h d c x => .st64 g h d c (lendAccess lend x v)
  | .ldv g h d c x => .ldv g h d c (lendAccess lend x v)
  | .stv g h d c x => .stv g h d c (lendAccess lend x v)
  | .ldvx g h d c x => .ldvx g h d c (lendAccess lend x v)
  | .stvx g h d c x => .stvx g h d c (lendAccess lend x v)
  | .ldt g h d c x => .ldt g h d c (lendAccess lend x v)
  | .stt g h d c x => .stt g h d c (lendAccess lend x v)
  | .lds g h d c x => .lds g h d c (lendAccess lend x v)
  | .ldsv g h d c x => .ldsv g h d c (lendAccess lend x v)
  | i => i

/-- The lane mask that the line names, K0 without one. -/
def Instr.laneMask : Instr → Nat
  | .ldv _ _ _ _ x | .stv _ _ _ _ x | .ldvx _ _ _ _ x | .stvx _ _ _ _ x | .ldsv _ _ _ _ x => (x.getD 0).toNat % 8
  | _ => 0

/-- A slot of a line: the instruction, and the values of its immediates in the order in which the line writes them. -/
structure AsmSlot where
  instr : Instr
  values : List Word
  deriving DecidableEq, Repr

/-- Value k of a slot as its field reads it, the default where the line leaves it out. -/
def AsmSlot.value (x : AsmSlot) (k : Nat) : Int :=
  match x.values[k]? with
  | some v => v.toInt
  | none => ((Instr.asmDefaults x.instr).getD k 0).toInt

/-- Whether a value lies in a field (R300). -/
def asmFits (lo hi v : Int) : Bool := decide (lo ≤ v) && decide (v ≤ hi)

/-- The place of the value that LEND extends: the length of a LOOP, else the first. -/
def Instr.asmMain : Instr → Nat
  | .loop _ _ _ _ _ => 1
  | _ => 0

/-- Whether a slot makes its line need LEND (R301). -/
def AsmSlot.needsLend (x : AsmSlot) : Bool :=
  (match (Instr.asmFields x.instr)[Instr.asmMain x.instr]? with
    | some f => f != .plain f.lo f.hi && !asmFits f.lo f.hi (x.value (Instr.asmMain x.instr))
    | none => false) || Instr.laneMask x.instr != 0

/-- Whether a line may write n immediates for an operation (R170, R218, R229, R269). -/
def Instr.asmCount (i : Instr) (n : Nat) : Bool :=
  match i with
  | .rep _ _ _ _ => n == 1 || n == 4
  | .mdrain _ _ _ _ => n == 0 || n == 2
  | _ => if Instr.asmDefaults i = [] then n == (Instr.asmFields i).length else decide (n ≤ 1)

/-- Whether a slot has the values that it needs, and each fits its field, extended or not (R16, R302). -/
def AsmSlot.fits (x : AsmSlot) : Bool :=
  let fs := Instr.asmFields x.instr
  Instr.asmCount x.instr x.values.length && (fs.zip (List.range fs.length)).all fun (f, k) => asmFits f.extLo f.extHi (x.value k)

/-- A slot's instruction with its values. -/
def AsmSlot.filled (lend : Bool) (x : AsmSlot) : Instr :=
  let m := Instr.asmMain x.instr
  Instr.withValues lend (x.value m) (fun k => x.value (if k < m then k else k + 1)) x.instr

/-- A header written by hand (R301). -/
def isLend : Instr → Bool
  | .lend _ _ _ => true
  | _ => false

/-- A REP header. -/
def isRep : Instr → Bool
  | .rep _ _ _ _ => true
  | _ => false

/-- The words of instructions with their lend bytes, none where one is no slot of a bundle. -/
def asmWords : List Instr → Option (List (BitVec 32 × BitVec 8))
  | [] => some []
  | i :: is => match encode i, asmWords is with
    | some (w, x), some ws => some ((w, x.getD 0) :: ws)
    | _, _ => none

/-- The four words of a line (R15, R301, R302): a LEND header with a byte for every slot that extends where one slot needs it, NOP in the
slots left. R173 is judged from the text: delay for the line after a branch, body in a LOOP body, nest in a template. -/
def asmBundle (delay body nest : Bool) (xs : List AsmSlot) : Except AsmError (List (BitVec 32)) :=
  let lend := xs.any AsmSlot.needsLend
  let rep := match xs with | x :: _ => isRep x.instr | [] => false
  if xs.any (fun x => isLend x.instr) || (xs.drop 1).any (fun x => isRep x.instr) || (lend && rep) then .error .header
  else if !xs.all AsmSlot.fits then .error .fit
  else if 4 < xs.length + (if lend then 1 else 0) then .error .slots
  else match asmWords (xs.map (AsmSlot.filled lend)) with
    | none => .error .fit
    | some ws =>
      let body4 := ws.map (·.1)
      let byte : Nat → BitVec 8 := fun k => ((ws.map (·.2))[k]?).getD 0
      let head : List (BitVec 32) := if lend then [BitVec.ofNat 32 (0xF0000000 + (byte 0).toNat + 256 * (byte 1).toNat + 65536 * (byte 2).toNat)] else []
      let words := (head ++ body4 ++ List.replicate 4 0).take 4
      match bundleFault delay body nest (placedSlots ((words.map fun w => leBytes 4 w.toNat).flatten)) with
      | some (_, r) => .error (.illegal r.toNat)
      | none => .ok words

/-! ### The code section (R15, R17, R192, R303) -/

/-- The immediates of a slot as its line writes them: expressions, or the label of a branch or call (R300). -/
inductive AsmValue where
  | exprs (es : List AsmExpr)
  | label (x : String)
  deriving DecidableEq, Repr

/-- A line of code: its label and slots, or `.align`, or `.equ`. -/
inductive AsmLine where
  | bundle (label : Option String) (slots : List (Instr × AsmValue))
  | align (n : Nat)
  | equ (name : String) (e : AsmExpr)
  deriving DecidableEq, Repr

/-- NOP bundles until the next bundle's offset is a multiple of 16·n bytes (R303). -/
def alignPad (n k : Nat) : Nat := if n = 0 then 0 else (n - k % n) % n

/-- The labels of the lines from bundle k on, by byte offset. -/
def asmLabels : Nat → List AsmLine → AsmNames
  | _, [] => []
  | k, .bundle (some x) _ :: ls => (x, 16 * (k : Int)) :: asmLabels (k + 1) ls
  | k, .bundle none _ :: ls => asmLabels (k + 1) ls
  | k, .align n :: ls => asmLabels (k + alignPad n k) ls
  | k, .equ _ _ :: ls => asmLabels k ls

/-- A branch or a call, whose operand is a label (R300). -/
def takesLabel : Instr → Bool
  | .br _ _ _ => true
  | .call _ _ _ => true
  | _ => false

/-- Expressions evaluated in order. -/
def asmExprs (ns : AsmNames) : List AsmExpr → Except AsmError (List Word)
  | [] => .ok []
  | e :: es => match e.word ns, asmExprs ns es with
    | .ok v, .ok vs => .ok (v :: vs)
    | .error e, _ => .error e
    | _, .error e => .error e

/-- The slot of an instruction in bundle k with its immediates (R192, R300): of a label, the offset in bundles; the length of a LOOP is no
label. -/
def asmSlot (labels ns : AsmNames) (k : Nat) (i : Instr) : AsmValue → Except AsmError AsmSlot
  | .label x =>
    if !takesLabel i then .error .fit
    else match labels.find x with
      | some a => .ok ⟨i, [BitVec.ofInt 64 (a / 16 - k)]⟩
      | none => .error (.undefinedName x)
  | .exprs es =>
    let bare : Bool := match i, es.getLast? with
      | .loop _ _ _ _ _, some (.name x) => (labels.find x).isSome
      | _, _ => false
    if takesLabel i || bare then .error .fit else (asmExprs ns es).map fun vs => ⟨i, vs⟩

/-- The slots of a line with their values. -/
def asmSlots (labels ns : AsmNames) (k : Nat) : List (Instr × AsmValue) → Except AsmError (List AsmSlot)
  | [] => .ok []
  | (i, v) :: xs => match asmSlot labels ns k i v, asmSlots labels ns k xs with
    | .ok y, .ok ys => .ok (y :: ys)
    | .error e, _ => .error e
    | _, .error e => .error e

/-- Whether a line's bundle is followed by a delay bundle (R193). -/
def asmBranches (xs : List (Instr × AsmValue)) : Bool :=
  xs.any fun (i, _) => match i with
    | .br _ _ _ => true
    | .call _ _ _ => true
    | .jmp _ _ => true
    | .callx _ _ => true
    | _ => false

/-- The bundle at which a LOOP body that starts after bundle k ends; 0 without a LOOP. -/
def asmBodyEnd (k : Nat) (xs : List AsmSlot) : Nat :=
  (xs.map fun x => match x.instr with | .loop _ _ _ _ _ => k + 1 + (x.value 1).toNat | _ => 0).foldl max 0

/-- What the lines of code before a line leave: the bundles of the code section, the names, whether a delay bundle is due, the bundle at which
the last LOOP body ends. -/
structure AsmCode where
  words : List (List (BitVec 32)) := []
  names : AsmNames := []
  delay : Bool := false
  stop : Nat := 0
  deriving DecidableEq, Repr

/-- The bundle of a line that stands as bundle k. -/
def asmBundleAt (nest : Bool) (labels ns : AsmNames) (delay : Bool) (stop k : Nat) (xs : List (Instr × AsmValue)) :
    Except AsmError (List (BitVec 32) × Nat) :=
  match asmSlots labels ns k xs with
  | .error e => .error e
  | .ok ys => (asmBundle delay (decide (k < stop)) nest ys).map fun w => (w, max stop (asmBodyEnd k ys))

/-- A line of the code section (R298, R300, R303). -/
def AsmCode.line (labels : AsmNames) (c : AsmCode) : AsmLine → Except AsmError AsmCode
  | .equ x e =>
    if (c.names ++ labels).any fun p => p.1 == x then .error (.definedTwice x)
    else match e.word c.names, e.eval c.names with
      | .ok _, .ok v => .ok { c with names := (x, v) :: c.names }
      | .error e, _ => .error e
      | _, .error e => .error e
  | .align n =>
    if n = 0 ∨ 4096 < n ∨ 2 ^ Nat.log2 n ≠ n then .error .directive
    else
      let pad := alignPad n c.words.length
      .ok { c with words := c.words ++ List.replicate pad [0, 0, 0, 0], delay := c.delay && pad == 0 }
  | .bundle lab xs =>
    let k := c.words.length
    match lab with
    | none => (asmBundleAt false labels c.names c.delay c.stop k xs).map fun (w, stop) =>
        { c with words := c.words ++ [w], delay := asmBranches xs, stop := stop }
    | some x =>
      if c.names.any fun p => p.1 == x then .error (.definedTwice x)
      else
        let ns := (x, 16 * (k : Int)) :: c.names
        (asmBundleAt false labels ns c.delay c.stop k xs).map fun (w, stop) =>
          { words := c.words ++ [w], names := ns, delay := asmBranches xs, stop := stop }

/-! ### Directives (R17, R18, R269 to R285, R303, R304) -/

/-- A home as a directive writes it (R271). -/
inductive AsmHome where
  | here
  | tile (t : Nat)
  | rect (x0 y0 w h : Nat)
  | external
  deriving DecidableEq, Repr

/-- The HOME field (R55, R271). -/
def AsmHome.field : AsmHome → Nat
  | .here => 0
  | .tile t => 2 ^ 62 + t
  | .rect x0 y0 w h => 2 ^ 63 + x0 + 2 ^ 4 * y0 + 2 ^ 9 * (w - 1) + 2 ^ 13 * (h - 1)
  | .external => 2 ^ 62 * 3

/-- The homes that the directives admit: a tile of the mesh, a rectangle within it. -/
def AsmHome.ok : AsmHome → Bool
  | .here => true
  | .tile t => decide (t ≤ 383)
  | .rect x0 y0 w h => decide (1 ≤ w) && decide (1 ≤ h) && decide (x0 + w ≤ 16) && decide (y0 + h ≤ 24)
  | .external => false

/-- Whether a home takes in a tile. -/
def AsmHome.holds (h : AsmHome) (t : Nat) : Bool :=
  match h with
  | .here => true
  | .tile u => t == u
  | .rect x0 y0 w h => decide (x0 ≤ tileX t) && decide (tileX t < x0 + w) && decide (y0 ≤ tileY t) && decide (tileY t < y0 + h)
  | .external => false

/-- The tile whose slice a name of a home stands for: tile 0 for a local one (R18). -/
def AsmHome.first : AsmHome → Nat
  | .tile t => t
  | .rect x0 y0 _ _ => tileAt x0 y0
  | _ => 0

/-- The options of `.tensor` (R304). -/
structure AsmOptions where
  pageable : Bool := false
  decay : Option Nat := none
  ronly : Bool := false
  gshared : Bool := false
  tstride : Option Nat := none
  deriving DecidableEq, Repr

/-- A `.tensor` line with its values: kind is 0 dense, 1 bmz or 2 stamped. -/
structure AsmTensor where
  kind : Nat
  fmt : Nat
  exts : List Nat
  home : AsmHome
  counter : Option Nat
  options : AsmOptions
  deriving DecidableEq, Repr

/-- A `.seq` line with its values. -/
structure AsmSeq where
  fmt : Nat
  e : Nat
  cap : Nat
  home : AsmHome
  decay : Nat
  cscope : Nat
  len : Nat
  group : Nat
  deriving DecidableEq, Repr

/-- A value of `.data`: its bits, or the address that a relocation writes there, with its TYPE and ARG (R307). -/
inductive AsmDatum where
  | bits (v : Nat)
  | reloc (type arg : Nat)
  deriving DecidableEq, Repr

/-- A body's trip (R276): the trip source and its selector or count. -/
inductive AsmTrip where
  | count (n : Nat)
  | x (n : Nat)
  | sqlen (n : Nat)
  | keys (n : Nat)
  deriving DecidableEq, Repr

/-- The template of a level that a `.template` line opens: its body with its trip and increments, its entry or its exit. -/
inductive AsmPart where
  | body (trip : AsmTrip) (incs : List (Nat × Int))
  | entry
  | exit
  deriving DecidableEq, Repr

/-- A closed template: nest, level, part, first template index and bundles. -/
structure AsmTemplate where
  nest : Nat
  level : Nat
  part : AsmPart
  start : Nat
  words : List (List (BitVec 32))
  deriving DecidableEq, Repr

/-- A template's place without its bundles, by which two blocks of one name are told apart. -/
def AsmTemplate.sameAs (x : AsmTemplate) (d l : Nat) (p : AsmPart) : Bool :=
  x.nest == d && x.level == l && (match x.part, p with
    | .body _ _, .body _ _ => true
    | .entry, .entry => true
    | .exit, .exit => true
    | _, _ => false)

/-- A line of a source file, read: a line of code, or a directive (R303) with its expressions. -/
inductive AsmStmt where
  | code (l : AsmLine)
  | entry (label : String)
  | tensor (h kind fmt : Nat) (exts : List AsmExpr) (home : AsmHome) (counter : Option Nat) (pageable ronly gshared : Bool)
      (decay tstride : Option AsmExpr)
  | counter (n : Nat) (home : AsmHome)
  | seq (h fmt : Nat) (e cap : AsmExpr) (home : AsmHome) (decay cscope len group : AsmExpr)
  | meta_ (h : Nat) (s position group : AsmExpr) (retired : Bool)
  | data (h : Nat) (offset : AsmExpr) (values : List AsmExpr)
  | away (h : Nat) (k : AsmExpr)
  | template (d l : AsmExpr) (part : AsmPart)
  | endt
  | launch (n : AsmExpr) (home : AsmHome)
  deriving DecidableEq, Repr

/-- What the lines before a line declare. -/
structure AsmFile where
  code : AsmCode := {}
  entry : Option String := none
  tensors : Assoc AsmTensor := []
  counters : List (Nat × AsmHome) := []
  seqs : Assoc AsmSeq := []
  metas : List (Nat × Nat × Nat × Nat × Bool) := []
  data : List (Nat × Nat × List AsmDatum) := []
  aways : List (Nat × Nat) := []
  templates : List AsmTemplate := []
  open_ : Option AsmTemplate := none
  launch : Option (Nat × AsmHome) := none
  deriving DecidableEq, Repr

/-- An expression's value within a range. -/
def asmNat (ns : AsmNames) (top : Nat) (e : AsmExpr) : Except AsmError Nat :=
  (e.word ns).bind fun v => if v.toNat ≤ top then .ok v.toNat else .error .fit

/-- An expression's value within a range where a line may leave it out. -/
def asmOpt (ns : AsmNames) (top : Nat) : Option AsmExpr → Except AsmError (Option Nat)
  | none => .ok none
  | some e => (asmNat ns top e).map some

/-- Expressions within a range, in order. -/
def asmNats (ns : AsmNames) (top : Nat) : List AsmExpr → Except AsmError (List Nat)
  | [] => .ok []
  | e :: es => (asmNat ns top e).bind fun v => (asmNats ns top es).map fun vs => v :: vs

/-- The bytes of an element of a handle's `.data` (R18, R63, R275, R285): one where the offset counts bytes. -/
def AsmFile.dataWidth (f : AsmFile) (h : Nat) : Nat :=
  if h = 0 then 8
  else match assocFind h f.tensors, assocFind h f.seqs with
    | some t, _ => if isSq t.fmt then 1 else if t.kind = 2 then 8 else elemBytes t.fmt
    | none, some q => if isSq q.fmt then 1 else elemBytes q.fmt
    | none, none => 0

/-- A value of `.data` in an element of w bytes, which reads it signed or unsigned; in H0 an address becomes a relocation (R300, R307). -/
def asmDatum (ns : AsmNames) (h w : Nat) (e : AsmExpr) : Except AsmError AsmDatum :=
  let value : Except AsmError AsmDatum := (e.word ns).bind fun v =>
    if v.toNat < 2 ^ (8 * w) ∨ -(2 ^ (8 * w - 1)) ≤ v.toInt ∧ v.toInt < 0 then .ok (.bits (v.toNat % 2 ^ (8 * w))) else .error .fit
  if h ≠ 0 then value
  else match e with
    | .base n => .ok (.reloc 1 n)
    | .counter n => .ok (.reloc 2 n)
    | .payload n s => (asmNat ns (2 ^ 32 - 1) s).map fun s => .reloc 3 (n + 2 ^ 32 * s)
    | _ => value

/-- The values of a `.data` line. -/
def asmData (ns : AsmNames) (h w : Nat) : List AsmExpr → Except AsmError (List AsmDatum)
  | [] => .ok []
  | e :: es => (asmDatum ns h w e).bind fun v => (asmData ns h w es).map fun vs => v :: vs

/-- Whether a handle is declared. -/
def AsmFile.declares (f : AsmFile) (h : Nat) : Bool := (assocFind h f.tensors).isSome || (assocFind h f.seqs).isSome

/-- The template index that the next bundle of a template takes (R276). -/
def AsmFile.nextIndex (f : AsmFile) : Nat := (f.templates.map fun t => t.words.length).sum

/-- A directive read (R303); `.entry`, `.launch` and a handle at most once, `.data`, `.meta` and `.away` after the line that declares their
handle. -/
def AsmFile.directive (f : AsmFile) (x : AsmStmt) : Except AsmError AsmFile :=
  let ns := f.code.names
  match x with
  | .code _ => .ok f
  | .entry l => if f.entry.isSome then .error .directive else .ok { f with entry := some l }
  | .tensor h kind fmt exts home counter pageable ronly gshared decay tstride =>
    if h = 0 ∨ 63 < h ∨ f.declares h ∨ exts.isEmpty ∨ 4 < exts.length then .error .directive
    else (asmNats ns (2 ^ 32 - 1) exts).bind fun exts => (asmOpt ns (2 ^ 32 - 1) decay).bind fun decay =>
      (asmOpt ns (2 ^ 32 - 1) tstride).map fun tstride =>
        { f with tensors := assocPut h ⟨kind, fmt, exts, home, counter, ⟨pageable, decay, ronly, gshared, tstride⟩⟩ f.tensors }
  | .counter n home =>
    if !home.ok ∨ 2 ^ 16 ≤ n ∨ f.counters.any (fun c => c.1 == n) then .error .directive else .ok { f with counters := f.counters ++ [(n, home)] }
  | .seq h fmt e cap home decay cscope len group =>
    (match home with
      | .tile t =>
        if h = 0 ∨ 63 < h ∨ f.declares h ∨ 383 < t then .error .directive
        else (asmNats ns (2 ^ 32 - 1) [e, cap, decay, cscope, len, group]).bind fun v =>
          .ok { f with seqs := assocPut h ⟨fmt, v.getD 0 0, v.getD 1 0, home, v.getD 2 0, v.getD 3 0, v.getD 4 0, v.getD 5 0⟩ f.seqs }
      | _ => .error .directive)
  | .meta_ h s position group retired =>
    (match assocFind h f.seqs with
      | none => .error .directive
      | some q => (asmNats ns (2 ^ 32 - 1) [s, position, group]).bind fun v =>
        if q.len ≤ v.getD 0 0 then .error .directive else .ok { f with metas := f.metas ++ [(h, v.getD 0 0, v.getD 1 0, v.getD 2 0, retired)] })
  | .data h offset values =>
    if h ≠ 0 ∧ !f.declares h then .error .directive
    else (asmNat ns (2 ^ 56 - 1) offset).bind fun o => (asmData ns h (f.dataWidth h) values).map fun vs => { f with data := f.data ++ [(h, o, vs)] }
  | .away h k =>
    (match assocFind h f.tensors with
      | none => .error .directive
      | some t => (asmNat ns (2 ^ 32 - 1) k).bind fun k =>
        if t.options.pageable then .ok { f with aways := f.aways ++ [(h, k)] } else .error .directive)
  | .template d l part =>
    (asmNats ns 15 [d, l]).bind fun v =>
      if f.open_.isSome ∨ 5 < v.getD 1 0 ∨ f.templates.any (fun t => t.sameAs (v.getD 0 0) (v.getD 1 0) part) then .error .directive
      else .ok { f with open_ := some ⟨v.getD 0 0, v.getD 1 0, part, f.nextIndex, []⟩ }
  | .endt =>
    (match f.open_ with
      | none => .error .directive
      | some t => .ok { f with open_ := none, templates := f.templates ++ [t] })
  | .launch n home =>
    if f.launch.isSome ∨ !home.ok then .error .directive
    else (asmNat ns (2 ^ 32 - 1) n).map fun n => { f with launch := some (n, home) }

/-- The slots of a bundle given by its four words. -/
def asmPlaced (words : List (BitVec 32)) : Placed := placedSlots ((words.map fun w => leBytes 4 w.toNat).flatten)

/-- Whether the SPBRK slots of a bundle may stand where it does (R132, R302), by the levels that its words name: on a line of code no nest runs, and in
a template of a level the levels inside it are not active, nor, in its entry or exit template, an iteration of its own. -/
def breaksOk (place : Option AsmTemplate) (words : List (BitVec 32)) : Bool :=
  (asmPlaced words).all fun (_, _, i) => match i, place with
    | .ok (.spbrk _ _), none => false
    | .ok (.spbrk _ l), some t => decide (l.toNat < t.level) || (l.toNat == t.level && (match t.part with | .body _ _ => true | _ => false))
    | _, _ => true

/-- A line read: of code into the code section or, between `.template` and `.endt`, into the open template, where a label or `.align` is an
error (R298, R303). -/
def AsmFile.line (labels : AsmNames) (f : AsmFile) (x : AsmStmt) : Except AsmError AsmFile :=
  match f.open_, x with
  | some t, .code (.bundle lab xs) =>
    if lab.isSome then .error .directive
    else (asmBundleAt true labels f.code.names false 0 0 xs).bind fun (w, _) =>
      if breaksOk (some t) w then .ok { f with open_ := some { t with words := t.words ++ [w] } } else .error (.illegal 11)
  | some _, .code (.align _) => .error .directive
  | none, .code (.bundle lab xs) =>
    (f.code.line labels (.bundle lab xs)).bind fun c =>
      if breaksOk none (c.words.getLast?.getD []) then .ok { f with code := c } else .error (.illegal 11)
  | _, .code l => (f.code.line labels l).map fun c => { f with code := c }
  | _, x => f.directive x

/-- The lines of a file read in order. -/
def AsmFile.lines (labels : AsmNames) (f : AsmFile) : List AsmStmt → Except AsmError AsmFile
  | [] => .ok f
  | x :: xs => (f.line labels x).bind fun f => f.lines labels xs

/-- The lines of the code section: those of a template are not among them. -/
def codeLines : Bool → List AsmStmt → List AsmLine
  | _, [] => []
  | _, .template _ _ _ :: xs => codeLines true xs
  | _, .endt :: xs => codeLines false xs
  | false, .code l :: xs => l :: codeLines false xs
  | inside, _ :: xs => codeLines inside xs

/-- The handle that a slot names (R299). -/
def Instr.handle : Instr → Option Nat
  | .ld8 _ h _ _ _ | .ld16 _ h _ _ _ | .ld32 _ h _ _ _ | .ld64 _ h _ _ _ | .ld8s _ h _ _ _ | .ld16s _ h _ _ _ | .ld32s _ h _ _ _
  | .st8 _ h _ _ _ | .st16 _ h _ _ _ | .st32 _ h _ _ _ | .st64 _ h _ _ _ | .ldv _ h _ _ _ | .stv _ h _ _ _ | .ldvx _ h _ _ _
  | .stvx _ h _ _ _ | .ldt _ h _ _ _ | .stt _ h _ _ _ | .lds _ h _ _ _ | .ldsv _ h _ _ _ | .dfdstH _ h _ | .dfmask _ h _ _ | .dfmass _ h _ _
  | .offload _ _ _ _ _ h | .recall _ _ _ _ _ h => some h.toNat
  | _ => none

/-- The handles that a line's slots name. -/
def AsmStmt.handles : AsmStmt → List Nat
  | .code (.bundle _ xs) => xs.filterMap fun (i, _) => Instr.handle i
  | _ => []

/-- A source file read: every template is closed, `.entry` names a bundle outside templates (R303), and every handle that a slot names is
declared, or H0 (R299). -/
def readSource (xs : List AsmStmt) : Except AsmError (AsmFile × Nat) :=
  let labels := asmLabels 0 (codeLines false xs)
  match AsmFile.lines labels {} xs with
  | .error e => .error e
  | .ok f => match f.open_, f.entry.bind labels.find with
    | none, some a => match ((xs.map AsmStmt.handles).flatten).find? fun h => h != 0 && !f.declares h with
      | some h => .error (.handle h)
      | none => .ok (f, a.toNat)
    | _, _ => .error .directive

/-! ### The tensor table (R17, R18, R271, R275, R280, R285, R304) -/

/-- A table entry from its fields (R52). -/
def asmEntry (kind fmt : Nat) (exts : List Nat) (home base guard decay tstride flags : Nat) : Entry :=
  let x : Nat → Nat := fun d => exts.getD d 0
  #v[BitVec.ofNat 64 base, BitVec.ofNat 64 (x 0 + 2 ^ 32 * x 1), BitVec.ofNat 64 (x 2 + 2 ^ 32 * x 3), BitVec.ofNat 64 home,
    BitVec.ofNat 64 guard, BitVec.ofNat 64 (decay + 2 ^ 32 * tstride),
    BitVec.ofNat 64 (kind + 2 ^ 6 * fmt + 2 ^ 10 * exts.length + 2 ^ 13 * flags), 0]

/-- An entry with KIND 0xF. -/
def absentEntry : Entry := asmEntry 15 0 [] 0 0 0 0 0 0

/-- Where tsas puts what it places: the slice offsets of entries and of sequence headers and the page tables behind them by handle, and of a
sequence's frames by handle + 64·page. The rules leave the choice to tsas. -/
structure AsmLayout where
  base : Assoc Nat
  table : Assoc Nat
  frames : Assoc Nat
  deriving DecidableEq, Repr

/-- The slice offset of a handle. -/
def AsmLayout.at_ (y : AsmLayout) (h : Nat) : Nat := (assocFind h y.base).getD 0

/-- The distinct homes of the counters in the order in which they are declared. -/
def counterHomes : List AsmHome → List AsmHome
  | [] => []
  | h :: hs => h :: (counterHomes hs).filter fun x => x != h

/-- The handles of the counter arrays (R304): the highest that no directive names, H0 aside; none when there are too few. -/
def AsmFile.counterHandles (f : AsmFile) : Option (List (Nat × AsmHome)) :=
  let homes := counterHomes (f.counters.map (·.2))
  let free := (List.range 64).reverse.filter fun h => h != 0 && !f.declares h
  if homes.length ≤ free.length then some (free.zip homes) else none

/-- The handle of counter n's array and its word's index there: the counters of one home in the order of their declarations (R271, R304). -/
def AsmFile.counterPlace (f : AsmFile) (n : Nat) : Option (Nat × Nat × AsmHome) :=
  match f.counters.find? fun c => c.1 == n, f.counterHandles with
  | some (_, home), some hs =>
    let same := (f.counters.filter fun c => c.2 == home).map (·.1)
    (hs.find? fun p => p.2 == home).map fun p => (p.1, same.idxOf n, home)
  | _, _ => none

/-- The entry of the counter array of a home (R271, R304). -/
def AsmFile.counterEntry (f : AsmFile) (y : AsmLayout) (h : Nat) (home : AsmHome) : Entry :=
  asmEntry 4 0 [(f.counters.filter fun c => c.2 == home).length] home.field (y.at_ h) 0 0 0 0

/-- The global address of counter n: of tile 0's copy of a local one (R18), of a rectangle's word 4,096 on at the rectangle's next tile (R55). -/
def AsmFile.counterAddr (f : AsmFile) (y : AsmLayout) (n : Nat) : Option Nat :=
  (f.counterPlace n).bind fun (h, i, home) => (f.counterEntry y h home).counterWord i

/-- Which word of which handle's array each counter is (R271, R304), as a load of the image is told. -/
def AsmFile.counterWords (f : AsmFile) : Assoc (Nat × Nat) :=
  f.counters.foldl (fun m c => match f.counterPlace c.1 with | some (h, i, _) => assocPut c.1 (h, i) m | none => m) []

/-- The entry of a `.tensor` line (R17, R304). -/
def asmTensor (f : AsmFile) (y : AsmLayout) (h : Nat) (t : AsmTensor) : Except AsmError Entry :=
  let guard : Option (Nat × Bool) := match t.counter with
    | none => some (0, false)
    | some n => match f.counterAddr y n, f.counterPlace n with
      | some a, some (_, _, home) => some (a, home == .here)
      | _, _ => none
  let o := t.options
  match guard with
  | none => .error .directive
  | some (guard, glocal) =>
    let flags := o.pageable.toNat + 2 * o.ronly.toNat + 4 * o.gshared.toNat + 8 * glocal.toNat
    let tstride := if t.kind = 1 then o.tstride.getD (tileBytes t.fmt + 832) else 0
    let e := asmEntry t.kind t.fmt t.exts t.home.field (y.at_ h) guard (o.decay.getD 0) tstride flags
    if 2 < t.kind ∨ !t.home.ok ∨ (t.kind = 2 ∧ t.fmt ≠ 7) ∨ (t.kind = 2) ≠ (o.decay.isSome = true) ∨ (o.pageable ∧ t.kind = 2) ∨
        (o.tstride.isSome ∧ t.kind ≠ 1) then .error .directive
    else if Entry.valid 1 e then .ok e else .error .directive

/-- H0 (R18, R271, R304): thirty-two RAW elements, read-only, homed where `.launch` says. -/
def asmH0 (home : AsmHome) (base : Nat) : Except AsmError Entry :=
  if home.ok then .ok (asmEntry 0 0 [32] home.field base 0 0 0 2) else .error .directive

/-- PSIZE of e elements (R275): their bytes in runs of 16, less one; a square-block element takes a sixteenth of its block (R63). -/
def asmPsize (fmt e : Nat) : Nat := ceilDiv (e * if isSq fmt then sqBytes fmt else 16 * elemBytes fmt) 256 - 1

/-- The entry of a `.seq` line (R275): its BASE is the header's global address. -/
def asmSeq (y : AsmLayout) (h : Nat) (q : AsmSeq) : Except AsmError Entry :=
  let e := asmEntry 3 q.fmt [q.cap, q.e] 0 (sliceAddr q.home.first (y.at_ h)) 0 0 0 0
  if q.cap = 0 ∨ q.cap % 256 ≠ 0 ∨ q.cap < q.len ∨ 6 < q.cscope ∨ 0x3F800000 < q.decay ∨ q.e = 0 ∨ 255 < asmPsize q.fmt q.e then
    .error .directive
  else if Entry.valid 1 e then .ok e else .error .directive

/-- The entry of a handle: of a directive, a counter array or H0, else absent. -/
def AsmFile.entryOf (f : AsmFile) (y : AsmLayout) (arrays : List (Nat × AsmHome)) (h : Nat) : Except AsmError Entry :=
  if h = 0 then asmH0 ((f.launch.map (·.2)).getD .here) (y.at_ 0)
  else match assocFind h f.tensors, assocFind h f.seqs, arrays.find? fun p => p.1 == h with
    | some t, _, _ => asmTensor f y h t
    | none, some q, _ => asmSeq y h q
    | none, none, some (_, home) => .ok (f.counterEntry y h home)
    | none, none, none => .ok absentEntry

/-- The tensor table from handle h on, n entries. -/
def AsmFile.entries (f : AsmFile) (y : AsmLayout) (arrays : List (Nat × AsmHome)) : Nat → Nat → Except AsmError (List Entry)
  | 0, _ => .ok []
  | n + 1, h => (f.entryOf y arrays h).bind fun e => (AsmFile.entries f y arrays n (h + 1)).map fun es => e :: es

/-! ### The layout's own limits -/

/-- Pages below CAP. -/
def AsmSeq.pages (q : AsmSeq) : Nat := q.cap / 256

/-- Bytes of a slot's payload. -/
def AsmSeq.payload (q : AsmSeq) : Nat := 16 * (asmPsize q.fmt q.e + 1)

/-- What an entry takes in the slices: offset, bytes, and the home whose tiles have it. A pageable entry's frames follow its tile table
(R280); the code's own memory is system software's. -/
def AsmFile.ranges (f : AsmFile) (y : AsmLayout) (arrays : List (Nat × AsmHome)) : List (Nat × Nat × AsmHome) :=
  let ts := f.tensors.filterMap fun (h, t) => match asmTensor f y h t with
    | .error _ => none
    | .ok e =>
      let n := ceilDiv e.tiles e.owners
      some (y.at_ h, if e.pageable then ceilDiv (8 * e.tiles) 64 * 64 + n * e.tileSize else (n - 1) * e.tileSize + e.tileUse, t.home)
  let qs := (f.seqs.map fun (h, q) => (y.at_ h, 64, q.home) :: ((assocFind h y.table).getD 0, 8 * q.pages, q.home) ::
    (List.range q.pages).map fun p => ((assocFind (h + 64 * p) y.frames).getD 0, 4160 + 256 * q.payload, q.home)).flatten
  let cs := arrays.map fun (h, home) => (y.at_ h, 8 * (f.counters.filter fun c => c.2 == home).length, home)
  (y.at_ 0, 256, .here) :: (ts ++ qs ++ cs)

/-- Whether two ranges share a byte of a tile. -/
def rangesMeet (a b : Nat × Nat × AsmHome) : Bool :=
  meets a.1 a.2.1 b.1 b.2.1 && (List.range 384).any fun t => a.2.2.holds t && b.2.2.holds t

/-- A layout that tsas may choose: within the slice, what needs it aligned, and no two things on one byte. -/
def AsmFile.layoutOk (f : AsmFile) (y : AsmLayout) (arrays : List (Nat × AsmHome)) : Bool :=
  let rs := f.ranges y arrays
  (rs.all fun r => decide (r.1 + r.2.1 ≤ 0x800000)) && y.base.all (fun p => p.2 % 64 == 0) && y.table.all (fun p => p.2 % 8 == 0) &&
    y.frames.all (fun p => p.2 % 4096 == 0) &&
    (List.range rs.length).all fun i => (List.range i).all fun j => match rs[i]?, rs[j]? with
      | some a, some b => !rangesMeet a b
      | _, _ => true

/-! ### Sections (R18, R129, R275, R276, R281, R305 to R307) -/

/-- A SEQ section's header (R101, R275): LEN = RSV = len, RETIRED the number of slots that `.meta` retires. -/
def asmSeqHeader (q : AsmSeq) (retired ptab : Nat) : List Byte :=
  leBytes 8 q.len ++ leBytes 8 q.len ++ leBytes 8 retired ++ leBytes 8 ptab ++ leBytes 8 0 ++ leBytes 8 0 ++ leBytes 4 0 ++ leBytes 4 q.cap ++
    leBytes 4 q.decay ++ leBytes 2 0 ++ leBytes 1 (asmPsize q.fmt q.e) ++ leBytes 1 (q.cscope * 32)

/-- The last `.meta` of a slot. -/
def AsmFile.metaOf (f : AsmFile) (h s : Nat) : Option (Nat × Nat × Bool) :=
  ((f.metas.reverse).find? fun m => m.1 == h && m.2.1 == s).map fun m => m.2.2

/-- A slot's metadata record (R104, R275): a committed slot below len has its index as POSITION and the sequence's group, or what `.meta`
says; a slot above is zero. -/
def AsmFile.slotRecord (f : AsmFile) (h : Nat) (q : AsmSeq) (s : Nat) : List Byte :=
  if q.len ≤ s then List.replicate 16 0
  else
    let (position, group, retired) := (f.metaOf h s).getD (s, q.group, false)
    leBytes 4 position ++ leBytes 4 group ++ leBytes 6 0 ++ leBytes 2 retired.toNat

/-- A SEQ section (R306): header, page table, and each page's metadata and payloads, which `.data` fills afterwards. -/
def AsmFile.seqSection (f : AsmFile) (y : AsmLayout) (h : Nat) (q : AsmSeq) : List Byte :=
  let t := q.home.first
  let retired := ((List.range q.len).filter fun s => match f.metaOf h s with | some (_, _, r) => r | none => false).length
  asmSeqHeader q retired (sliceAddr t ((assocFind h y.table).getD 0)) ++
    ((List.range q.pages).map fun p => leBytes 8 (sliceAddr t ((assocFind (h + 64 * p) y.frames).getD 0) + 1)).flatten ++
    ((List.range q.pages).map fun p =>
      ((List.range 256).map fun j => f.slotRecord h q (256 * p + j)).flatten ++ List.replicate (256 * q.payload) 0).flatten

/-- The bytes of `.data` values, an address as a zero word. -/
def datumBytes (w : Nat) : AsmDatum → List Byte
  | .bits v => leBytes w v
  | .reloc _ _ => leBytes w 0

/-- The relocations of the DATA section of a `.data H0` line (R307): 16 bytes each. -/
def datumRelocs (sec : Nat) (vs : List AsmDatum) : List Byte :=
  ((vs.zip (List.range vs.length)).map fun (v, k) => match v with
    | .bits _ => []
    | .reloc type arg => leBytes 5 (8 * k) ++ leBytes 2 sec ++ leBytes 1 type ++ leBytes 8 arg).flatten

/-- TSRC, TSEL and TIMM. -/
def AsmTrip.fields : AsmTrip → Nat × Nat × Nat
  | .count n => (0, 0, n)
  | .x n => (1, n, 0)
  | .sqlen n => (2, n, 0)
  | .keys n => (3, n, 0)

/-- A level's descriptor (R129, R276): trip, the (start, length) of its entry, body and exit templates, its INC pairs, and whether a body of
the next level is present. -/
def asmLevel (trip : AsmTrip) (entry body exit : Nat × Nat) (incs : List (Nat × Int)) (inner : Bool) : Except AsmError (List Byte) :=
  let (src, sel, imm) := trip.fields
  let inc : Nat → Nat := fun k => match incs[k]? with | some (r, d) => 2 ^ 16 * r + (BitVec.ofInt 16 d).toNat | none => 0
  if 4 < incs.length ∨ incs.any (fun p => decide (63 < p.1) || decide (p.2 < -32768) || decide (32767 < p.2)) ∨ 2 ^ 32 ≤ imm ∨
      sel > (if src ≤ 1 then 63 else 3) ∨ 63 < entry.2 ∨ 511 < body.2 ∨ 63 < exit.2 then .error .directive
  else .ok (leBytes 32 (inc 0 + 2 ^ 22 * inc 1 + 2 ^ 44 * inc 2 + 2 ^ 66 * inc 3 + 2 ^ 164 * exit.2 + 2 ^ 170 * exit.1 + 2 ^ 179 * body.2 +
    2 ^ 188 * body.1 + 2 ^ 197 * entry.2 + 2 ^ 203 * entry.1 + 2 ^ 212 * imm + 2 ^ 244 * sel + 2 ^ 250 * src + 2 ^ 252 * inner.toNat))

/-- The first template of a nest's level that p selects. -/
def AsmFile.findTemplate (f : AsmFile) (d l : Nat) (p : AsmPart → Bool) : Option AsmTemplate :=
  f.templates.find? fun t => t.nest == d && t.level == l && p t.part

/-- Start and length of a template, (0, 0) without one. -/
def templateAt : Option AsmTemplate → Nat × Nat
  | some t => (t.start, t.words.length)
  | none => (0, 0)

/-- The descriptor of level l of nest d: INNER when the next level has a body (R276). -/
def AsmFile.level (f : AsmFile) (d l : Nat) : Except AsmError (List Byte) :=
  let isBody : AsmPart → Bool := fun p => match p with | .body _ _ => true | _ => false
  let body := f.findTemplate d l isBody
  let (trip, incs) : AsmTrip × List (Nat × Int) := match body with
    | some t => (match t.part with
      | .body trip incs => (trip, incs)
      | _ => (.count 0, []))
    | none => (.count 0, [])
  asmLevel trip (templateAt (f.findTemplate d l (· == .entry))) (templateAt body) (templateAt (f.findTemplate d l (· == .exit))) incs
    (f.findTemplate d (l + 1) isBody).isSome

/-- The descriptors of a list of nests and levels. -/
def AsmFile.levels (f : AsmFile) : List (Nat × Nat) → Except AsmError (List Byte)
  | [] => .ok []
  | (d, l) :: xs => (f.level d l).bind fun b => (f.levels xs).map fun bs => b ++ bs

/-- The bytes of bundles. -/
def bundleBytes (ws : List (List (BitVec 32))) : List Byte := (ws.map fun b => (b.map fun w => leBytes 4 w.toNat).flatten).flatten

/-- The template store image (R129, R276): sixteen nests of six levels, then the 320 template bundles. -/
def AsmFile.templateStore (f : AsmFile) : Except AsmError (List Byte) :=
  let ws := (f.templates.map (·.words)).flatten
  if 320 < ws.length then .error .directive
  else (f.levels ((List.range 96).map fun k => (k / 6, k % 6))).map fun ds => ds ++ bundleBytes ws ++ List.replicate (16 * (320 - ws.length)) 0

/-- `.launch n` (R271, R306): descriptor words D1 and D2, EX = n, EY = EZ = 1 and TSIZE = min(n, 65,535). -/
def asmLaunch (n : Nat) : List Byte := leBytes 8 (n % 2 ^ 32 + 2 ^ 32) ++ leBytes 8 (1 + 2 ^ 32 * min n 65535)

/-- An object image written (R305): the header, the section table, and each content at a multiple of 64 bytes. -/
def writeImage (entry : Nat) (xs : List ImageSection) : List Byte :=
  let pad : Nat → Nat := fun n => ceilDiv n 64 * 64
  let at_ : Nat → Nat := fun k => pad (64 + 32 * xs.length) + ((xs.take k).map fun x => pad x.bytes.length).sum
  let head := leBytes 4 0x6384 ++ leBytes 2 1 ++ leBytes 2 xs.length ++ leBytes 8 entry ++ List.replicate 48 0
  let table := ((xs.zip (List.range xs.length)).map fun (x, k) =>
    leBytes 2 x.kind ++ leBytes 6 0 ++ leBytes 8 (at_ k) ++ leBytes 8 x.bytes.length ++ leBytes 8 x.arg).flatten
  head ++ table ++ List.replicate (at_ 0 - (64 + 32 * xs.length)) 0 ++
    (xs.map fun x => x.bytes ++ List.replicate (pad x.bytes.length - x.bytes.length) 0).flatten

/-- A section with a content, none without one. -/
def sectionIf (kind : Nat) (bs : List Byte) : List ImageSection := if bs.isEmpty then [] else [⟨kind, 0, bs⟩]

/-- Whether every counter, handle and slot that `.data H0` names is declared, and every away tile is one of its entry (R18, R281). -/
def AsmFile.namesOk (f : AsmFile) (es : List Entry) : Bool :=
  f.data.all (fun (_, _, vs) => vs.all fun v => match v with
    | .bits _ => true
    | .reloc 1 n => decide (n ≤ 63) && (n == 0 || f.declares n)
    | .reloc 2 n => (f.counterPlace n).isSome
    | .reloc _ a => (match assocFind (a % 64) f.seqs with | some q => decide (a / 2 ^ 32 < q.cap) | none => false)) &&
  f.aways.all fun (h, k) => match es[h]? with | some e => decide (k < e.tiles) | none => false

/-- The sections of a file: code, table, a DATA section per `.data` line, a SEQ section per sequence, and the others that it needs; the DATA
sections stand from index 2 on. -/
def AsmFile.sections (f : AsmFile) (y : AsmLayout) (es : List Entry) (store : List Byte) : List ImageSection :=
  let data := f.data.map fun (h, o, vs) => (⟨4, h + 2 ^ 8 * o, (vs.map (datumBytes (f.dataWidth h))).flatten⟩ : ImageSection)
  let seqs := f.seqs.map fun (h, q) => (⟨5, h, f.seqSection y h q⟩ : ImageSection)
  let relocs := ((f.data.zip (List.range f.data.length)).map fun ((_, _, vs), k) => datumRelocs (2 + k) vs).flatten
  ⟨1, 0, bundleBytes f.code.words⟩ :: ⟨3, 0, (es.map fun e => (e.toList.map fun w => leBytes 8 w.toNat).flatten).flatten⟩ ::
    (data ++ seqs ++ (if f.templates.isEmpty then [] else [⟨2, 0, store⟩]) ++
      sectionIf 6 (match f.launch with | some (n, _) => asmLaunch n | none => []) ++ sectionIf 7 relocs ++
      sectionIf 8 ((f.aways.map fun (h, k) => leBytes 4 h ++ leBytes 4 k).flatten))

/-- tsas (R15 to R18, R298 to R307): the object image of a source file under a layout that tsas chooses. -/
def assemble (y : AsmLayout) (xs : List AsmStmt) : Except AsmError (List Byte) :=
  (readSource xs).bind fun (f, entry) => match f.counterHandles with
    | none => .error .directive
    | some arrays => (f.entries y arrays 64 0).bind fun es => f.templateStore.bind fun store =>
      if f.namesOk es && f.layoutOk y arrays then .ok (writeImage entry (f.sections y es store)) else .error .directive

/-- A source file assembled and loaded: its counters are the words that its declarations give them (R18, R271). -/
def State.loadSource (s : State) (y : AsmLayout) (pl : Placement) (xs : List AsmStmt) : Except (AsmError ⊕ ImageRefusal) State :=
  match readSource xs, assemble y xs with
  | .ok (f, _), .ok bs => match s.loadImage { pl with counters := f.counterWords } bs with
    | .ok s => .ok s
    | .error e => .error (.inr e)
  | .error e, _ => .error (.inl e)
  | _, .error e => .error (.inl e)

end Sys2Proof.Machine
end

