-- ==== Sys2Proof/Machine/AsmText.lean ====
section
/-!
DEFINITION. The text that tsas reads (R15 to R18, R181, R298 to R300, R303): tokens, expressions, the form of each operation and of each
directive. What the lines then assemble to is Machine/Assembly.lean. No step of the part assembles.
-/

namespace Sys2Proof.Machine

/-! ### Tokens (R298, R300) -/

/-- A token of a line: a word of letters, digits and underscores, a number, or a sign; `||`, `<<` and `>>` are one sign each. -/
inductive AsmTok where
  | word (x : String)
  | num (n : Nat)
  | sign (x : String)
  deriving DecidableEq, Repr

/-- A letter. -/
def isLetter (c : Char) : Bool := (decide ('a' ≤ c) && decide (c ≤ 'z')) || (decide ('A' ≤ c) && decide (c ≤ 'Z'))

/-- A digit. -/
def isNumeral (c : Char) : Bool := decide ('0' ≤ c) && decide (c ≤ '9')

/-- A character that continues a word. -/
def isWordChar (c : Char) : Bool := isLetter c || isNumeral c || c == '_'

/-- A letter as its capital. -/
def capital (c : Char) : Char := if decide ('a' ≤ c) && decide (c ≤ 'z') then Char.ofNat (c.toNat - 32) else c

/-- A word in capitals, as operations, modifiers, registers, formats and functions are compared (R298). -/
def capitals (x : String) : String := String.ofList (x.toList.map capital)

/-- The value of a digit in a base up to 16. -/
def numeralOf (base : Nat) (c : Char) : Option Nat :=
  let v := if isNumeral c then c.toNat - 48 else if isLetter c then (capital c).toNat - 55 else 99
  if v < base then some v else none

/-- The value of digits in a base, underscores left out (R300); none without a digit. -/
def numeralsOf (base : Nat) (cs : List Char) : Option Nat :=
  let ds := cs.filter fun c => c != '_'
  if ds.isEmpty then none
  else ds.foldl (fun v c => match v, numeralOf base c with | some v, some d => some (base * v + d) | _, _ => none) (some 0)

/-- A number: decimal, or after 0x hexadecimal (R16, R300). -/
def numberOf : List Char → Option Nat
  | '0' :: 'x' :: cs => numeralsOf 16 cs
  | cs => numeralsOf 10 cs

/-- The tokens of a line up to its comment (R298), with fuel; none at a character that no token has. -/
def asmTokens : Nat → List Char → Option (List AsmTok)
  | 0, _ => none
  | _, [] => some []
  | _, ';' :: _ => some []
  | _, '/' :: '/' :: _ => some []
  | n + 1, c :: cs =>
    if c == ' ' || c == '\t' || c == '\r' then asmTokens n cs
    else if isLetter c then (asmTokens n (cs.dropWhile isWordChar)).map fun ts => .word (String.ofList (c :: cs.takeWhile isWordChar)) :: ts
    else if isNumeral c then
      match numberOf (c :: cs.takeWhile isWordChar), asmTokens n (cs.dropWhile isWordChar) with
      | some v, some ts => some (.num v :: ts)
      | _, _ => none
    else match c, cs with
      | '|', '|' :: cs => (asmTokens n cs).map fun ts => .sign "||" :: ts
      | '<', '<' :: cs => (asmTokens n cs).map fun ts => .sign "<<" :: ts
      | '>', '>' :: cs => (asmTokens n cs).map fun ts => .sign ">>" :: ts
      | c, cs =>
        if [':', '.', ',', '(', ')', '+', '-', '*', '/', '~', '&', '|'].contains c then
          (asmTokens n cs).map fun ts => .sign (String.ofList [c]) :: ts
        else none

/-- Tokens cut at a sign: what stands before its first place outside parentheses, and the rest, if it stands there. -/
def cutAt (x : String) : Nat → List AsmTok → List AsmTok × Option (List AsmTok)
  | _, [] => ([], none)
  | d, t :: ts =>
    if d = 0 ∧ t = .sign x then ([], some ts)
    else
      let d := if t = .sign "(" then d + 1 else if t = .sign ")" then d - 1 else d
      let (a, b) := cutAt x d ts
      (t :: a, b)

/-- Tokens cut at every place of a sign outside parentheses, with fuel. -/
def cutAll (x : String) : Nat → List AsmTok → List (List AsmTok)
  | 0, ts => [ts]
  | n + 1, ts => match cutAt x 0 ts with
    | (a, some rest) => a :: cutAll x n rest
    | (a, none) => [a]

/-- The operands of a slot or a directive: none where nothing is written. -/
def asmOperands (ts : List AsmTok) : List (List AsmTok) := if ts.isEmpty then [] else cutAll "," ts.length ts

/-! ### Names (R298, R299) -/

/-- A word of letters and a number written without leading zeros: the letters in capitals, and the number. -/
def numbered (x : String) : Option (String × Nat) :=
  let cs := x.toList
  let letters := cs.takeWhile isLetter
  let digits := cs.dropWhile isLetter
  if letters.isEmpty || digits.isEmpty || !digits.all isNumeral || (digits.head? == some '0' && decide (1 < digits.length)) then none
  else (numeralsOf 10 digits).map fun n => (String.ofList (letters.map capital), n)

/-- Register n of a file of m registers. -/
def asmReg (file : String) (m : Nat) (x : String) : Option Nat :=
  match numbered x with
  | some (l, n) => if l = file ∧ n < m then some n else none
  | none => none

/-- The formats by their tags (R63, R299). -/
def asmFormats : List (String × Nat) :=
  [("RAW", 0), ("I8", 1), ("I16", 2), ("I32", 3), ("N32", 4), ("FP16", 5), ("BF16", 6), ("FP32", 7), ("SQ3", 8), ("SQ5", 9), ("SQ8", 10)]

/-- The functions by their codes (R100, R299). -/
def asmFunctions : List (String × Nat) :=
  [("NONE", 0), ("RELU", 1), ("EXP2", 2), ("LOG2", 3), ("RECIP", 4), ("RSQRT", 5), ("SQRT", 6), ("SQUARE", 7), ("TANH", 8), ("SIGM", 9),
   ("SILU", 10), ("GELU", 11), ("ABS", 12), ("SCALE2", 13)]

/-- The special registers that have one name each (R177). -/
def asmSpecials : List (String × Nat) :=
  [("STEP", 0x000), ("STEPCLK", 0x001), ("XROT", 0x002), ("PROT", 0x003), ("LC", 0x004), ("EC", 0x005), ("REPIDX", 0x006), ("FLAGS", 0x007),
   ("TRAPCAUSE", 0x008), ("TRAPPC", 0x009), ("TRAPARG", 0x00A), ("STRANDID", 0x00B), ("TEAMID", 0x00C), ("ASID", 0x00D), ("PRI", 0x00E),
   ("CHK", 0x00F), ("NOISESTAT", 0x010), ("TILEID", 0x011), ("NOISEPOS", 0x012)]

/-- A word found in a list of names, in any case. -/
def asmLookup (xs : List (String × Nat)) (x : String) : Option Nat := (xs.find? fun p => p.1 == capitals x).map (·.2)

/-- The number of a special register (R177): Z0 to Z31, SQLEN0 to SQLEN3, SPCFG0 to SPCFG5, or one with a name of its own. -/
def asmSpecial (x : String) : Option Nat :=
  match numbered x with
  | some ("Z", n) => if n < 32 then some (0x40 + n) else none
  | some ("SQLEN", n) => if n < 4 then some (0x20 + n) else none
  | some ("SPCFG", n) => if n < 6 then some (0x30 + n) else none
  | _ => asmLookup asmSpecials x

/-- A word that spells a register, a handle or a counter (R298). -/
def spellsRegister (x : String) : Bool :=
  [("X", 64), ("P", 16), ("V", 32), ("K", 8), ("T", 8), ("A", 4), ("G", 8), ("F", 8), ("H", 64)].any (fun (f, m) => (asmReg f m x).isSome) ||
    (match numbered x with | some ("C", _) => true | _ => false) || (asmSpecial x).isSome

/-! ### Expressions (R300) -/

/-- The binary operators of a level of binding, loosest first. -/
def asmBinary : Nat → String → Option (AsmExpr → AsmExpr → AsmExpr)
  | 0, "|" => some .or
  | 1, "&" => some .and
  | 2, "<<" => some .shl
  | 2, ">>" => some .shr
  | 3, "+" => some .add
  | 3, "-" => some .sub
  | 4, "*" => some .mul
  | 4, "/" => some .div
  | _, _ => none

/-- An expression of a level of binding at the head of tokens, and what follows it, with fuel: left is what has been read of it so far; 5 is
the level of a unary sign, a number, a name or parentheses. -/
def readExpr : Nat → Nat → Option AsmExpr → List AsmTok → Option (AsmExpr × List AsmTok)
  | 0, _, _, _ => none
  | n + 1, level, some left, ts => match ts with
    | .sign x :: rest => match asmBinary level x with
      | some op => match readExpr n (level + 1) none rest with
        | some (right, rest) => readExpr n level (some (op left right)) rest
        | none => none
      | none => some (left, ts)
    | _ => some (left, ts)
  | n + 1, level, none, ts =>
    if level < 5 then match readExpr n (level + 1) none ts with
      | some (e, rest) => readExpr n level (some e) rest
      | none => none
    else match ts with
      | .num v :: rest => some (.num v, rest)
      | .sign "-" :: rest => (readExpr n 5 none rest).map fun (e, rest) => (.neg e, rest)
      | .sign "~" :: rest => (readExpr n 5 none rest).map fun (e, rest) => (.compl e, rest)
      | .sign "(" :: rest => match readExpr n 0 none rest with
        | some (e, .sign ")" :: rest) => some (e, rest)
        | _ => none
      | .word "base" :: .sign "(" :: .word h :: .sign ")" :: rest => (asmReg "H" 64 h).map fun h => (.base h, rest)
      | .word "payload" :: .sign "(" :: .word h :: .sign "," :: rest => match asmReg "H" 64 h, readExpr n 0 none rest with
        | some h, some (e, .sign ")" :: rest) => some (.payload h e, rest)
        | _, _ => none
      | .word x :: rest => match numbered x with
        | some ("C", k) => some (.counter k, rest)
        | _ => if spellsRegister x then none else some (.name x, rest)
      | _ => none

/-- Tokens that are one expression. -/
def exprOf (ts : List AsmTok) : Option AsmExpr :=
  match readExpr (8 * ts.length + 16) 0 none ts with
  | some (e, []) => some e
  | _ => none

/-! ### Modifiers (R181) -/

/-- The modifiers of an operation: acquire, release, scope, rounding, transpose, half. -/
structure AsmMods where
  acq : Bool := false
  rel : Bool := false
  scope : Option Nat := none
  rm : Option Nat := none
  t : Bool := false
  half : Option Nat := none
  deriving DecidableEq, Repr

/-- A modifier added; none for one that is unknown or sets a field again. -/
def AsmMods.add (m : AsmMods) (x : String) : Option AsmMods :=
  let scopes := [("TILE", 1), ("FIELD", 2), ("DIE", 3), ("MODULE", 4), ("FAB", 5), ("SYS", 6)]
  let rounds := [("RNE", 0), ("RTZ", 1), ("RUP", 2), ("RDN", 3), ("RTO", 4), ("RNEF", 5), ("SR", 6)]
  match asmLookup scopes x, asmLookup rounds x, capitals x with
  | some s, _, _ => if m.scope.isSome then none else some { m with scope := some s }
  | _, some r, _ => if m.rm.isSome then none else some { m with rm := some r }
  | _, _, "ACQ" => if m.acq then none else some { m with acq := true }
  | _, _, "REL" => if m.rel then none else some { m with rel := true }
  | _, _, "T" => if m.t then none else some { m with t := true }
  | _, _, "H0" => if m.half.isSome then none else some { m with half := some 0 }
  | _, _, "H1" => if m.half.isSome then none else some { m with half := some 1 }
  | _, _, _ => none

/-- The kinds of modifiers that an operation's form shows. -/
inductive AsmMod where
  | acq
  | rel
  | scope
  | rm
  | t
  | half
  deriving DecidableEq, Repr

/-- Whether an operation admits the modifiers that a line gives it. -/
def AsmMods.within (m : AsmMods) (ks : List AsmMod) : Bool :=
  (!m.acq || ks.contains .acq) && (!m.rel || ks.contains .rel) && (m.scope.isNone || ks.contains .scope) &&
    (m.rm.isNone || ks.contains .rm) && (!m.t || ks.contains .t) && (m.half.isNone || ks.contains .half)

/-- The ord field (R181). -/
def AsmMods.ord (m : AsmMods) : BitVec 2 := BitVec.ofNat 2 ((if m.acq then 1 else 0) + (if m.rel then 2 else 0))
/-- The acq field. -/
def AsmMods.q (m : AsmMods) : BitVec 1 := if m.acq then 1 else 0
/-- The rel field. -/
def AsmMods.r (m : AsmMods) : BitVec 1 := if m.rel then 1 else 0
/-- The scope field. -/
def AsmMods.s (m : AsmMods) : BitVec 3 := BitVec.ofNat 3 (m.scope.getD 0)
/-- The rounding field. -/
def AsmMods.round (m : AsmMods) : BitVec 3 := BitVec.ofNat 3 (m.rm.getD 0)
/-- The transpose bit. -/
def AsmMods.tr (m : AsmMods) : BitVec 1 := if m.t then 1 else 0
/-- The half bit of a push. -/
def AsmMods.h (m : AsmMods) : BitVec 1 := if m.half.isSome then 1 else 0
/-- The t bit of a push. -/
def AsmMods.ht (m : AsmMods) : BitVec 1 := BitVec.ofNat 1 (m.half.getD 0)

/-! ### Operands (R299) -/

/-- An operand that is one word, read. -/
def oneWord {α : Type} (f : String → Option α) : List AsmTok → Option α
  | [.word x] => f x
  | _ => none

/-- A register of a file of m registers, in its field of w bits. -/
def regOf (file : String) (m w : Nat) : List AsmTok → Option (BitVec w) := oneWord fun x => (asmReg file m x).map (BitVec.ofNat w)

/-- An X register. -/
def rx : List AsmTok → Option (BitVec 6) := regOf "X" 64 6
/-- A predicate. -/
def rp : List AsmTok → Option (BitVec 4) := regOf "P" 16 4
/-- A V register. -/
def rv : List AsmTok → Option (BitVec 5) := regOf "V" 32 5
/-- A K register. -/
def rk : List AsmTok → Option (BitVec 3) := regOf "K" 8 3
/-- A T register. -/
def rt : List AsmTok → Option (BitVec 3) := regOf "T" 8 3
/-- An accumulator. -/
def ra : List AsmTok → Option (BitVec 2) := regOf "A" 4 2
/-- A pattern register. -/
def rg : List AsmTok → Option (BitVec 3) := regOf "G" 8 3
/-- A fence token. -/
def rf : List AsmTok → Option (BitVec 3) := regOf "F" 8 3
/-- A handle. -/
def rh : List AsmTok → Option (BitVec 6) := regOf "H" 64 6
/-- A length snapshot. -/
def rq : List AsmTok → Option (BitVec 2) := regOf "SQLEN" 4 2
/-- A special register (R177). -/
def rs : List AsmTok → Option (BitVec 10) := oneWord fun x => (asmSpecial x).map (BitVec.ofNat 10)
/-- A format. -/
def fm : List AsmTok → Option (BitVec 4) := oneWord fun x => (asmLookup asmFormats x).map (BitVec.ofNat 4)
/-- A word of a form, in any case, with what it stands for. -/
def wordIn {α : Type} (xs : List (String × α)) : List AsmTok → Option α :=
  oneWord fun x => (xs.find? fun p => p.1 == capitals x).map (·.2)

/-- The coordinates of a local access: the register and the row offset, none where it is not written (R170, R299). -/
def coords : List AsmTok → Option (BitVec 6 × List AsmExpr)
  | [.word x] => (asmReg "X" 64 x).map fun n => (BitVec.ofNat 6 n, [])
  | .word x :: .sign s :: rest =>
    if s = "+" ∨ s = "-" then match asmReg "X" 64 x, exprOf (.num 0 :: .sign s :: rest) with
      | some n, some e => some (BitVec.ofNat 6 n, [e])
      | _, _ => none
    else none
  | _ => none

/-- The fence kinds, joined with + (R266). -/
def kindsOf (ts : List AsmTok) : Option (BitVec 4) :=
  (cutAll "+" ts.length ts).foldl (fun k x => match k, wordIn [("C", 1#4), ("E", 2#4), ("S", 4#4), ("L", 8#4)] x with
    | some k, some b => if k &&& b = 0 then some (k ||| b) else none
    | _, _ => none) (some 0)

/-- What a form makes of its operands: the instruction, its immediates zero, and their expressions in order. -/
abbrev AsmForm := List (List AsmTok) → Option (Instr × List AsmExpr)

/-- A form without operands. -/
def form0 (i : Instr) : AsmForm
  | [] => some (i, [])
  | _ => none

/-- A form of one operand, with the expressions that stand behind it. -/
def form1 {α : Type} (n : Nat) (r : List AsmTok → Option α) (k : α → Instr) : AsmForm
  | x :: es => match r x, es.mapM exprOf with
    | some a, some vs => if vs.length = n then some (k a, vs) else none
    | _, _ => none
  | _ => none

/-- A form of two operands, with the expressions that stand behind them. -/
def form2 {α β : Type} (n : Nat) (r : List AsmTok → Option α) (q : List AsmTok → Option β) (k : α → β → Instr) : AsmForm
  | x :: xs => match r x with
    | some a => form1 n q (k a) xs
    | none => none
  | _ => none

/-- A form of three operands, with the expressions that stand behind them. -/
def form3 {α β γ : Type} (n : Nat) (r : List AsmTok → Option α) (q : List AsmTok → Option β) (p : List AsmTok → Option γ)
    (k : α → β → γ → Instr) : AsmForm
  | x :: xs => match r x with
    | some a => form2 n q p (k a) xs
    | none => none
  | _ => none

/-- A form of four operands. -/
def form4 {α β γ δ : Type} (r : List AsmTok → Option α) (q : List AsmTok → Option β) (p : List AsmTok → Option γ)
    (o : List AsmTok → Option δ) (k : α → β → γ → δ → Instr) : AsmForm
  | x :: xs => match r x with
    | some a => form3 0 q p o (k a) xs
    | none => none
  | _ => none

/-- A form of immediates only. -/
def formImm (ns : List Nat) (i : Instr) : AsmForm := fun xs => match xs.mapM exprOf with
  | some vs => if ns.contains vs.length then some (i, vs) else none
  | none => none

/-- The first of two forms that reads the operands. -/
def formOr (a b : AsmForm) : AsmForm := fun xs => match a xs with
  | some y => some y
  | none => b xs

/-- A form whose last operand, a lane mask, may be left out for K0. -/
def masked (f : BitVec 3 → AsmForm) : AsmForm := fun xs => match xs.getLast?.bind rk with
  | some k => f k xs.dropLast
  | none => f 0 xs

/-! ### The operations (R185 to R267) -/

/-- An operation of the text: its name, the modifiers that it admits, its form under the modifiers given. -/
structure AsmRow where
  name : String
  mods : List AsmMod
  form : AsmMods → AsmForm

/-- A row without modifiers. -/
def plainRow (x : String) (f : AsmForm) : AsmRow := ⟨x, [], fun _ => f⟩

/-- NOP, STALL and the scalar operations (R184 to R188), with MOV and RET (R180). -/
def scalarRows (g : BitVec 4) : List AsmRow :=
  [plainRow "NOP" (form0 (.nop g)), plainRow "STALL" (formImm [1] (.stall g 0 none))] ++
  ([("ADD", Instr.add), ("SUB", .sub), ("MUL", .mul), ("MULH", .mulh), ("MULHN", .mulhn), ("DIV", .div), ("DIVN", .divn), ("REM", .rem),
    ("REMN", .remn), ("AND", .and), ("OR", .or), ("XOR", .xor), ("ANDN", .andn), ("SHL", .shl), ("SHR", .shr), ("SRA", .sra), ("MIN", .min),
    ("MAX", .max), ("MINN", .minn), ("MAXN", .maxn), ("ADD32", .add32), ("SUB32", .sub32)].map fun (x, k) =>
      plainRow x (form3 0 rx rx rx (k g))) ++
  ([("CLZ", Instr.clz), ("CTZ", .ctz), ("POPC", .popc)].map fun (x, k) => plainRow x (form2 0 rx rx (k g))) ++
  [plainRow "MOV" (form2 0 rx rx fun d a => .or g d a 0)] ++
  ([("ADDI", Instr.addi), ("ANDI", .andi), ("ORI", .ori), ("XORI", .xori)].map fun (x, k) =>
      plainRow x (form2 1 rx rx fun d a => k g d a 0 none)) ++
  ([("SHLI", Instr.shli), ("SHRI", .shri), ("SRAI", .srai)].map fun (x, k) => plainRow x (form2 1 rx rx fun d a => k g d a 0 none)) ++
  [plainRow "MOVI" (form1 1 rx fun d => .movi g d 0 none), plainRow "MOVK" (form1 2 rx fun d => .movk g d 0 0 none)]

/-- The compares and predicate operations (R189 to R191). -/
def predicateRows (g : BitVec 4) : List AsmRow :=
  ([("CMPEQ", Instr.cmpeq), ("CMPNE", .cmpne), ("CMPLT", .cmplt), ("CMPLE", .cmple), ("CMPLTN", .cmpltn), ("CMPLEN", .cmplen)].map fun (x, k) =>
      plainRow x (form3 0 rp rx rx (k g))) ++
  ([("CMPEQI", Instr.cmpeqi), ("CMPLTI", .cmplti), ("CMPLEI", .cmplei)].map fun (x, k) =>
      plainRow x (form2 1 rp rx fun p a => k g p a 0 none)) ++
  [plainRow "TBIT" (form2 1 rp rx fun p a => .tbit g p a 0)] ++
  ([("PAND", Instr.pand), ("POR", .por), ("PXOR", .pxor), ("PANDN", .pandn)].map fun (x, k) => plainRow x (form3 0 rp rp rp (k g))) ++
  [plainRow "PMOV" (form2 0 rp rp (Instr.pmov g)), plainRow "PSET" (form1 1 rp fun d => .pset g d 0),
   plainRow "PLOAD" (form1 0 rx (Instr.pload g)), plainRow "PSTORE" (form1 0 rx (Instr.pstore g))]

/-- Control (R192 to R201); BR and CALL take a label (readSlot). -/
def controlRows (g : BitVec 4) : List AsmRow :=
  [plainRow "BR" (form0 (.br g 0 none)), plainRow "CALL" (form0 (.call g 0 none)), plainRow "JMP" (form1 0 rx (Instr.jmp g)),
   plainRow "RET" (form0 (.jmp g 1)), plainRow "CALLX" (form1 0 rx (Instr.callx g)),
   plainRow "LOOP" (form1 2 rx fun a => .loop g a 0 0 none), plainRow "MARK" (form0 (.mark g)),
   plainRow "PARK" (form2 0 rx rx (Instr.park g)), plainRow "EXIT" (form0 (.exit g)), plainRow "TRAP" (formImm [1] (.trap g 0)),
   plainRow "SPOOL" (formImm [2] (.spool g 0 0)), plainRow "SPBRK" (formImm [1] (.spbrk g 0)), plainRow "ERET" (form0 (.eret g))]

/-- A local access: register, handle, coordinates (R240). -/
def accessForm {w : Nat} (r : List AsmTok → Option (BitVec w)) (mk : BitVec 6 → BitVec w → BitVec 6 → Instr) : AsmForm
  | [d, h, c] => match r d, rh h, coords c with
    | some d, some h, some (c, es) => some (mk h d c, es)
    | _, _, _ => none
  | _ => none

/-- Local load and store (R240). -/
def localRows (g : BitVec 4) : List AsmRow :=
  ([("LD8", Instr.ld8), ("LD16", .ld16), ("LD32", .ld32), ("LD64", .ld64), ("LD8S", .ld8s), ("LD16S", .ld16s), ("LD32S", .ld32s), ("ST8", .st8),
    ("ST16", .st16), ("ST32", .st32), ("ST64", .st64), ("LDS", .lds)].map fun (x, k) =>
      plainRow x (accessForm rx fun h d c => k g h d c none)) ++
  ([("LDV", Instr.ldv), ("STV", .stv), ("LDVX", .ldvx), ("STVX", .stvx), ("LDSV", .ldsv)].map fun (x, k) =>
      plainRow x (masked fun m => accessForm rv fun h d c => k g h d c (if m = 0 then none else some (m.zeroExtend 8)))) ++
  ([("LDT", Instr.ldt), ("STT", .stt)].map fun (x, k) => plainRow x (accessForm rt fun h d c => k g h d c none))

/-- The K register or predicate word of SPLDP and SPSTP (R202). -/
def spillSource (ts : List AsmTok) : Option (BitVec 6) :=
  match rk ts with
  | some k => some (k.zeroExtend 6)
  | none => wordIn [("PW", 8#6)] ts

/-- Spill (R202). -/
def spillRows (g : BitVec 4) : List AsmRow :=
  [plainRow "SPLD" (form1 1 rx fun r => .spld g r 0), plainRow "SPST" (form1 1 rx fun r => .spst g r 0),
   plainRow "SPLDV" (form1 1 rv fun r => .spldv g r 0), plainRow "SPSTV" (form1 1 rv fun r => .spstv g r 0),
   plainRow "SPLDP" (form1 1 spillSource fun r => .spldp g r 0), plainRow "SPSTP" (form1 1 spillSource fun r => .spstp g r 0)]

/-- Vector lanes (R206, R207). -/
def vectorRows (g : BitVec 4) : List AsmRow :=
  ([("VADD", Instr.vadd), ("VSUB", .vsub), ("VMUL", .vmul), ("VAND", .vand), ("VOR", .vor), ("VXOR", .vxor), ("VSHL", .vshl), ("VSHR", .vshr),
    ("VSRA", .vsra), ("VMIN", .vmin), ("VMAX", .vmax), ("VMINN", .vminn), ("VMAXN", .vmaxn)].map fun (x, k) =>
      plainRow x (masked fun m => form3 0 rv rv rv fun d a b => k g d a b m)) ++
  ([("VCMPEQ", Instr.vcmpeq), ("VCMPLT", .vcmplt), ("VCMPLE", .vcmple), ("VCMPLTN", .vcmpltn)].map fun (x, k) =>
      plainRow x (formOr (form3 0 rk rv rv fun d a b => k g d a b 0) (form4 rk rv rv rk (k g)))) ++
  [plainRow "VSEL" (form4 rv rv rv rk (Instr.vsel g)), plainRow "VIOTA" (form2 0 rv rk (Instr.viota g)),
   plainRow "VBCAST" (masked fun m => form3 0 rv rx fm fun d a t => .vbcast g d a t m), plainRow "VEXT" (form3 0 rx rv rx (Instr.vext g)),
   plainRow "VINS" (form3 0 rv rx rx (Instr.vins g)), plainRow "VPOPC" (form2 0 rx rk (Instr.vpopc g)),
   plainRow "VFIRST" (form2 0 rx rk (Instr.vfirst g)), plainRow "VPACK" (form3 0 rv rv rk (Instr.vpack g)),
   plainRow "KAND" (form3 0 rk rk rk (Instr.kand g)), plainRow "KOR" (form3 0 rk rk rk (Instr.kor g)),
   plainRow "KXOR" (form3 0 rk rk rk (Instr.kxor g)), plainRow "KMOV" (form2 0 rk rk (Instr.kmov g)),
   plainRow "VMOV" (masked fun m => form2 0 rv rv fun d a => .vmov g d a 0 m), plainRow "VTAG" (form2 0 rv fm (Instr.vtag g)),
   plainRow "VFMT" (form2 0 rx rv (Instr.vfmt g))]

/-- The matrix beat (R213). -/
def matrixRows (g : BitVec 4) : List AsmRow :=
  [⟨"MLOAD", [.t], fun m => form1 0 rt fun s => .mload g s m.tr⟩, ⟨"MLOADG", [.t], fun m => form1 0 rg fun s => .mloadg g s m.tr⟩,
   ⟨"MPUSH", [.half], fun m => form2 1 ra rt fun a s => .mpush g a s 0 m.h m.ht⟩,
   ⟨"MPUSHL", [.half], fun m => form1 1 ra fun a => .mpushl g a 0 m.h m.ht⟩,
   ⟨"MPUSHG", [.half], fun m => form2 1 ra rg fun a s => .mpushg g a s 0 m.h m.ht⟩,
   plainRow "MZERO" (form2 0 ra fm (Instr.mzero g)), plainRow "MINIT" (form2 0 ra rt (Instr.minit g)),
   plainRow "MSHIFT" (form1 1 ra fun a => .mshift g a 0), plainRow "MSWAP" (form1 0 ra (Instr.mswap g)),
   plainRow "MDRAIN" (formOr (form1 0 ra fun a => .mdrain g a 0 0) (form1 2 ra fun a => .mdrain g a 0 0))]

/-- Patterns and tiles (R220, R221). -/
def patternRows (g : BitVec 4) : List AsmRow :=
  [plainRow "GSET" (form2 0 rg rx (Instr.gset g)),
   plainRow "GIDX" (form3 1 rg rv (wordIn [("ONEHOT", 0#1), ("PERM", 1#1)]) fun t v k => .gidx g t v k 0),
   plainRow "GDIAG" (form2 1 rg rv fun t v => .gdiag g t v 0),
   plainRow "GBAND" (formOr (form2 0 rg rx fun t x => .gband g t x 0 0) (form3 0 rg rx rv fun t x v => .gband g t x 1 v)),
   plainRow "TZERO" (form2 0 rt fm (Instr.tzero g)), plainRow "TMOVE" (form2 0 rt rt (Instr.tmove g)),
   plainRow "TFILL" (form3 0 rt rx fm (Instr.tfill g)), plainRow "TSETV" (form2 1 rt rv fun t v => .tsetv g t v 0),
   plainRow "TGETV" (form2 1 rv rt fun v t => .tgetv g t v 0), plainRow "TTAG" (form2 0 rt fm (Instr.ttag g)),
   plainRow "TFMT" (form2 0 rx rt fun x t => .tfmt g t x)]

/-- Transform (R222). -/
def transformRows (g : BitVec 4) : List AsmRow :=
  [plainRow "XPAND" (form3 1 rt rv fm fun d s f => .xpand g d s f 0), plainRow "XPOSE" (form2 0 rt rt (Instr.xpose g)),
   ⟨"XCONV", [.rm, .t], fun m => form3 0 rt rt fm fun d s f => .xconv g d s f m.round m.tr⟩,
   ⟨"VCONV", [.rm], fun m => masked fun k => form3 0 rv rv fm fun d s f => .vconv g d s f m.round k⟩,
   plainRow "XPERM" (masked fun k => form3 0 rv rv rv fun d s b => .xperm g d s b k), plainRow "XPACK" (form2 1 rv rt fun d s => .xpack g d s 0)]

/-- A V register or NONE (R232). -/
def vOrNone (ts : List AsmTok) : Option (BitVec 1 × BitVec 5) :=
  match rv ts with
  | some v => some (1, v)
  | none => wordIn [("NONE", (0#1, 0#5))] ts

/-- The operations of DFV (R237): functions by their codes, and those of two registers. -/
def dfvFunction : List AsmTok → Option (BitVec 5) := wordIn (asmFunctions.map fun (x, n) => (x, BitVec.ofNat 5 n))
/-- The operations of DFV on two registers. -/
def dfvBinary : List AsmTok → Option (BitVec 5) := wordIn [("ADD", 16#5), ("SUB", 17#5), ("MUL", 18#5), ("MAX", 19#5), ("MIN", 20#5)]

/-- DFCFG's operands (R229): function, format, BMZ and the exponent, the last two left out at will. -/
def dfcfgForm (g : BitVec 4) (m : AsmMods) : AsmForm
  | fn :: f :: rest =>
    let z : Bool := match rest.head? with | some x => (wordIn [("BMZ", ())] x).isSome | none => false
    form2 0 (wordIn (asmFunctions.map fun (x, n) => (x, BitVec.ofNat 4 n))) fm (fun fn f => .dfcfg g fn f m.round (if z then 1 else 0) 0) [fn, f]
      |>.bind fun (i, _) => match (if z then rest.drop 1 else rest).mapM exprOf with
        | some es => if es.length ≤ 1 then some (i, es) else none
        | none => none
  | _ => none

/-- Drain and finish (R229 to R238). -/
def drainRows (g : BitVec 4) : List AsmRow :=
  [⟨"DFCFG", [.rm], fun m => dfcfgForm g m⟩,
   plainRow "DFDST" (formOr (form1 0 (wordIn [("NONE", ())]) fun _ => .dfdstNone g)
     (formOr (form1 0 rt (Instr.dfdstT g)) (form2 0 rh rx (Instr.dfdstH g)))),
   plainRow "DFSCALE" (formOr (form2 0 (wordIn [("ROW", 0#1), ("COL", 1#1)]) rv fun x s => .dfscale g x 0 s 0)
     (form3 0 (wordIn [("ROW", 0#1), ("COL", 1#1)]) rv rv fun x s b => .dfscale g x 1 s b)),
   plainRow "DFMASK" (form3 0 rh rx rv (Instr.dfmask g)),
   plainRow "DFROW" (form2 0 vOrNone vOrNone fun x y => .dfrow g x.1 y.1 x.2 y.2), plainRow "DFMASS" (form3 0 rh rx rq (Instr.dfmass g)),
   plainRow "DFV" (formOr (form3 0 dfvFunction rv rv fun f d a => .dfv g d a 0 f) (form4 dfvBinary rv rv rv fun f d a b => .dfv g d a b f)),
   plainRow "DFSTAT" (form1 1 rx fun d => .dfstat g d 0)]

/-- The form of a command that may be armed (R248): the counter, and ARM with its register. -/
def armForm (k : BitVec 6 → BitVec 6 → BitVec 1 → Instr) : AsmForm
  | [x] => (rx x).map fun x => (k x 0 0, [])
  | [x, .word a :: y] => match rx x, rx y with
    | some x, some y => if capitals a = "ARM" then some (k x y 1, []) else none
    | _, _ => none
  | _ => none

/-- The pair that LAUNCH names by its even predicate (R39). -/
def evenP (ts : List AsmTok) : Option (BitVec 3) := (rp ts).bind fun p => if p.toNat % 2 = 0 then some (BitVec.ofNat 3 (p.toNat / 2)) else none

/-- Engine commands (R248). -/
def engineRows (g : BitVec 4) : List AsmRow :=
  ([("COPY", Instr.copy), ("COPYM", .copym), ("CEXP", .cexp), ("POOL", .pool), ("SFORK", .sfork), ("SRETIRE", .sretire), ("STLD", .stld),
    ("STINV", .stinv), ("BALLAST", .ballast), ("FPUT", .fput), ("FGET", .fget), ("FRED", .fred)].map fun (x, k) =>
      ⟨x, [.acq, .rel, .scope], fun m => armForm fun c a w => k g m.q m.r m.s c a w⟩) ++
  [plainRow "GATH" (form1 0 rv (Instr.gath g)), ⟨"LAUNCH", [.rel, .scope], fun m => form1 0 evenP fun p => .launch g m.r m.s p⟩,
   ⟨"OFFLOAD", [.rel, .scope], fun m => form2 0 rx rh fun x h => .offload g m.q m.r m.s x h⟩,
   ⟨"RECALL", [.acq, .rel, .scope], fun m => form2 0 rx rh fun x h => .recall g m.q m.r m.s x h⟩]

/-- Counters, atomics, fences, teams and sequences (R263 to R267). STEPADV's release and scope are part of its form (R107). -/
def syncRows (g : BitVec 4) : List AsmRow :=
  ([("CADD", Instr.cadd), ("CRAISE", .craise), ("TBAR", .tbar), ("TARRIVE", .tarrive)].map fun (x, k) =>
      ⟨x, [.acq, .rel, .scope], fun m => form2 0 rx rx fun a b => k g m.ord m.s a b⟩) ++
  ([("CWAIT", Instr.cwait), ("CREAD", .cread)].map fun (x, k) => ⟨x, [.acq, .scope], fun m => form2 0 rx rx fun a b => k g m.ord m.s a b⟩) ++
  ([("JOIN", Instr.join), ("LEAVE", .leave)].map fun (x, k) => ⟨x, [.acq, .rel, .scope], fun m => form1 0 rx fun a => k g m.ord m.s a⟩) ++
  ([("AADD", Instr.aadd), ("AMIN", .amin), ("AMAX", .amax), ("AXCHG", .axchg), ("ACAS", .acas), ("AAND", .aand), ("AOR", .aor), ("SADD", .sadd),
    ("SRSV", .srsv), ("SPIN", .spin), ("SUNPIN", .sunpin)].map fun (x, k) => plainRow x (form3 0 rx rx rx (k g))) ++
  [plainRow "SCMT" (form2 0 rx rx (Instr.scmt g)), plainRow "SQSNAP" (form3 0 rx rx rq (Instr.sqsnap g)),
   ⟨"FBEGIN", [.scope], fun m => form2 0 rf kindsOf fun f k => .fbegin g f k m.s⟩, plainRow "FWAIT" (form1 0 rf (Instr.fwait g)),
   ⟨"STEPADV", [.rel, .scope], fun m => if m.rel ∧ m.scope = some 3 then form1 0 rx (Instr.stepadv g) else fun _ => none⟩]

/-- System (R208 to R211, R43, R80), and the REP header (R269). -/
def systemRows (g : BitVec 4) : List AsmRow :=
  [plainRow "MOVS" (form2 0 rx rs (Instr.movs g)), plainRow "MOVSW" (form2 0 rs rx fun n a => .movsw g a n),
   plainRow "SETPRI" (form1 0 rx (Instr.setpri g)),
   plainRow "NOISECTL" (formOr (form1 0 (wordIn [("LIVE", ())]) fun _ => .noisectlLive g)
     (formOr (form2 0 (wordIn [("LOG", ())]) rx fun _ a => .noisectlLog g a)
       (form3 0 (wordIn [("REPLAY", ())]) rx rx fun _ a b => .noisectlReplay g a b))),
   plainRow "CHKMODE" (form1 0 (wordIn [("OFF", 0#1), ("ON", 1#1)]) (Instr.chkmode g)), plainRow "TRAPRD" (form1 1 rx fun d => .traprd g d 0),
   plainRow "IDLE" (form1 0 rx (Instr.idle g))] ++
  (if g = 0 then [plainRow "REP" (formImm [1, 4] (.rep 0 0 0 0))] else [])

/-- Every operation under a guard. -/
def asmRows (g : BitVec 4) : List AsmRow :=
  scalarRows g ++ predicateRows g ++ controlRows g ++ localRows g ++ spillRows g ++ vectorRows g ++ matrixRows g ++ patternRows g ++
    transformRows g ++ drainRows g ++ engineRows g ++ syncRows g ++ systemRows g

/-- Whether a word may name a constant or a label (R298): at most 63 characters, and no register, handle or counter, and no operation, format or
function as R180 and R299 spell it. The spelling in small letters is admitted for the latter, since names are case-sensitive
(notes/assumptions/59.md). -/
def asmNameOk (x : String) : Bool :=
  decide (x.toList.length ≤ 63) && !spellsRegister x && !(asmRows 0).any (fun r => r.name == x) && x != "LEND" &&
    !asmFormats.any (fun p => p.1 == x) && !asmFunctions.any (fun p => p.1 == x)

/-! ### Slots (R15, R298) -/

/-- Modifiers behind an operation's name, and the operands. -/
def readMods (m : AsmMods) : List AsmTok → Except AsmError (AsmMods × List AsmTok)
  | .sign "." :: .word x :: ts => match m.add x with
    | some m => readMods m ts
    | none => .error .form
  | ts => .ok (m, ts)

/-- A slot read: the guard, the operation with its modifiers, and the operands of its form. A header written by hand other than REP is
refused (R301). -/
def readSlot (ts : List AsmTok) : Except AsmError (Instr × AsmValue) :=
  let (g, ts) : Option (BitVec 4) × List AsmTok := match ts with
    | .sign "(" :: .word p :: .sign ")" :: rest => (rp [.word p], rest)
    | _ => (some 0, ts)
  match g, ts with
  | some g, .word x :: rest =>
    if capitals x = "LEND" then .error .header
    else (readMods {} rest).bind fun (m, rest) => match (asmRows g).find? fun r => r.name == capitals x with
      | none => .error .form
      | some r =>
        if !m.within r.mods then .error .form
        else if r.name = "BR" ∨ r.name = "CALL" then match r.form m [], rest with
          | some (i, _), [.word l] => .ok (i, .label l)
          | _, _ => .error .form
        else match r.form m (asmOperands rest) with
          | some (i, es) => .ok (i, .exprs es)
          | none => .error .form
  | _, _ => .error .form

/-- The slots of a line. -/
def readSlots : List (List AsmTok) → Except AsmError (List (Instr × AsmValue))
  | [] => .ok []
  | t :: ts => match readSlot t, readSlots ts with
    | .ok x, .ok xs => .ok (x :: xs)
    | .error e, _ => .error e
    | _, .error e => .error e

/-! ### Directives (R17, R18, R271, R275, R276, R280, R281, R285, R303, R304) -/

/-- A number or its negative. -/
def signedNum : List AsmTok → Option Int
  | [.num n] => some n
  | [.sign "-", .num n] => some (-(n : Int))
  | _ => none

/-- A home at the head of operands, and the operands behind it (R271). -/
def readHome : List (List AsmTok) → Option (AsmHome × List (List AsmTok))
  | [.word "local"] :: rest => some (.here, rest)
  | [.word "tile", .num t] :: rest => some (.tile t, rest)
  | [.word "rect", .num x] :: [.num y] :: [.num w] :: [.num h] :: rest => some (.rect x y w h, rest)
  | _ => none

/-- The extents of `.tensor` up to its home. -/
def readExtents : List (List AsmTok) → Option (List AsmExpr × AsmHome × List (List AsmTok))
  | [] => none
  | x :: xs => match readHome (x :: xs) with
    | some (h, rest) => some ([], h, rest)
    | none => match exprOf x, readExtents xs with
      | some e, some (es, h, rest) => some (e :: es, h, rest)
      | _, _ => none

/-- The options of `.tensor`, each at most once (R304). -/
structure TextOptions where
  pageable : Bool := false
  ronly : Bool := false
  gshared : Bool := false
  decay : Option AsmExpr := none
  tstride : Option AsmExpr := none
  deriving DecidableEq, Repr

/-- Options read. -/
def readOptions (o : TextOptions) : List (List AsmTok) → Option TextOptions
  | [] => some o
  | [.word "pageable"] :: xs => if o.pageable then none else readOptions { o with pageable := true } xs
  | [.word "ronly"] :: xs => if o.ronly then none else readOptions { o with ronly := true } xs
  | [.word "gshared"] :: xs => if o.gshared then none else readOptions { o with gshared := true } xs
  | (.word "decay" :: e) :: xs => match o.decay, exprOf e with
    | none, some e => readOptions { o with decay := some e } xs
    | _, _ => none
  | (.word "tstride" :: e) :: xs => match o.tstride, exprOf e with
    | none, some e => readOptions { o with tstride := some e } xs
    | _, _ => none
  | _ => none

/-- A counter's number. -/
def counterOf : List AsmTok → Option Nat
  | [.word x] => match numbered x with | some ("C", n) => some n | _ => none
  | _ => none

/-- A handle's number. -/
def handleOf (ts : List AsmTok) : Option Nat := (rh ts).map (·.toNat)

/-- `.tensor` (R17, R304). -/
def readTensor : List (List AsmTok) → Option AsmStmt
  | h :: [.word k] :: f :: rest =>
    match handleOf h, ([("dense", 0), ("bmz", 1), ("stamped", 2)].find? fun p => p.1 == k), fm f, readExtents rest with
    | some h, some (_, k), some f, some (exts, home, rest) =>
      let c := rest.head?.bind counterOf
      (readOptions {} (if c.isSome then rest.drop 1 else rest)).map fun o =>
        .tensor h k f.toNat exts home c o.pageable o.ronly o.gshared o.decay o.tstride
    | _, _, _, _ => none
  | _ => none

/-- A scope by its name (R149, R181) or its number: the cscope of `.seq`. -/
def scopeOf (ts : List AsmTok) : Option AsmExpr :=
  match wordIn [("SEAT", 0), ("TILE", 1), ("FIELD", 2), ("DIE", 3), ("MODULE", 4), ("FAB", 5), ("SYS", 6)] ts with
  | some n => some (.num n)
  | none => exprOf ts

/-- `.seq` (R275). -/
def readSeq : List (List AsmTok) → Option AsmStmt
  | [h, f, e, cap, home, decay, cscope, len, group] =>
    match handleOf h, fm f, readHome [home], [e, cap, decay, len, group].mapM exprOf, scopeOf cscope with
    | some h, some f, some (home, []), some [e, cap, decay, len, group], some c => some (.seq h f.toNat e cap home decay c len group)
    | _, _, _, _, _ => none
  | _ => none

/-- The trip of a body template (R276). -/
def readTrip : List AsmTok → Option AsmTrip
  | [.num n] => some (.count n)
  | [.word x] => match numbered x with
    | some ("X", n) => if n < 64 then some (.x n) else none
    | some ("SQLEN", n) => if n < 4 then some (.sqlen n) else none
    | _ => none
  | [.word "KEYS", .word x] => (asmReg "SQLEN" 4 x).map .keys
  | _ => none

/-- An `Xr delta` pair (R276). -/
def readInc : List AsmTok → Option (Nat × Int)
  | .word x :: d => match asmReg "X" 64 x, signedNum d with
    | some r, some d => some (r, d)
    | _, _ => none
  | _ => none

/-- `.template` (R276). -/
def readTemplate : List (List AsmTok) → Option AsmStmt
  | d :: l :: t :: incs => match exprOf d, exprOf l with
    | some d, some l => match t, incs with
      | [.word "ENTRY"], [] => some (.template d l .entry)
      | [.word "EXIT"], [] => some (.template d l .exit)
      | t, incs => match readTrip t, incs.mapM readInc with
        | some t, some is => some (.template d l (.body t is))
        | _, _ => none
    | _, _ => none
  | _ => none

/-- A directive by its name (R303). -/
def readDirective (name : String) (xs : List (List AsmTok)) : Option AsmStmt :=
  match name, xs with
  | "entry", [[.word l]] => some (.entry l)
  | "tensor", xs => readTensor xs
  | "counter", [c] => (counterOf c).map fun n => .counter n .here
  | "counter", c :: home => match counterOf c, readHome home with
    | some n, some (h, []) => some (.counter n h)
    | _, _ => none
  | "seq", xs => readSeq xs
  | "meta", h :: s :: p :: g :: rest => match handleOf h, [s, p, g].mapM exprOf, rest with
    | some h, some [s, p, g], [] => some (.meta_ h s p g false)
    | some h, some [s, p, g], [[.word "RETIRED"]] => some (.meta_ h s p g true)
    | _, _, _ => none
  | "data", h :: o :: vs => match handleOf h, exprOf o, vs.mapM exprOf with
    | some h, some o, some vs => some (.data h o vs)
    | _, _, _ => none
  | "away", [h, k] => match handleOf h, exprOf k with
    | some h, some k => some (.away h k)
    | _, _ => none
  | "template", xs => readTemplate xs
  | "endt", [] => some .endt
  | "launch", n :: home => match exprOf n, readHome home with
    | some n, some (h, []) => some (.launch n h)
    | _, _ => none
  | "equ", [[.word x], e] => (exprOf e).map fun e => .code (.equ x e)
  | "align", [[.num n]] => some (.code (.align n))
  | _, _ => none

/-! ### Lines (R298) -/

/-- A line read: none of a blank one. A label stands before slots only, because it names the bundle on its line. -/
def readLine (cs : List Char) : Except AsmError (Option AsmStmt) :=
  match asmTokens (cs.length + 1) cs with
  | none => .error .form
  | some ts =>
    let (label, ts) : Option String × List AsmTok := match ts with
      | .word x :: .sign ":" :: rest => (some x, rest)
      | ts => (none, ts)
    match ts with
    | [] => if label.isSome then .error .form else .ok none
    | .sign "." :: .word d :: rest =>
      match label, readDirective d (asmOperands rest) with
      | none, some (.code (.equ x e)) => if asmNameOk x then .ok (some (.code (.equ x e))) else .error (.badName x)
      | none, some s => .ok (some s)
      | _, _ => .error .form
    | ts => match label with
      | some x => if asmNameOk x then (readSlots (cutAll "||" ts.length ts)).map fun xs => some (.code (.bundle label xs)) else .error (.badName x)
      | none => (readSlots (cutAll "||" ts.length ts)).map fun xs => some (.code (.bundle label xs))

/-- The lines of a text. -/
def readText : List (List Char) → Except AsmError (List AsmStmt)
  | [] => .ok []
  | l :: ls => (readLine l).bind fun s => (readText ls).map fun ss => s.toList ++ ss

/-- tsas on the lines of a source file. -/
def assembleText (y : AsmLayout) (ls : List (List Char)) : Except AsmError (List Byte) := (readText ls).bind (assemble y)

end Sys2Proof.Machine
end

