-- ==== Sys2Proof/Machine/Portable.lean ====
section
/-!
DEFINITION. The Yaryar portable form (R308 to R314): a module as yarc reads and refuses it, and the machine of moves between the ports of
abstract units, whose triggers are run by the slots' own meanings; yarc's image; and the sealed translation cache (R315, R316). No step of the
part reads a module; what these rules leave to yarc and the readings taken here are notes/assumptions/71.md.
-/

namespace Sys2Proof.Machine

/-! ### Reading a module (R308 to R312) -/

/-- Why yarc refuses a module (R308 to R312). -/
inductive PortRefusal where
  /-- MAGIC is not 0x0059_4159, or VERSION is not 1. -/
  | header
  /-- A reserved bit of the header, of a move or of the padding is set. -/
  | reserved
  /-- NUNIT, NMOVE or the file's length. -/
  | counts
  /-- ENTRY is not below NMOVE. -/
  | entry
  /-- A class byte outside 0x1 to 0xE, or 0x4. -/
  | unitClass (c : Nat)
  /-- A reserved port, Z above 31, or a unit that the module does not declare. -/
  | port
  /-- Form 3. -/
  | form
  /-- A body without a trigger port, or an immediate to a trigger port. -/
  | trigger
  /-- A body that its class refuses, with R173's reason code, or an operation that R312 excludes. -/
  | body (reason : Nat)
  /-- A control op from 7 on. -/
  | control (op : Nat)
  /-- A target at or beyond NMOVE. -/
  | target
  /-- A section behind the moves that R305, R306 or R308 does not admit. -/
  | sections (why : ImageRefusal)
  /-- The stepping lacks a unit class that the module names (R314). -/
  | lacks (c : Nat)
  /-- The module's live values exceed a file together with the spill memory (R314). -/
  | spills
  deriving DecidableEq, Repr

/-- A port address (R309): a port of a unit, or a bypass register of a file (0 X, 1 P, 2 V, 3 K, 4 T, 5 G, 6 A, 7 Z). -/
inductive PortAddr where
  | port (unit p : Nat)
  | bypass (file n : Nat)
  deriving DecidableEq, Repr

/-- A move (R310). -/
inductive Move where
  | move (g : Nat) (dst src : PortAddr)
  | trigger (g : Nat) (unit : Nat) (src : PortAddr) (body : Nat)
  | imm (g : Nat) (dst : PortAddr) (v : Word)
  | jump (g target : Nat)
  | call (g target : Nat)
  | ret (g : Nat)
  | park (g : Nat) (a : PortAddr) (x : Nat)
  | exit (g : Nat)
  | trap (g code : Nat)
  | mark (g : Nat)
  deriving DecidableEq, Repr

/-- A module as it was read: the units' class bytes, the first move, the moves and the sections behind them. -/
structure Module where
  units : List Nat
  entry : Nat
  moves : List Move
  sections : List ImageSection
  deriving DecidableEq, Repr

/-- A port address of 12 bits in a module of n units (R309). -/
def portAddr (n a : Nat) : Except PortRefusal PortAddr :=
  if a < 2 ^ 11 then (if a % 8 < 6 ∧ a / 8 < n then .ok (.port (a / 8) (a % 8)) else .error .port)
  else if a / 2 ^ 8 % 8 = 7 ∧ 31 < a % 2 ^ 8 then .error .port
  else .ok (.bypass (a / 2 ^ 8 % 8) (a % 2 ^ 8))

/-! ### The ports of an operation (R311) -/

/-- The register files whose values move through ports (R309); the others are the strand's own state. -/
inductive PortFile where
  | x
  | p
  | v
  | k
  | t
  | g
  | acc
  deriving DecidableEq, Repr

/-- How an operation takes its registers: its sources in the order of the ports and its destinations, each with the register of the strand
that stands in for it while the operation runs; further registers of the strand that it names; and the instruction with given numbers of
destinations and sources. -/
structure PortUse where
  srcs : List (PortFile × Nat)
  dsts : List (PortFile × Nat)
  hidden : List Nat := []
  build : (d s : Nat → Nat) → Instr

/-- Stand-in number k of a file's sources. -/
def PortFile.src (f : PortFile) (k : Nat) : PortFile × Nat :=
  (f, match f with | .x => 5 + k | .p => 10 + k | .v => 16 + k | .k => 1 + k | _ => k)

/-- The stand-in of a file's destination. -/
def PortFile.dst (f : PortFile) : PortFile × Nat := (f, match f with | .x => 9 | .p => 12 | .v => 20 | .k => 6 | .t => 4 | .g => 2 | .acc => 0)

/-- The stand-in of the second destination of a pair. -/
def PortFile.second (f : PortFile) : PortFile × Nat := (f, f.dst.2 + 1)

/-- The sources of a list of files, numbered by their places. -/
def srcList (fs : List PortFile) : List (PortFile × Nat) := (fs.zip (List.range fs.length)).map fun (f, k) => f.src k

/-- One destination and two sources. -/
def use3 (d a b : PortFile) {l m n : Nat} (f : BitVec l → BitVec m → BitVec n → Instr) : PortUse :=
  { srcs := srcList [a, b], dsts := [d.dst], build := fun d s => f (BitVec.ofNat l (d 0)) (BitVec.ofNat m (s 0)) (BitVec.ofNat n (s 1)) }
/-- One destination and one source. -/
def use2 (d a : PortFile) {l m : Nat} (f : BitVec l → BitVec m → Instr) : PortUse :=
  { srcs := srcList [a], dsts := [d.dst], build := fun d s => f (BitVec.ofNat l (d 0)) (BitVec.ofNat m (s 0)) }
/-- One destination. -/
def use1 (d : PortFile) {l : Nat} (f : BitVec l → Instr) : PortUse :=
  { srcs := [], dsts := [d.dst], build := fun d _ => f (BitVec.ofNat l (d 0)) }
/-- A pair of destinations and two sources. -/
def pair3 (d a b : PortFile) {l m n : Nat} (f : BitVec l → BitVec m → BitVec n → Instr) : PortUse :=
  { use3 d a b f with dsts := [d.dst, d.second] }
/-- A pair of destinations and one source. -/
def pair2 (d a : PortFile) {l m : Nat} (f : BitVec l → BitVec m → Instr) : PortUse := { use2 d a f with dsts := [d.dst, d.second] }
/-- Two sources and no destination. -/
def take2 (a b : PortFile) {m n : Nat} (f : BitVec m → BitVec n → Instr) : PortUse :=
  { srcs := srcList [a, b], dsts := [], build := fun _ s => f (BitVec.ofNat m (s 0)) (BitVec.ofNat n (s 1)) }
/-- One source and no destination. -/
def take1 (a : PortFile) {m : Nat} (f : BitVec m → Instr) : PortUse :=
  { srcs := srcList [a], dsts := [], build := fun _ s => f (BitVec.ofNat m (s 0)) }
/-- No register. -/
def take0 (i : Instr) : PortUse := { srcs := [], dsts := [], build := fun _ _ => i }
/-- One register that is source and destination. -/
def both1 (a : PortFile) {m : Nat} (f : BitVec m → Instr) : PortUse := { take1 a f with dsts := [a.src 0] }
/-- A register that is source and destination, then another source. -/
def both2 (a b : PortFile) {m n : Nat} (f : BitVec m → BitVec n → Instr) : PortUse := { take2 a b f with dsts := [a.src 0] }
/-- A register that is source and destination, then two sources. -/
def both3 (a b c : PortFile) {l m n : Nat} (f : BitVec l → BitVec m → BitVec n → Instr) : PortUse :=
  { srcs := srcList [a, b, c], dsts := [a.src 0],
    build := fun _ s => f (BitVec.ofNat l (s 0)) (BitVec.ofNat m (s 1)) (BitVec.ofNat n (s 2)) }
/-- A load: a destination and as many coordinates as the handle has. -/
def useLoad (d : PortFile) (rank : Nat) {l : Nat} (f : BitVec l → BitVec 6 → Instr) : PortUse :=
  { srcs := srcList (List.replicate rank .x), dsts := [d.dst], build := fun d s => f (BitVec.ofNat l (d 0)) (BitVec.ofNat 6 (s 0)) }
/-- A store: its data, then the coordinates. -/
def useStore (a : PortFile) (rank : Nat) {l : Nat} (f : BitVec l → BitVec 6 → Instr) : PortUse :=
  { srcs := srcList (a :: List.replicate rank .x), dsts := [], build := fun _ s => f (BitVec.ofNat l (s 0)) (BitVec.ofNat 6 (s 1)) }
/-- An engine command: its counter, and in the ARM form the two registers of its trigger. -/
def useEngine (w : BitVec 1) (f : BitVec 6 → BitVec 6 → Instr) : PortUse :=
  { srcs := srcList (if w = 1 then [.x, .x, .x] else [.x]), dsts := [],
    build := fun _ s => f (BitVec.ofNat 6 (s 0)) (if w = 1 then BitVec.ofNat 6 (s 1) else 0) }

/-- The registers of an operation of the unit classes (R311), its handle's rank given; none for what a unit has no operation of. No port holds
a lane mask: its register field stays zero, and K0 enables every lane (notes/assumptions/71.md). -/
def portUse (rank : Nat → Nat) : Instr → Option PortUse
  | .add g _ _ _ => some (use3 .x .x .x (.add g))
  | .sub g _ _ _ => some (use3 .x .x .x (.sub g))
  | .mul g _ _ _ => some (use3 .x .x .x (.mul g))
  | .mulh g _ _ _ => some (use3 .x .x .x (.mulh g))
  | .mulhn g _ _ _ => some (use3 .x .x .x (.mulhn g))
  | .div g _ _ _ => some (use3 .x .x .x (.div g))
  | .divn g _ _ _ => some (use3 .x .x .x (.divn g))
  | .rem g _ _ _ => some (use3 .x .x .x (.rem g))
  | .remn g _ _ _ => some (use3 .x .x .x (.remn g))
  | .and g _ _ _ => some (use3 .x .x .x (.and g))
  | .or g _ _ _ => some (use3 .x .x .x (.or g))
  | .xor g _ _ _ => some (use3 .x .x .x (.xor g))
  | .andn g _ _ _ => some (use3 .x .x .x (.andn g))
  | .shl g _ _ _ => some (use3 .x .x .x (.shl g))
  | .shr g _ _ _ => some (use3 .x .x .x (.shr g))
  | .sra g _ _ _ => some (use3 .x .x .x (.sra g))
  | .min g _ _ _ => some (use3 .x .x .x (.min g))
  | .max g _ _ _ => some (use3 .x .x .x (.max g))
  | .minn g _ _ _ => some (use3 .x .x .x (.minn g))
  | .maxn g _ _ _ => some (use3 .x .x .x (.maxn g))
  | .add32 g _ _ _ => some (use3 .x .x .x (.add32 g))
  | .sub32 g _ _ _ => some (use3 .x .x .x (.sub32 g))
  | .addi g _ _ i x => some (use2 .x .x fun d a => .addi g d a i x)
  | .andi g _ _ i x => some (use2 .x .x fun d a => .andi g d a i x)
  | .ori g _ _ i x => some (use2 .x .x fun d a => .ori g d a i x)
  | .xori g _ _ i x => some (use2 .x .x fun d a => .xori g d a i x)
  | .shli g _ _ n x => some (use2 .x .x fun d a => .shli g d a n x)
  | .shri g _ _ n x => some (use2 .x .x fun d a => .shri g d a n x)
  | .srai g _ _ n x => some (use2 .x .x fun d a => .srai g d a n x)
  | .movi g _ i x => some (use1 .x fun d => .movi g d i x)
  | .movk g _ h i x => some (both1 .x fun d => .movk g d h i x)
  | .clz g _ _ => some (use2 .x .x (.clz g))
  | .ctz g _ _ => some (use2 .x .x (.ctz g))
  | .popc g _ _ => some (use2 .x .x (.popc g))
  | .cmpeq g _ _ _ => some (pair3 .p .x .x (.cmpeq g))
  | .cmpne g _ _ _ => some (pair3 .p .x .x (.cmpne g))
  | .cmplt g _ _ _ => some (pair3 .p .x .x (.cmplt g))
  | .cmple g _ _ _ => some (pair3 .p .x .x (.cmple g))
  | .cmpltn g _ _ _ => some (pair3 .p .x .x (.cmpltn g))
  | .cmplen g _ _ _ => some (pair3 .p .x .x (.cmplen g))
  | .cmpeqi g _ _ i x => some (pair2 .p .x fun p a => .cmpeqi g p a i x)
  | .cmplti g _ _ i x => some (pair2 .p .x fun p a => .cmplti g p a i x)
  | .cmplei g _ _ i x => some (pair2 .p .x fun p a => .cmplei g p a i x)
  | .tbit g _ _ n => some (pair2 .p .x fun p a => .tbit g p a n)
  | .pand g _ _ _ => some (use3 .p .p .p (.pand g))
  | .por g _ _ _ => some (use3 .p .p .p (.por g))
  | .pxor g _ _ _ => some (use3 .p .p .p (.pxor g))
  | .pandn g _ _ _ => some (use3 .p .p .p (.pandn g))
  | .pmov g _ _ => some (use2 .p .p (.pmov g))
  | .pset g _ v => some (use1 .p fun d => .pset g d v)
  | .pload g _ => some (take1 .x (.pload g))
  | .pstore g _ => some (use1 .x (.pstore g))
  | .ld8 g h _ _ x => some (useLoad .x (rank h.toNat) fun d c => .ld8 g h d c x)
  | .ld16 g h _ _ x => some (useLoad .x (rank h.toNat) fun d c => .ld16 g h d c x)
  | .ld32 g h _ _ x => some (useLoad .x (rank h.toNat) fun d c => .ld32 g h d c x)
  | .ld64 g h _ _ x => some (useLoad .x (rank h.toNat) fun d c => .ld64 g h d c x)
  | .ld8s g h _ _ x => some (useLoad .x (rank h.toNat) fun d c => .ld8s g h d c x)
  | .ld16s g h _ _ x => some (useLoad .x (rank h.toNat) fun d c => .ld16s g h d c x)
  | .ld32s g h _ _ x => some (useLoad .x (rank h.toNat) fun d c => .ld32s g h d c x)
  | .lds g h _ _ x => some (useLoad .x (rank h.toNat) fun d c => .lds g h d c x)
  | .ldv g h _ _ x => some (useLoad .v (rank h.toNat) fun d c => .ldv g h d c x)
  | .ldvx g h _ _ x => some (useLoad .v (rank h.toNat) fun d c => .ldvx g h d c x)
  | .ldsv g h _ _ x => some (useLoad .v (rank h.toNat) fun d c => .ldsv g h d c x)
  | .ldt g h _ _ x => some (useLoad .t (rank h.toNat) fun d c => .ldt g h d c x)
  | .st8 g h _ _ x => some (useStore .x (rank h.toNat) fun d c => .st8 g h d c x)
  | .st16 g h _ _ x => some (useStore .x (rank h.toNat) fun d c => .st16 g h d c x)
  | .st32 g h _ _ x => some (useStore .x (rank h.toNat) fun d c => .st32 g h d c x)
  | .st64 g h _ _ x => some (useStore .x (rank h.toNat) fun d c => .st64 g h d c x)
  | .stv g h _ _ x => some (useStore .v (rank h.toNat) fun d c => .stv g h d c x)
  | .stvx g h _ _ x => some (useStore .v (rank h.toNat) fun d c => .stvx g h d c x)
  | .stt g h _ _ x => some (useStore .t (rank h.toNat) fun d c => .stt g h d c x)
  | .spld g _ n => some (use1 .x fun r => .spld g r n)
  | .spldv g _ n => some (use1 .v fun r => .spldv g r n)
  | .spldp g _ n => some (use1 .k fun r => .spldp g r n)
  | .spst g _ n => some (take1 .x fun r => .spst g r n)
  | .spstv g _ n => some (take1 .v fun r => .spstv g r n)
  | .spstp g _ n => some (take1 .k fun r => .spstp g r n)
  | .vadd g _ _ _ _ => some (use3 .v .v .v fun d a b => .vadd g d a b 0)
  | .vsub g _ _ _ _ => some (use3 .v .v .v fun d a b => .vsub g d a b 0)
  | .vmul g _ _ _ _ => some (use3 .v .v .v fun d a b => .vmul g d a b 0)
  | .vand g _ _ _ _ => some (use3 .v .v .v fun d a b => .vand g d a b 0)
  | .vor g _ _ _ _ => some (use3 .v .v .v fun d a b => .vor g d a b 0)
  | .vxor g _ _ _ _ => some (use3 .v .v .v fun d a b => .vxor g d a b 0)
  | .vshl g _ _ _ _ => some (use3 .v .v .v fun d a b => .vshl g d a b 0)
  | .vshr g _ _ _ _ => some (use3 .v .v .v fun d a b => .vshr g d a b 0)
  | .vsra g _ _ _ _ => some (use3 .v .v .v fun d a b => .vsra g d a b 0)
  | .vmin g _ _ _ _ => some (use3 .v .v .v fun d a b => .vmin g d a b 0)
  | .vmax g _ _ _ _ => some (use3 .v .v .v fun d a b => .vmax g d a b 0)
  | .vminn g _ _ _ _ => some (use3 .v .v .v fun d a b => .vminn g d a b 0)
  | .vmaxn g _ _ _ _ => some (use3 .v .v .v fun d a b => .vmaxn g d a b 0)
  | .vsel g _ _ _ _ => some
    { srcs := srcList [.v, .v, .k], dsts := [PortFile.dst .v],
      build := fun d s => .vsel g (BitVec.ofNat 5 (d 0)) (BitVec.ofNat 5 (s 0)) (BitVec.ofNat 5 (s 1)) (BitVec.ofNat 3 (s 2)) }
  | .vcmpeq g _ _ _ _ => some (pair3 .k .v .v fun d a b => .vcmpeq g d a b 0)
  | .vcmplt g _ _ _ _ => some (pair3 .k .v .v fun d a b => .vcmplt g d a b 0)
  | .vcmple g _ _ _ _ => some (pair3 .k .v .v fun d a b => .vcmple g d a b 0)
  | .vcmpltn g _ _ _ _ => some (pair3 .k .v .v fun d a b => .vcmpltn g d a b 0)
  | .viota g _ _ => some (use2 .v .k (.viota g))
  | .vbcast g _ _ t _ => some (use2 .v .x fun d x => .vbcast g d x t 0)
  | .vext g _ _ _ => some (use3 .x .v .x (.vext g))
  | .vins g _ _ _ => some (both3 .v .x .x (.vins g))
  | .vpopc g _ _ => some (use2 .x .k (.vpopc g))
  | .vfirst g _ _ => some (use2 .x .k (.vfirst g))
  | .vpack g _ _ _ => some (use3 .v .v .k (.vpack g))
  | .kand g _ _ _ => some (use3 .k .k .k (.kand g))
  | .kor g _ _ _ => some (use3 .k .k .k (.kor g))
  | .kxor g _ _ _ => some (use3 .k .k .k (.kxor g))
  | .kmov g _ _ => some (use2 .k .k (.kmov g))
  | .vmov g _ _ _ _ => some (use2 .v .v fun d a => .vmov g d a 0 0)
  | .vtag g _ t => some (both1 .v fun d => .vtag g d t)
  | .vfmt g _ _ => some (use2 .x .v (.vfmt g))
  | .mload g _ t => some (take1 .t fun s => .mload g s t)
  | .mloadg g _ t => some (take1 .g fun s => .mloadg g s t)
  | .mpush g _ _ r h t => some (both2 .acc .t fun a s => .mpush g a s r h t)
  | .mpushl g _ r h t => some (both1 .acc fun a => .mpushl g a r h t)
  | .mpushg g _ _ r h t => some (both2 .acc .g fun a s => .mpushg g a s r h t)
  | .mzero g _ f => some (both1 .acc fun a => .mzero g a f)
  | .minit g _ _ => some (both2 .acc .t (.minit g))
  | .mshift g _ k => some (both1 .acc fun a => .mshift g a k)
  | .mswap g _ => some (both1 .acc (.mswap g))
  | .mdrain g _ r m => some (take1 .acc fun a => .mdrain g a r m)
  | .gset g _ _ => some (use2 .g .x (.gset g))
  | .gidx g _ _ k e => some (use2 .g .v fun t v => .gidx g t v k e)
  | .gdiag g _ _ e => some (use2 .g .v fun t v => .gdiag g t v e)
  | .gband g _ _ k _ => some (if k = 1 then use3 .g .x .v (fun t x v => .gband g t x k v) else use2 .g .x fun t x => .gband g t x k 0)
  | .tzero g _ f => some (use1 .t fun t => .tzero g t f)
  | .tmove g _ _ => some (use2 .t .t (.tmove g))
  | .tfill g _ _ f => some (use2 .t .x fun t x => .tfill g t x f)
  | .tsetv g _ _ i => some (both2 .t .v fun t v => .tsetv g t v i)
  | .tgetv g _ _ i => some
    { srcs := srcList [.t], dsts := [PortFile.dst .v],
      build := fun d s => .tgetv g (BitVec.ofNat 3 (s 0)) (BitVec.ofNat 5 (d 0)) i }
  | .ttag g _ f => some (both1 .t fun t => .ttag g t f)
  | .tfmt g _ _ => some
    { srcs := srcList [.t], dsts := [PortFile.dst .x], build := fun d s => .tfmt g (BitVec.ofNat 3 (s 0)) (BitVec.ofNat 6 (d 0)) }
  | .xpand g _ _ f i => some (both2 .t .v fun d s => .xpand g d s f i)
  | .xpose g _ _ => some (use2 .t .t (.xpose g))
  | .xconv g _ _ f r x => some (use2 .t .t fun d s => .xconv g d s f r x)
  | .vconv g _ _ f r _ => some (use2 .v .v fun d s => .vconv g d s f r 0)
  | .xperm g _ _ _ _ => some (use3 .v .v .v fun d s b => .xperm g d s b 0)
  | .xpack g _ _ i => some (use2 .v .t fun d s => .xpack g d s i)
  | .dfcfg g n f r z k => some (take0 (.dfcfg g n f r z k))
  | .dfdstNone g => some (take0 (.dfdstNone g))
  | .dfdstT g _ => some
    { srcs := [], dsts := [], hidden := [7], build := fun d _ => .dfdstT g (BitVec.ofNat 3 (d 0)) }
  | .dfdstH g h _ => some
    { srcs := srcList (List.replicate (rank h.toNat) .x), dsts := [],
      build := fun _ s => .dfdstH g h (BitVec.ofNat 6 (s 0)) }
  | .dfscale g x b _ _ => some
    { srcs := (.v, 24) :: (if b = 1 then [(.v, 25)] else []), dsts := [],
      build := fun _ s => .dfscale g x b (BitVec.ofNat 5 (s 0)) (if b = 1 then BitVec.ofNat 5 (s 1) else 0) }
  | .dfmask g h _ _ => some
    { srcs := [PortFile.src .x 0, (.v, 26), (.v, 27)], dsts := [],
      build := fun _ s => .dfmask g h (BitVec.ofNat 6 (s 0)) (BitVec.ofNat 5 (s 1)) }
  | .dfrow g m n _ _ => some
    { srcs := [], dsts := [], hidden := [28, 29],
      build := fun d _ => .dfrow g m n (if m = 1 then BitVec.ofNat 5 (d 0) else 0) (if n = 1 then BitVec.ofNat 5 (d 1) else 0) }
  | .dfmass g h _ n => some (take1 .x fun x => .dfmass g h x n)
  | .dfv g _ _ _ f => some (if f.toNat < 16 then use2 .v .v (fun d a => .dfv g d a 0 f) else use3 .v .v .v fun d a b => .dfv g d a b f)
  | .dfstat g _ w => some (use1 .x fun d => .dfstat g d w)
  | .copy g q r s _ _ w => some (useEngine w fun k m => .copy g q r s k m w)
  | .copym g q r s _ _ w => some (useEngine w fun k m => .copym g q r s k m w)
  | .cexp g q r s _ _ w => some (useEngine w fun k m => .cexp g q r s k m w)
  | .pool g q r s _ _ w => some (useEngine w fun k m => .pool g q r s k m w)
  | .sfork g q r s _ _ w => some (useEngine w fun k m => .sfork g q r s k m w)
  | .sretire g q r s _ _ w => some (useEngine w fun k m => .sretire g q r s k m w)
  | .stld g q r s _ _ w => some (useEngine w fun k m => .stld g q r s k m w)
  | .stinv g q r s _ _ w => some (useEngine w fun k m => .stinv g q r s k m w)
  | .ballast g q r s _ _ w => some (useEngine w fun k m => .ballast g q r s k m w)
  | .fput g q r s _ _ w => some (useEngine w fun k m => .fput g q r s k m w)
  | .fget g q r s _ _ w => some (useEngine w fun k m => .fget g q r s k m w)
  | .fred g q r s _ _ w => some (useEngine w fun k m => .fred g q r s k m w)
  | .gath g _ => some (take1 .v (.gath g))
  | .launch g r s _ => some
    { srcs := [], dsts := [PortFile.dst .p, PortFile.second .p], build := fun d _ => .launch g r s (BitVec.ofNat 3 (d 0 / 2)) }
  | .offload g q r s _ h => some (take1 .x fun k => .offload g q r s k h)
  | .recall g q r s _ h => some (take1 .x fun k => .recall g q r s k h)
  | .cadd g o s _ _ => some (take2 .x .x (.cadd g o s))
  | .cwait g o s _ _ => some (take2 .x .x (.cwait g o s))
  | .craise g o s _ _ => some (take2 .x .x (.craise g o s))
  | .cread g o s _ _ => some (use2 .x .x fun b a => .cread g o s a b)
  | .aadd g _ _ _ => some (use3 .x .x .x (.aadd g))
  | .amin g _ _ _ => some (use3 .x .x .x (.amin g))
  | .amax g _ _ _ => some (use3 .x .x .x (.amax g))
  | .axchg g _ _ _ => some (use3 .x .x .x (.axchg g))
  | .acas g _ _ _ => some (both3 .x .x .x (.acas g))
  | .aand g _ _ _ => some (use3 .x .x .x (.aand g))
  | .aor g _ _ _ => some (use3 .x .x .x (.aor g))
  | .sadd g _ _ _ => some (use3 .x .x .x (.sadd g))
  | .fbegin g f k s => some (take0 (.fbegin g f k s))
  | .fwait g f => some (take0 (.fwait g f))
  | .join g o s _ => some (take1 .x (.join g o s))
  | .leave g o s _ => some (take1 .x (.leave g o s))
  | .tbar g o s _ _ => some (use2 .x .x fun b a => .tbar g o s a b)
  | .tarrive g o s _ _ => some (use2 .x .x fun b a => .tarrive g o s a b)
  | .stepadv g _ => some (use1 .x (.stepadv g))
  | .srsv g _ _ _ => some (use3 .x .x .x (.srsv g))
  | .scmt g _ _ => some (take2 .x .x (.scmt g))
  | .spin g _ _ _ => some (use3 .x .x .x (.spin g))
  | .sunpin g _ _ _ => some (use3 .x .x .x (.sunpin g))
  | .sqsnap g _ _ n => some (use2 .x .x fun d a => .sqsnap g d a n)
  | .movs g _ n => some (use1 .x fun d => .movs g d n)
  | .movsw g _ n => some (take1 .x fun a => .movsw g a n)
  | .setpri g _ => some (take1 .x (.setpri g))
  | .noisectlLive g => some (take0 (.noisectlLive g))
  | .noisectlLog g _ => some (take1 .x (.noisectlLog g))
  | .noisectlReplay g _ _ => some (take2 .x .x (.noisectlReplay g))
  | .idle g _ => some (take1 .x (.idle g))
  | _ => none

/-- Number k of a list of stand-ins. -/
def standIn (l : List Nat) (k : Nat) : Nat := l.getD k 0

/-- An operation with the stand-ins in its register fields. -/
def PortUse.instr (u : PortUse) : Instr := u.build (standIn (u.dsts.map (·.2) ++ u.hidden)) (standIn (u.srcs.map (·.2)))

/-- The slot word of a trigger's body in a class, register fields zero (R311). -/
def triggerWord (cls body : Nat) : BitVec 32 := BitVec.ofNat 32 (cls * 2 ^ 28 + body % 2 ^ 24)

/-- The special registers that a portable MOVS or MOVSW may not name (R312): STEPCLK, XROT, PROT, LC, EC, REPIDX, SPCFG0 to SPCFG5. -/
def portSpecial (n : Nat) : Bool := (decide (1 ≤ n) && decide (n ≤ 6)) || (decide (0x30 ≤ n) && decide (n ≤ 0x35))

/-- Whether R312 excludes an operation. -/
def portExcluded : Instr → Bool
  | .chkmode _ _ => true
  | .traprd _ _ _ => true
  | .movs _ _ n => portSpecial n.toNat
  | .movsw _ _ n => portSpecial n.toNat
  | _ => false

/-- A trigger's body judged (R311, R312, R173): its register fields are zero, and with registers in them it is well-formed. -/
def triggerOk (cls body : Nat) : Except PortRefusal Unit :=
  match decodeSlot 1 (triggerWord cls body) none with
  | .bad r => .error (.body r)
  | .ok i =>
    if portExcluded i then .error (.body 0)
    else match portUse (fun _ => 1) i with
      | none => .error (.body 0)
      | some u =>
        if u.build (fun _ => 0) (fun _ => 0) ≠ i then .error (.body 5)
        else match Instr.reason u.instr with
          | some r => .error (.body r)
          | none => .ok ()

/-- A move of form 0 (R310, R311). -/
def readMove (units : List Nat) (w : Nat) : Except PortRefusal Move :=
  let g := w / 2 ^ 58 % 16
  match portAddr units.length (w / 2 ^ 46 % 2 ^ 12), portAddr units.length (w / 2 ^ 34 % 2 ^ 12) with
  | .error e, _ => .error e
  | _, .error e => .error e
  | .ok d, .ok a =>
    if w / 2 ^ 24 % 2 ^ 10 ≠ 0 then .error .reserved
    else match d with
      | .port u 3 => match triggerOk (units.getD u 0) (w % 2 ^ 24) with
        | .error e => .error e
        | .ok _ => .ok (.trigger g u a (w % 2 ^ 24))
      | _ => if w % 2 ^ 24 ≠ 0 then .error .trigger else .ok (.move g d a)

/-- An immediate (R310). -/
def readImm (units : List Nat) (w : Nat) : Except PortRefusal Move :=
  match portAddr units.length (w / 2 ^ 46 % 2 ^ 12) with
  | .error e => .error e
  | .ok d =>
    if w / 2 ^ 32 % 2 ^ 14 ≠ 0 then .error .reserved
    else match d with
      | .port _ 3 => .error .trigger
      | _ => .ok (.imm (w / 2 ^ 58 % 16) d (sext (BitVec.ofNat 32 w)))

/-- A control move (R310, R312). -/
def readControl (units : List Nat) (nmove w : Nat) : Except PortRefusal Move :=
  let g := w / 2 ^ 58 % 16
  let t := w % 2 ^ 32
  if w / 2 ^ 32 % 2 ^ 10 ≠ 0 then .error .reserved
  else match portAddr units.length (w / 2 ^ 42 % 2 ^ 12) with
  | .error e => .error e
  | .ok a => match w / 2 ^ 54 % 16 with
    | 0 => if t < nmove then .ok (.jump g t) else .error .target
    | 1 => if t < nmove then .ok (.call g t) else .error .target
    | 2 => .ok (.ret g)
    | 3 => .ok (.park g a (t % 64))
    | 4 => .ok (.exit g)
    | 5 => .ok (.trap g (t % 256))
    | 6 => .ok (.mark g)
    | op => .error (.control op)

/-- A move word (R310). -/
def readWord (units : List Nat) (nmove w : Nat) : Except PortRefusal Move :=
  match w / 2 ^ 62 % 4 with
  | 0 => readMove units w
  | 1 => readImm units w
  | 2 => readControl units nmove w
  | _ => .error .form

/-- The move words of a module. -/
def readMoves (units : List Nat) (nmove : Nat) : List Nat → Except PortRefusal (List Move)
  | [] => .ok []
  | w :: ws => match readWord units nmove w with
    | .error e => .error e
    | .ok m => match readMoves units nmove ws with
      | .error e => .error e
      | .ok ms => .ok (m :: ms)

/-- The unit class of a class byte (R308): class 0x2 is folded into 0x1, whose units do both; the bodies of such a unit are XI's (R311,
notes/assumptions/71.md). -/
def unitClass (c : Nat) : Nat := if c = 2 then 1 else c

/-- The section entries that stand from offset o on, as in R305: up to the content of the first section, or to the end of the file. Zeros alone
up to there are the padding of a content aligned to 64 bytes and no entry (notes/assumptions/71.md). -/
def moduleSections (f : List Byte) : (fuel o stop : Nat) → Except PortRefusal (List ImageSection)
  | 0, _, _ => .ok []
  | fuel + 1, o, stop =>
    if min stop f.length < o + 32 ∨ numAt f o (min stop f.length - o) = 0 then .ok []
    else match readSection (List.replicate 64 0 ++ (f.drop o).take 32) 0 with
      | .error .bounds =>
        let off := numAt f (o + 8) 8
        let size := numAt f (o + 16) 8
        if off % 64 ≠ 0 ∨ f.length < off + size then .error (.sections .bounds)
        else (moduleSections f fuel (o + 32) (min stop off)).map fun xs => ⟨numAt f o 2, numAt f (o + 24) 8, (f.drop off).take size⟩ :: xs
      | .error e => .error (.sections e)
      | .ok x =>
        let off := numAt f (o + 8) 8
        (moduleSections f fuel (o + 32) (if numAt f (o + 16) 8 ≠ 0 ∧ o + 32 ≤ off then min stop off else stop)).map fun xs => x :: xs

/-- Why a module's sections are refused (R306, R308): CODE and TEMPLATE are yarc's, and one of the others that stand at most once is repeated or
has a size that its content cannot have. -/
def moduleRefuses (xs : List ImageSection) : Option ImageRefusal :=
  match [1, 2].find? fun k => countKind xs k != 0 with
  | some k => some (.unknownKind k)
  | none => match [3, 6, 7, 8].find? fun k => decide (1 < countKind xs k) with
    | some k => some (.repeated k)
    | none => if xs.all sizeOk then none else some .bounds

/-- A module file read (R308): the sections of R306 stand behind the moves. -/
def readModule (f : List Byte) : Except PortRefusal Module :=
  let nunit := numAt f 10 2
  let nmove := numAt f 12 4
  let entry := numAt f 16 4
  let pad := ceilDiv nunit 8 * 8
  let cs := ((f.drop 64).take nunit).map fun b => b.toNat
  if numAt f 0 4 ≠ 0x00594159 ∨ numAt f 4 4 ≠ 1 then .error .header
  else if numAt f 8 2 ≠ 0 ∨ numAt f 20 44 ≠ 0 then .error .reserved
  else if nunit = 0 ∨ 256 < nunit ∨ nmove = 0 ∨ 2 ^ 20 < nmove ∨ f.length < 64 + pad + 8 * nmove then .error .counts
  else if nmove ≤ entry then .error .entry
  else match cs.find? fun c => c == 0 || c == 4 || decide (14 < c) with
    | some c => .error (.unitClass c)
    | none =>
      if numAt f (64 + nunit) (pad - nunit) ≠ 0 then .error .reserved
      else
        match readMoves cs nmove ((runsOf 8 nmove (f.drop (64 + pad))).map leNat) with
        | .error e => .error e
        | .ok ms => match moduleSections f f.length (64 + pad + 8 * nmove) f.length with
          | .error e => .error e
          | .ok xs => match moduleRefuses xs with
            | some why => .error (.sections why)
            | none => .ok ⟨cs, entry, ms, xs⟩

/-! ### The machine of moves (R309 to R312) -/

/-- What a port or a bypass register holds: nothing yet, which reads zero of every file; a word, of X, P, K, Z; the opaque return point of a
CALL, which a program may only move; a V, T or G register, a G register with the V register that it binds; an accumulator's two banks. -/
inductive PortVal where
  | zero
  | word (w : Word)
  | point (n : Nat)
  | vec (v : VReg)
  | tile (t : TReg)
  | pattern (w : Word) (v : VReg)
  | acc (working visible : Bank)
  deriving DecidableEq, Repr

/-- The move that waits for other agents: a trigger, with its operation, the destinations of its results and the registers before it; a PARK;
an EXIT; another control move. -/
inductive PortWait where
  | trigger (unit : Nat) (i : Instr) (dsts : List (PortFile × Nat)) (old : Regs)
  | park
  | exit
  | slot
  deriving DecidableEq, Repr

/-- The state of a module: the next move, the ports by unit and number, the bypass registers by file and number but those that bind to the
strand's own, the unit whose DFROW was the last, the move that waits, and the machine, whose current seat runs the strand. -/
structure PortState where
  at_ : Nat
  ports : Assoc PortVal
  bypass : Assoc PortVal
  rows : Option Nat
  await : Option PortWait
  s : State
  deriving DecidableEq, Repr

/-- How a module leaves its run of moves. -/
inductive PortStep where
  /-- The next move. -/
  | next (p : PortState)
  /-- The seat waits for other agents; the same step again goes on once they have moved. -/
  | waits (p : PortState)
  /-- PARK: the seat was left (R27); the strand goes on with the next move when it is placed again. -/
  | parked (p : PortState)
  /-- EXIT (R29). -/
  | exited (p : PortState)
  /-- A trap taken, or the strand's end by one that has no handler (R336, R343). -/
  | trapped (p : PortState)
  /-- A computation with a return point or with a value of another file, a RETURN without a return point, a run past the last move, or a slot
  with no meaning: R312 forbids the first, and gives the others no effect. -/
  | stuck
  deriving DecidableEq, Repr

/-- A module at its start on the current seat's strand, which holds the carried registers (R36, R309). -/
def portStart (m : Module) (s : State) : PortState := { at_ := m.entry, ports := [], bypass := [], rows := none, await := none, s := s }

/-- The current seat's strand, one at its start when the seat is idle. -/
def PortState.st (p : PortState) : Strand := p.s.strand.getD zeroStrand

/-- The register of a file of a strand. -/
def Strand.give (st : Strand) : PortFile × Nat → PortVal
  | (.x, n) => .word (st.xr (BitVec.ofNat 6 n))
  | (.p, n) => .word (if st.pr (BitVec.ofNat 4 n) then 1 else 0)
  | (.v, n) => .vec (st.regs.v[n]?.getD zeroV)
  | (.k, n) => .word (st.kr (BitVec.ofNat 3 n))
  | (.t, n) => .tile (st.tr (BitVec.ofNat 3 n))
  | (.g, n) => .pattern (st.gr (BitVec.ofNat 3 n)) (if patBound (st.gr (BitVec.ofNat 3 n)) then st.bound (st.gr (BitVec.ofNat 3 n)) else zeroV)
  | (.acc, n) => .acc (st.aw[n]?.getD zeroBank) (st.av[n]?.getD zeroBank)

/-- A pattern descriptor bound to another V register (R93). -/
def rebind (w : Word) (r : Nat) : Word := if patBound w then w - BitVec.ofNat 64 (2 ^ 34 * patVreg w) + BitVec.ofNat 64 (2 ^ 34 * r) else w

/-- A value put into a register of a strand, none where it is of another file. Of a pattern the bound V register goes to V31, and with latch to
V30, where the stationary latch finds it at the pushes (R88). -/
def Strand.take (st : Strand) (latch : Bool) : PortFile × Nat → PortVal → Option Strand
  | (.x, n), v => (match v with
    | .zero => some { st with regs := { st.regs with x := st.regs.x.setIfInBounds n 0 } }
    | .word w => some { st with regs := { st.regs with x := st.regs.x.setIfInBounds n w } }
    | _ => none)
  | (.p, n), v =>
    let put : Bool → Strand := fun b => { st with regs := { st.regs with
      p := if b then st.regs.p ||| BitVec.ofNat 16 (2 ^ n) else st.regs.p &&& ~~~(BitVec.ofNat 16 (2 ^ n)) } }
    (match v with
      | .zero => some (put false)
      | .word w => some (put (w.getLsbD 0))
      | _ => none)
  | (.v, n), v => (match v with
    | .zero => some { st with regs := { st.regs with v := st.regs.v.setIfInBounds n zeroV } }
    | .vec x => some { st with regs := { st.regs with v := st.regs.v.setIfInBounds n x } }
    | _ => none)
  | (.k, n), v => (match v with
    | .zero => some { st with regs := { st.regs with k := st.regs.k.setIfInBounds n 0 } }
    | .word w => some { st with regs := { st.regs with k := st.regs.k.setIfInBounds n w } }
    | _ => none)
  | (.t, n), v => (match v with
    | .zero => some { st with t := st.t.setIfInBounds n zeroT }
    | .tile x => some { st with t := st.t.setIfInBounds n x }
    | _ => none)
  | (.g, n), v =>
    let r := if latch then 30 else 31
    (match v with
      | .zero => some { st with g := st.g.setIfInBounds n 0 }
      | .word w => some { st with g := st.g.setIfInBounds n w }
      | .pattern w x => some { st with g := st.g.setIfInBounds n (rebind w r), regs := { st.regs with v := st.regs.v.setIfInBounds r x } }
      | _ => none)
  | (.acc, n), v => (match v with
    | .zero => some { st with aw := st.aw.setIfInBounds n zeroBank, av := st.av.setIfInBounds n zeroBank }
    | .acc w x => some { st with aw := st.aw.setIfInBounds n w, av := st.av.setIfInBounds n x }
    | _ => none)

/-- The file of a bypass register and whether it binds to the strand's own (R309): X0 to X4, P0 to P15, Z0 to Z31. -/
def bound (f n : Nat) : Bool := (f == 0 && decide (n ≤ 4)) || (f == 1 && decide (n < 16)) || f == 7

/-- What a bypass register beyond the bound ones takes of a value: a predicate its bit 0, none of what is no word; the others the value. -/
def bypassVal (f : Nat) (v : PortVal) : Option PortVal :=
  if f = 1 then (match v with | .zero => some .zero | .word w => some (.word (w &&& 1)) | _ => none) else some v

/-- A read of a port or a bypass register. -/
def PortState.read (p : PortState) : PortAddr → PortVal
  | .port u n => (assocFind (8 * u + n) p.ports).getD .zero
  | .bypass f n =>
    match assocFind (256 * f + n) p.bypass with
    | some v => v
    | none =>
      if !bound f n then .zero
      else match f with
        | 0 => p.st.give (.x, n)
        | 1 => p.st.give (.p, n)
        | _ => .word (p.st.zr n)

/-- The current seat's strand replaced. -/
def PortState.put (p : PortState) (st : Strand) : PortState := { p with s := p.s.setStrand st }

/-- A write: discarded at X0, P0 and P1; a predicate takes bit 0; none where a register cannot hold the value. Bypass X1 to X4 and Z hold a return
point beside the strand. -/
def PortState.write (p : PortState) (a : PortAddr) (v : PortVal) : Option PortState :=
  match a with
  | .port u n => some { p with ports := assocPut (8 * u + n) v p.ports }
  | .bypass f n =>
    if (f = 0 ∧ n = 0) ∨ (f = 1 ∧ n < 2) then some p
    else if !bound f n then (bypassVal f v).map fun v => { p with bypass := assocPut (256 * f + n) v p.bypass }
    else
      let dropped : PortState := { p with bypass := assocDrop (256 * f + n) p.bypass }
      match f, v with
      | 1, v => (p.st.take false (.p, n) v).map p.put
      | _, .point r => some { p with bypass := assocPut (256 * f + n) (.point r) p.bypass }
      | 0, v => (p.st.take false (.x, n) v).map dropped.put
      | _, .zero => some (dropped.put { p.st with z := p.st.z.setIfInBounds n 0 })
      | _, .word w => some (dropped.put { p.st with z := p.st.z.setIfInBounds n w })
      | _, _ => none

/-- Bypass predicate n. -/
def PortState.pred (p : PortState) (n : Nat) : Bool := p.st.pr (BitVec.ofNat 4 n)

/-- The ports that an operation of n sources reads, in their order (R311): the last source at the trigger, the others at A, B and C. -/
def sourcePorts (n : Nat) : List Nat := if n = 0 then [] else (List.range (min (n - 1) 3)) ++ [3]

/-- Sources put into their stand-ins. -/
def Strand.takeAll (latch : Bool) : List (PortFile × Nat) → List PortVal → Strand → Option Strand
  | r :: rs, v :: vs, st => (st.take latch r v).bind (Strand.takeAll latch rs vs)
  | [], _, st => some st
  | _, [], _ => none

/-- The next step of a seat that runs a module's moves: of a PARK or EXIT under way, or of results to come; none when it has none to take. -/
def portTurn (s : State) : Option State :=
  let go : Out → Option State := fun o => match o with | .next s => some s | _ => none
  match s.strand with
  | none => none
  | some st =>
    if !s.clockRuns (fieldOf s.cur.tile) || s.beatShort st || s.addShort st || st.idle.isSome || !s.heldOver st then none
    else if st.held.isSome then some (s.setStrand { st with held := none })
    else match st.wait, st.ctl with
    | .park _ _, _ => if s.canTurn (SeatId.key s.cur) st then go (seatTurn s.cur s) else none
    | .exit, _ => go (seatTurn s.cur s)
    | .none, .park _ _ => go (seatTurn s.cur s)
    | .none, .exit => go (seatTurn s.cur s)
    | .none, _ => if 0 < st.stall ∨ st.landing then go (idleTurn s) else none
    | _, _ => none

/-- Whether the seat's next step ends its strand's stay by its PARK or EXIT, and not by a trap. -/
def State.leaves (s : State) : Bool :=
  match s.strand with
  | none => false
  | some st => (match st.wait with | .park _ _ => true | .exit => true | _ => false) && !st.landing &&
    (match s.flushGate with | .ok _ => true | .error _ => false)

/-- At most n such steps, and whether the last of them was a PARK's or EXIT's own end: the moves have no latency, and yarc supplies the steps
(R312). -/
def portSettle : Nat → State → State × Bool
  | 0, s => (s, false)
  | n + 1, s => match portTurn s with
    | some s' => if s'.strand.isNone then (s', s.leaves) else portSettle n s'
    | none => (s, false)

/-- The outcome of a slot once its seat has taken the steps that it can: the results, a wait, the seat left by PARK or EXIT, or a trap, taken or
without a handler. -/
inductive PortOut where
  | done (s : State)
  | waits (s : State)
  | left (s : State)
  | trapped (s : State)

/-- A seat after a slot, as the strand stood before it. -/
def portOut (before : Strand) (r : State × Bool) : PortOut :=
  match r.1.strand with
  | none => if r.2 then .left r.1 else .trapped r.1
  | some st =>
    if st.handler.isSome ∧ before.handler.isNone then .trapped r.1
    else if !st.frozen ∧ !st.landing then .done r.1 else .waits r.1

/-- A slot run on the current seat's strand alone in its bundle (R163), and the steps up to its results; held back, it is still to be run. -/
def portRun (st : Strand) (i : Instr) (s : State) : Option (Option PortOut) :=
  match encode i with
  | none => none
  | some (w, _) =>
    if (s.setStrand st).heldBack st [(1, w, i)] then some none
    else match runSlots [(1, w, i)] (s.setStrand st) with
      | .next s => some (some (portOut st (portSettle 1024 s)))
      | _ => none

/-- The results of unit u's trigger at its ports 4 and 5, with the predicates and masks of the strand as they stood before it when they were
stand-ins; the row outputs of a drain go to the unit of the last DFROW, its T register to the drain's own (R232, notes/assumptions/71.md). -/
def PortState.collect (p : PortState) (u : Nat) (dsts : List (PortFile × Nat)) (old : Regs) (keepP : Bool) : PortState :=
  let st := p.st
  let out := fun (p : PortState) (u n : Nat) (v : PortVal) => ({ p with ports := assocPut (8 * u + n) v p.ports } : PortState)
  let p := match dsts[0]? with | some d => out p u 4 (st.give d) | none => p
  let p := match dsts[1]? with | some d => out p u 5 (st.give d) | none => p
  p.put { st with regs := { st.regs with p := if keepP then st.regs.p else old.p, k := old.k } }

/-- What a drain leaves at the ports: the T register of its destination, and the row outputs. -/
def PortState.drained (p : PortState) (u : Nat) : PortState :=
  let st := p.st
  let out := fun (p : PortState) (u n : Nat) (v : PortVal) => ({ p with ports := assocPut (8 * u + n) v p.ports } : PortState)
  let p := if cfgKind st.regs.fcfg = 1 then out p u 4 (st.give (.t, 7)) else p
  match p.rows with
  | none => p
  | some r =>
    let p := if cfgMaxen st.regs.fcfg then out p r 4 (st.give (.v, 28)) else p
    if cfgSumen st.regs.fcfg then out p r 5 (st.give (.v, 29)) else p

/-- The ranks of the handles of the current strand's launch. -/
def PortState.rank (p : PortState) (h : Nat) : Nat :=
  match p.s.entryOf p.st.launch h with
  | some e => e.rank
  | none => 0

/-- The results of a trigger that is done, at the ports of its unit; the row outputs and the T register of a drain; a staging register that MOVSW
writes holds no return point any more. -/
def PortState.finish (p : PortState) (u : Nat) (i : Instr) (dsts : List (PortFile × Nat)) (old : Regs) : PortState :=
  let keepP : Bool := match i with | .pload _ _ => true | _ => false
  let p := p.collect u dsts old keepP
  match i with
  | .mdrain _ _ _ _ => p.drained u
  | .dfrow _ _ _ _ _ => { p with rows := some u }
  | .movsw _ _ n => { p with bypass := assocDrop (256 * 7 + (n.toNat - 0x40)) p.bypass }
  | _ => p

/-- A trigger move (R311, R312): the operation of the body with the values of its ports. A trigger that is held back is run when it can be. -/
def PortState.fire (p0 : PortState) (m : Module) (u : Nat) (src : PortAddr) (body : Nat) : PortStep :=
  let p := { p0 with ports := assocPut (8 * u + 3) (p0.read src) p0.ports, at_ := p0.at_ + 1 }
  match decodeSlot 1 (triggerWord (m.units.getD u 0) body) none with
  | .bad _ => .stuck
  | .ok i => match portUse p.rank i with
    | none => .stuck
    | some use =>
      let latch : Bool := match i with | .mloadg _ _ _ => true | _ => false
      let vals := (sourcePorts use.srcs.length).map fun k => p.read (.port u k)
      let old := p.st.regs
      match Strand.takeAll latch use.srcs vals p.st with
      | none => .stuck
      | some st => match portRun st use.instr p.s with
        | none => .stuck
        | some none => .waits p0
        | some (some (.trapped s)) => .trapped { p with s := s }
        | some (some (.left s)) => .trapped { p with s := s }
        | some (some (.waits s)) => .waits { p with s := s, await := some (.trigger u i use.dsts old) }
        | some (some (.done s)) => .next (({ p with s := s } : PortState).finish u i use.dsts old)

/-- A control move that a slot performs (R312): MARK, PARK, EXIT, TRAP. p0 stands before the move, p after it. -/
def PortState.control (p0 p : PortState) (st : Strand) (i : Instr) (w : PortWait) (leave : PortState → PortStep) : PortStep :=
  match portRun st i p.s with
  | none => .stuck
  | some none => .waits p0
  | some (some (.trapped s)) => .trapped { p with s := s }
  | some (some (.left s)) => leave { p with s := s }
  | some (some (.waits s)) => .waits { p with s := s, await := some w }
  | some (some (.done s)) => .next { p with s := s }

/-- What PARK leaves of the ports and the bypass registers (R297, R312): the registers that the record carries, and a return point in X2 to X4. -/
def PortState.carried (p : PortState) : PortState :=
  { p with ports := [], bypass := p.bypass.filter fun (k, _) => decide (2 ≤ k ∧ k ≤ 4), rows := none }

/-- The guard of a move. -/
def Move.guard : Move → Nat
  | .move g _ _ => g
  | .trigger g _ _ _ => g
  | .imm g _ _ => g
  | .jump g _ => g
  | .call g _ => g
  | .ret g => g
  | .park g _ _ => g
  | .exit g => g
  | .trap g _ => g
  | .mark g => g

/-- A move under a true guard, the next one in order already chosen. -/
def PortState.act (m : Module) (p q : PortState) : Move → PortStep
  | .move _ d a => (match q.write d (p.read a) with | some q => .next q | none => .stuck)
  | .trigger _ u a body => p.fire m u a body
  | .imm _ d w => (match q.write d (.word w) with | some q => .next q | none => .stuck)
  | .jump _ t => .next { p with at_ := t }
  | .call _ t => (match p.write (.bypass 0 1) (.point (p.at_ + 1)) with | some p => .next { p with at_ := t } | none => .stuck)
  | .ret _ => (match p.read (.bypass 0 1) with
    | .point n => .next { p with at_ := n }
    | _ => .stuck)
  | .park _ a x =>
    (match Strand.takeAll false [(.x, 5), (.x, 6)] [p.read a, p.read (.bypass 0 x)] p.st with
      | none => .stuck
      | some st => p.control q st (.park 0 5 (if x = 0 then 0 else 6)) .park fun q => .parked q.carried)
  | .exit _ => p.control q q.st (.exit 0) .exit .exited
  | .trap _ c => p.control q q.st (.trap 0 (BitVec.ofNat 8 c)) .slot .trapped
  | .mark _ => p.control q q.st (.mark 0) .slot .trapped

/-- The step of a move that waited: its results, or the end of the PARK or EXIT that waited; a strand that another agent took off its seat
waits to be placed again. -/
def PortState.wake (p : PortState) (w : PortWait) : PortStep :=
  if p.s.strand.isNone then .waits p
  else match portOut p.st (portSettle 1024 p.s) with
  | .done s =>
    let p := { p with s := s, await := none }
    (match w with
      | .trigger u i dsts old => .next (p.finish u i dsts old)
      | _ => .next p)
  | .waits s => .waits { p with s := s }
  | .left s =>
    let p := { p with s := s, await := none }
    (match w with
      | .park => .parked p.carried
      | .exit => .exited p
      | _ => .trapped p)
  | .trapped s => .trapped { p with s := s, await := none }

/-- One move in program order (R310 to R312); a false guard makes it do nothing. -/
def PortState.step (m : Module) (p : PortState) : PortStep :=
  match p.await with
  | some w => p.wake w
  | none => match m.moves[p.at_]? with
    | none => .stuck
    | some v =>
      let q := { p with at_ := p.at_ + 1 }
      if !p.pred v.guard then .next q else p.act m q v

/-- At most n moves: where they end. -/
def PortState.run (m : Module) : Nat → PortState → PortStep
  | 0, p => .next p
  | n + 1, p => match p.step m with
    | .next p => p.run m n
    | r => r

/-! ### yarc's image (R313, R314) -/

/-- The sections of yarc's image (R313): the module's own, at the indices that its relocations name (R307); CODE in whole bundles and the TEMPLATE
store's image; a table of absent entries where the module has none; and section 0x8001, a 4-byte move index for each bundle in order
(notes/assumptions/71.md). -/
def yarcSections (m : Module) (bundles : List (BitVec 128 × Nat)) (template : Vector Byte 8192) : List ImageSection :=
  let code := bundles.flatMap fun (b, _) => leBytes 16 b.toNat
  let moves := bundles.flatMap fun (_, k) => leBytes 4 (k % m.moves.length)
  let table : List ImageSection := if countKind m.sections 3 = 0 then [⟨3, 0, (List.replicate 64 (absentEntry.toList.flatMap fun w => leBytes 8 w.toNat)).flatten⟩] else []
  m.sections ++ [⟨1, 0, code⟩, ⟨2, 0, template.toList⟩] ++ table ++ [⟨0x8001, 0, moves⟩]

/-- The image that yarc writes for a module, a function of the module, the stepping and its version (R313). The bundles, the move that each began
and the templates are yarc's, as is whether the stepping can hold the module's promise (R314): A0 has every unit class, another stepping may lack
one that the module names. That an image keeps the module's outcome is what YarcWrites adds (notes/assumptions/71.md). -/
def yarcImage (stepping version : Nat) (f : List Byte) : Except PortRefusal (List Byte) :=
  match readModule f with
  | .error e => .error e
  | .ok m => match (if stepping = 0x00A0 then none else Config.yarcLacks f stepping version) with
    | some u => .error (.lacks (unitClass (m.units.getD (u % m.units.length) 0)))
    | none => match Config.yarc f stepping version with
      | none => .error .spills
      | some (entry, first, rest, template) =>
        let bundles := first :: rest
        .ok (writeImage (16 * (entry % bundles.length)) (yarcSections m bundles template))

/-- What R314 compares at a suspension point and at exit: memory, which holds the counters, FLAGS and the fixed bypass registers (R309). -/
structure Suspension where
  mem : Memory
  flags : Flags
  x : List Word
  p : List Bool
  z : Vector Word 32
  deriving DecidableEq, Repr

/-- The suspension of the current seat's strand, its gated stores performed (R27, R29). -/
def State.suspension (s : State) : Option Suspension :=
  match s.flushGate with
  | .error _ => none
  | .ok s => s.strand.map fun st => ⟨s.mem, st.regs.flags, (List.range 5).map fun n => st.xr (BitVec.ofNat 6 n),
      (List.range 16).map fun n => st.pr (BitVec.ofNat 4 n), st.z⟩

/-- States that the part can come to from s, whatever moves next. -/
inductive ImageReaches (s : State) : State → Prop where
  | refl : ImageReaches s s
  | step (t u : State) (is : List Input) : ImageReaches s t → Machine.step { t with inputs := is } = .next u → ImageReaches s u

/-- States that a module can come to, other agents moving between its moves. -/
inductive ModuleReaches (m : Module) (p : PortState) : PortState → Prop where
  | refl : ModuleReaches m p p
  | move (q r : PortState) : ModuleReaches m p q → q.step m = .next r → ModuleReaches m p r
  | waits (q r : PortState) : ModuleReaches m p q → q.step m = .waits r → ModuleReaches m p r
  | parked (q r : PortState) : ModuleReaches m p q → q.step m = .parked r → ModuleReaches m p r
  | other (q : PortState) (u : State) (i : Input) : ModuleReaches m p q → i ≠ .seat q.s.cur →
      Machine.step { q.s with inputs := [i] } = .next u → ModuleReaches m p { q with s := { u with cur := q.s.cur } }

/-- The suspensions of a module that runs from s: before a PARK or EXIT that its guard lets act. -/
def ModuleSuspends (m : Module) (s : State) (x : Suspension) : Prop :=
  ∃ q, ModuleReaches m (portStart m s) q ∧ q.await = none ∧ q.s.suspension = some x ∧
    ((∃ g a n, m.moves[q.at_]? = some (.park g a n) ∧ q.pred g = true) ∨ (∃ g, m.moves[q.at_]? = some (.exit g) ∧ q.pred g = true))

/-- The suspensions of the strand on the current seat of s, as its own bundles run: its PARK or EXIT is about to leave the seat. -/
def ImageSuspends (s : State) (x : Suspension) : Prop :=
  ∃ t, ImageReaches s t ∧ ({ t with cur := s.cur } : State).leaves = true ∧ ({ t with cur := s.cur } : State).suspension = some x

/-- An image keeps a module's promise (R314): wherever it is loaded and its strand stands at its entry, every suspension that it comes to is one of the
module's, whatever live noise the source delivers. -/
def KeepsPromise (m : Module) (f : List Byte) : Prop :=
  ∀ (pl : Placement) (o : ObjectImage) (s0 s : State) (st : Strand), readImage f = .ok o → s0.loadImage pl f = .ok s →
    s.strand = some st → st.regs.pc = pl.code + o.entry → st.handler = none →
    ∀ x, ImageSuspends s x → ∃ fresh streams, ModuleSuspends m { s with fresh := fresh, streams := streams } x

/-- What yarc writes for a module (R313, R314): its image, a function of the module, the stepping and its version, which keeps the promise; one that
would break it is not written. -/
def YarcWrites (stepping version : Nat) (f image : List Byte) : Prop :=
  yarcImage stepping version f = .ok image ∧ ∃ m, readModule f = .ok m ∧ KeepsPromise m image

/-! ### The sealed translation cache (R315, R316) -/

/-- What a driver compares a cache entry with: the device's stepping, the installed yarc version, the context string's identity. -/
structure CacheContext where
  stepping : Nat := 0x00A0
  version : Nat
  ctx : Nat
  deriving DecidableEq, Repr

/-- A cache entry that the driver writes for a module and its image (R315). -/
def cacheEntry (c : CacheContext) (module image : List Byte) : List Byte :=
  let hdr := leBytes 4 0x00594345 ++ leBytes 2 c.stepping ++ leBytes 2 c.version ++ leBytes 8 image.length ++ leBytes 48 0 ++
    leBytes 32 (shake256 module).toNat
  hdr ++ leBytes 32 (sealTag c.ctx (hdr ++ image)).toNat ++ image

/-- Whether a cache entry is accepted for a module (R316). -/
def cacheAccepts (c : CacheContext) (module f : List Byte) : Bool :=
  let image := f.drop 128
  numAt f 0 4 == 0x00594345 && numAt f 4 2 == c.stepping && numAt f 6 2 == c.version && numAt f 8 8 == image.length && numAt f 16 48 == 0 &&
    numAt f 64 32 == (shake256 module).toNat && decide (128 ≤ f.length) &&
    numAt f 96 32 == (sealTag c.ctx (f.take 96 ++ image)).toNat

end Sys2Proof.Machine
end

