-- ==== Sys2Proof/Tests/Slice0.lean ====
section
/-!
SUPPORT. Tests: words of spec/ decoded, ill-formed slots refused, single slots against values that spec/ states or that follow from its
tables by hand, and for every statement with hypotheses a state and operands that meet them.
-/

namespace Sys2Proof.Tests

open Sys2Proof.Machine Sys2Proof.Spec

/-! ### Words of spec/ -/

theorem test_words_stall :
  decodeTableWord 32 0x07000000 = some (.nop 7) ∧ decodeTableWord 32 0x0000000D = some (.stall 0 13 none) := by decide

theorem test_words_scalar_register :
  decodeTableWord 32 0x10007146 = some (.add 0 7 5 6) ∧ decodeTableWord 32 0x101491C8 = some (.div 0 9 7 8) ∧
  decodeTableWord 32 0x10344146 = some (.shl 0 4 5 6) ∧ decodeTableWord 32 0x10504140 = some (.clz 0 4 5) := by decide

theorem test_words_scalar_immediate :
  decodeTableWord 32 0x2071400C = some (.movi 0 5 12 none) ∧ decodeTableWord 32 0x207180FD = some (.movi 0 6 (-3) none) ∧
  decodeTableWord 32 0x20610503 = some (.srai 0 4 5 3 none) ∧ decodeTableWord 32 0x28082102 = some (.addi 8 32 33 2 none) := by decide

theorem test_words_compare :
  decodeTableWord 32 0x30390E0A = some (.cmplti 0 2 7 10 none) ∧ decodeTableWord 32 0x30020A30 = some (.cmpeq 0 4 5 6) ∧
  decodeTableWord 32 0x3049123F = some (.tbit 0 2 9 63) ∧ decodeTableWord 32 0x30520430 = some (.pand 0 4 2 6) ∧
  decodeTableWord 32 0x307C8000 = some (.pset 0 9 0) ∧ decodeTableWord 32 0x30800A00 = some (.pload 0 5) ∧
  decodeTableWord 32 0x30880A00 = some (.pstore 0 5) := by decide

theorem test_words_control :
  decodeTableWord 32 0x400FFFFE = some (.br 0 (-2) none) ∧ decodeTableWord 32 0x40204000 = some (.jmp 0 1) ∧
  decodeTableWord 32 0x4031C000 = some (.callx 0 7) ∧ decodeTableWord 32 0x40430401 = some (.loop 0 12 1 1 none) ∧
  decodeTableWord 32 0x40500000 = some (.mark 0) ∧ decodeTableWord 32 0x40628900 = some (.park 0 10 9) ∧
  decodeTableWord 32 0x40700000 = some (.exit 0) ∧ decodeTableWord 32 0x40800007 = some (.trap 0 7) ∧
  decodeTableWord 32 0x40920000 = some (.spool 0 2 0) ∧ decodeTableWord 32 0x40A60000 = some (.spbrk 0 3) ∧
  decodeTableWord 32 0x40B00000 = some (.eret 0) := by decide

theorem test_words_local :
  decodeTableWord 32 0x50082518 = some (.ld16 0 1 10 12 none) ∧ decodeTableWord 32 0x50180A98 = some (.ld64 0 0 21 12 none) ∧
  decodeTableWord 32 0x50508298 = some (.st64 0 4 5 12 none) ∧ decodeTableWord 32 0x50584198 = some (.ldv 0 2 3 12 none) ∧
  decodeTableWord 32 0x50692218 = some (.ldvx 0 9 4 12 none) ∧ decodeTableWord 32 0x50782018 = some (.ldt 0 1 0 12 none) ∧
  decodeTableWord 32 0x50806118 = some (.stt 0 3 2 12 none) ∧ decodeTableWord 32 0x5088C39C = some (.lds 0 6 7 14 none) ∧
  decodeTableWord 32 0x5090C41C = some (.ldsv 0 6 8 14 none) := by decide

theorem test_words_spill :
  decodeTableWord 32 0x60298000 = some (.spst 0 19 0) ∧ decodeTableWord 32 0x60810000 = some (.spldp 0 2 0) := by decide

theorem test_words_vector :
  decodeTableWord 32 0x704C0018 = some (.vbcast 0 0 0 3 0) ∧ decodeTableWord 32 0x703C4008 = some (.vcmplt 0 2 0 1 0) ∧
  decodeTableWord 32 0x70604102 = some (.vpack 0 2 1 2) ∧ decodeTableWord 32 0x70585002 = some (.vpopc 0 5 2) ∧
  decodeTableWord 32 0x70346012 = some (.vsel 0 3 0 2 2) ∧ decodeTableWord 32 0x70794038 = some (.vtag 0 10 7) ∧
  decodeTableWord 32 0x70511020 = some (.vext 0 17 0 16) := by decide

theorem test_words_matrix :
  decodeTableWord 32 0x80000000 = some (.mload 0 0 0) ∧ decodeTableWord 32 0x80018080 = some (.mload 0 3 1) ∧
  decodeTableWord 32 0x80250B80 = some (.mpush 0 1 2 5 1 1) ∧ decodeTableWord 32 0x80400100 = some (.mpushg 0 0 0 0 1 0) ∧
  decodeTableWord 32 0x80500007 = some (.mzero 0 0 7) ∧ decodeTableWord 32 0x8078007D = some (.mshift 0 2 (-3)) ∧
  decodeTableWord 32 0x80800000 = some (.mswap 0 0) ∧ decodeTableWord 32 0x80900040 = some (.mdrain 0 0 0 64) := by decide

theorem test_words_pattern :
  decodeTableWord 32 0x90005000 = some (.gset 0 0 20) ∧ decodeTableWord 32 0x90091004 = some (.gidx 0 1 4 0 4) := by decide

theorem test_words_transform :
  decodeTableWord 32 0xA0108000 = some (.xpose 0 1 0) ∧ decodeTableWord 32 0xA0320DC0 = some (.vconv 0 4 3 7 0 0) ∧
  decodeTableWord 32 0xA031A572 = some (.vconv 0 3 9 5 6 2) := by decide

theorem test_words_drain :
  decodeTableWord 32 0xB0005000 = some (.dfcfg 0 0 5 0 0 0) ∧ decodeTableWord 32 0xB0025000 = some (.dfcfg 0 2 5 0 0 0) ∧
  decodeTableWord 32 0xB0182300 = some (.dfdstH 0 2 12) ∧ decodeTableWord 32 0xB0160000 = some (.dfdstT 0 4) ∧
  decodeTableWord 32 0xB0100000 = some (.dfdstNone 0) ∧ decodeTableWord 32 0xB025AB00 = some (.dfscale 0 0 1 13 11) ∧
  decodeTableWord 32 0xB0494000 = some (.dfrow 0 1 0 10 0) ∧ decodeTableWord 32 0xB0440E00 = some (.dfrow 0 0 1 0 14) ∧
  decodeTableWord 32 0xB065A992 = some (.dfv 0 11 10 12 18) := by decide

theorem test_words_engine :
  decodeTableWord 32 0xC0012A80 = some (.copy 0 0 1 1 21 0 0) ∧ decodeTableWord 32 0xC0036ABD = some (.copy 0 1 1 3 21 30 1) ∧
  decodeTableWord 32 0xC0054A00 = some (.copym 0 0 1 2 20 0 0) ∧ decodeTableWord 32 0xC00C0005 = some (.gath 0 5) ∧
  decodeTableWord 32 0xC0112A00 = some (.pool 0 0 1 1 20 0 0) ∧ decodeTableWord 32 0xC01C2B00 = some (.stld 0 0 0 1 22 0 0) ∧
  decodeTableWord 32 0xC0254A00 = some (.ballast 0 0 1 2 20 0 0) ∧ decodeTableWord 32 0xC031AA00 = some (.fred 0 0 1 5 20 0 0) ∧
  decodeTableWord 32 0xC0352001 = some (.launch 0 1 1 1) ∧ decodeTableWord 32 0xC0392A07 = some (.offload 0 0 1 1 20 7) := by decide

theorem test_words_sync :
  decodeTableWord 32 0xD0045460 = some (.cadd 0 2 1 20 24) ∧ decodeTableWord 32 0xD004D460 = some (.cadd 0 2 3 20 24) ∧
  decodeTableWord 32 0xD00AD454 = some (.cwait 0 1 3 20 21) ∧ decodeTableWord 32 0xD012D424 = some (.cread 0 1 3 20 9) ∧
  decodeTableWord 32 0xD01CD424 = some (.craise 0 2 3 20 9) ∧ decodeTableWord 32 0xD020EA10 = some (.aadd 0 7 20 8) ∧
  decodeTableWord 32 0xD038EA10 = some (.axchg 0 7 20 8) ∧ decodeTableWord 32 0xD040EA10 = some (.acas 0 7 20 8) ∧
  decodeTableWord 32 0xD0580A10 = some (.sadd 0 0 20 8) ∧ decodeTableWord 32 0xD08CC324 = some (.tarrive 0 2 3 3 9) ∧
  decodeTableWord 32 0xD086C324 = some (.tbar 0 3 3 3 9) ∧ decodeTableWord 32 0xD094C024 = some (.stepadv 0 9) ∧
  decodeTableWord 32 0xD0604200 = some (.fbegin 0 0 4 1) ∧ decodeTableWord 32 0xD0616600 = some (.fbegin 0 1 6 3) ∧
  decodeTableWord 32 0xD0690000 = some (.fwait 0 1) ∧ decodeTableWord 32 0xD099428C = some (.srsv 0 10 5 6) ∧
  decodeTableWord 32 0xD0A00294 = some (.scmt 0 5 10) ∧ decodeTableWord 32 0xD0B8E280 = some (.sqsnap 0 7 5 0) := by decide

theorem test_words_system :
  decodeTableWord 32 0xE0014010 = some (.movs 0 5 1) ∧ decodeTableWord 32 0xE0168420 = some (.movsw 0 26 0x42) ∧
  decodeTableWord 32 0xE0345000 = some (.noisectlLog 0 5) ∧ decodeTableWord 32 0xE0480000 = some (.chkmode 0 1) ∧
  decodeTableWord 32 0xE0400000 = some (.chkmode 0 0) ∧ decodeTableWord 32 0xE0515000 = some (.traprd 0 5 2) ∧
  decodeTableWord 32 0xE0614000 = some (.idle 0 5) := by decide

theorem test_words_header :
  decodeTableWord 32 0xF000FE03 = some (.lend 0 0xFE 0x03) ∧ decodeTableWord 32 0xF1040400 = some (.rep 4 0 0 1) := by decide

/-! ### Words and fields that spec/ refuses (R170, R173, R180) -/

/-- An op number that no instruction has (reason 4). -/
def unassigned (w : BitVec 32) : Bool := match decodeSlot 1 w none with | .bad r => r == 4 | _ => false

theorem test_unassigned_ops :
  unassigned 0x10640000 ∧ unassigned 0x20900000 ∧ unassigned 0x30900000 ∧ unassigned 0x40C00000 ∧ unassigned 0x50980000 ∧
  unassigned 0x60C00000 ∧ unassigned 0x70800000 ∧ unassigned 0x80A00000 ∧ unassigned 0x90580000 ∧ unassigned 0xA0600000 ∧
  unassigned 0xB0800000 ∧ unassigned 0xC0400000 ∧ unassigned 0xD0C00000 ∧ unassigned 0xE0700000 := by decide

theorem test_ill_formed_formats :
  (Instr.vbcast 0 1 2 11 0).reason = some 10 ∧ (Instr.vbcast 0 1 2 5 0).reason = some 5 ∧ (Instr.vtag 0 1 15).reason = some 10 ∧
  (Instr.mzero 0 1 2).reason = some 5 ∧ (Instr.tzero 0 1 7).reason = some 5 ∧ (Instr.tfill 0 1 2 8).reason = some 5 ∧
  (Instr.ttag 0 1 1).reason = some 5 ∧ (Instr.xpand 0 1 2 3 0).reason = some 5 ∧ (Instr.xconv 0 1 2 3 0 0).reason = some 5 ∧
  (Instr.vconv 0 1 2 8 0 0).reason = some 5 ∧ (Instr.dfcfg 0 0 11 0 0 0).reason = some 10 := by decide

theorem test_ill_formed_rounding_and_scope :
  (Instr.xconv 0 1 2 5 7 0).reason = some 10 ∧ (Instr.vconv 0 1 2 5 7 0).reason = some 10 ∧ (Instr.dfcfg 0 0 5 7 0 0).reason = some 10 ∧
  (Instr.copy 0 0 0 7 1 0 0).reason = some 10 ∧ (Instr.launch 0 0 7 1).reason = some 10 ∧ (Instr.offload 0 0 0 7 1 1).reason = some 10 ∧
  (Instr.cadd 0 0 7 1 2).reason = some 10 ∧ (Instr.fbegin 0 0 1 7).reason = some 10 ∧ (Instr.tbar 0 0 7 1 2).reason = some 10 := by decide

theorem test_ill_formed_lend :
  (Instr.shli 0 1 2 3 (some 1)).reason = some 5 ∧ (Instr.ld8 0 1 2 3 (some 9)).reason = some 5 ∧ (Instr.ldt 0 1 2 3 (some 1)).reason = some 5 ∧
  (Instr.lds 0 1 2 3 (some 4)).reason = some 5 ∧ (Instr.loop 0 1 0 0 none).reason = some 5 ∧ (Instr.loop 0 1 0 0 (some 0)).reason = some 5 := by decide

theorem test_ill_formed_fields :
  (Instr.cmpeq 0 3 1 2).reason = some 5 ∧ (Instr.tbit 0 1 2 3).reason = some 5 ∧ (Instr.pset 0 2 2).reason = some 5 ∧
  (Instr.spool 0 0 6).reason = some 5 ∧ (Instr.spldv 0 1 481).reason = some 5 ∧ (Instr.spstp 0 9 0).reason = some 5 ∧
  (Instr.vcmplt 0 3 1 2 0).reason = some 5 ∧ (Instr.mpush 0 0 1 2 0 1).reason = some 5 ∧ (Instr.mdrain 0 0 4 8).reason = some 5 ∧
  (Instr.mdrain 0 0 8 64).reason = some 5 ∧ (Instr.mdrain 0 0 0 0).reason = some 5 ∧ (Instr.gband 0 1 2 0 3).reason = some 5 := by decide

theorem test_ill_formed_finisher_and_engine_fields :
  (Instr.dfcfg 0 14 5 0 0 0).reason = some 5 ∧ (Instr.dfcfg 0 2 5 0 0 1).reason = some 5 ∧ (Instr.dfscale 0 0 0 1 2).reason = some 5 ∧
  (Instr.dfmask 0 1 2 31).reason = some 5 ∧ (Instr.dfrow 0 1 1 3 3).reason = some 5 ∧ (Instr.dfrow 0 0 1 3 4).reason = some 5 ∧
  (Instr.dfv 0 1 2 3 5).reason = some 5 ∧ (Instr.dfv 0 1 2 3 21).reason = some 5 ∧ (Instr.dfstat 0 1 5).reason = some 5 ∧
  (Instr.copy 0 0 0 1 1 63 1).reason = some 5 ∧ (Instr.copy 0 0 0 1 1 2 0).reason = some 5 ∧ (Instr.cwait 0 2 1 1 2).reason = some 5 ∧
  (Instr.fbegin 0 0 0 1).reason = some 5 ∧ (Instr.movs 0 1 0x013).reason = some 12 ∧ (Instr.movsw 0 1 0x060).reason = some 12 := by decide

/-- A slot's word decodes back to it. -/
def roundTrips (i : Instr) : Bool := i.wf && match encode i with | some (w, x) => decide (decodeSlot 1 w x = .ok i) | none => false

/-- Boundary values of fields decode back (R169): every field at its largest, with and without LEND. -/
theorem test_boundary_encodings :
  roundTrips (.addi 15 63 63 0xFF (some 0xFF)) ∧ roundTrips (.loop 15 63 15 1023 (some 255)) ∧ roundTrips (.br 15 0xFFFFF (some 255)) ∧
  roundTrips (.spldv 15 31 480) ∧ roundTrips (.mdrain 15 3 56 8) ∧ roundTrips (.mshift 15 3 0x40) ∧ roundTrips (.copy 15 1 1 6 63 62 1) ∧
  roundTrips (.dfcfg 15 13 10 6 1 0xFF) ∧ roundTrips (.movs 15 63 0x05F) ∧ roundTrips (.ldv 15 63 31 63 (some 255)) := by decide

/-! ### Small states -/

/-- A strand on seat 0 of tile 0, its turn, inside a bundle. -/
def at0 (st : Strand) : State := { State.reset with seats := [(0, st)], inBundle := true }

/-- A strand of launch 1 with the X registers given. -/
def withX (l : List (Nat × Word)) : Strand :=
  { zeroStrand with launch := 1, regs := { zeroRegs with x := l.foldl (fun x p => x.setIfInBounds p.1 p.2) zeroRegs.x } }

/-- The strand that a slot leaves. -/
def ran (i : Instr) (st : Strand) : Option Strand := match exec i (at0 st) with | .next t => t.strand | _ => none

/-- The trap that a slot raises: cause, TRAPARG and reason. -/
def trapOf (i : Instr) (s : State) : Option (Nat × Nat × Nat) :=
  match exec i s with | .next t => t.raised.map fun r => (r.cause, r.arg, r.reason) | _ => none

/-- X and P results in flight after a slot: landing step, register, value. -/
def xs (i : Instr) (st : Strand) : Option (List (Nat × Nat × Word)) :=
  (ran i st).map fun t => t.pend.filterMap fun p => match p.res with | .x n v => some (p.due, n, v) | _ => none
def ps (i : Instr) (st : Strand) : Option (List (Nat × Nat × Bool)) :=
  (ran i st).map fun t => t.pend.filterMap fun p => match p.res with | .p n v => some (p.due, n, v) | _ => none

/-! ### Scalar, predicate and control slots -/

/-- R186: the quotient of −2^63 by −1, and any quotient by 0. -/
theorem test_div_corners :
  xs (.div 0 9 7 8) (withX [(7, 0x8000000000000000), (8, -1)]) = some [(12, 9, 0x8000000000000000)] ∧
  xs (.div 0 9 7 8) (withX [(7, 5)]) = some [(12, 9, 0xFFFFFFFFFFFFFFFF)] := by decide
/-- R186: the remainder takes the sign of a. -/
theorem test_rem_sign :
  xs (.rem 0 9 7 8) (withX [(7, -7), (8, 2)]) = some [(12, 9, -1)] ∧ xs (.remn 0 9 7 8) (withX [(7, 7)]) = some [(12, 9, 7)] := by decide
theorem test_divn_is_unsigned : xs (.divn 0 9 7 8) (withX [(7, -1), (8, 2)]) = some [(12, 9, 0x7FFFFFFFFFFFFFFF)] := by decide
theorem test_mulh_signs :
  xs (.mulh 0 9 7 8) (withX [(7, -1), (8, 2)]) = some [(3, 9, -1)] ∧ xs (.mulhn 0 9 7 8) (withX [(7, -1), (8, 2)]) = some [(3, 9, 1)] := by decide
theorem test_shift_counts_use_six_bits :
  xs (.shl 0 4 5 6) (withX [(5, 3), (6, 65)]) = some [(1, 4, 6)] ∧ xs (.sra 0 4 5 6) (withX [(5, -8), (6, 1)]) = some [(1, 4, -4)] ∧
  xs (.shr 0 4 5 6) (withX [(5, -8), (6, 60)]) = some [(1, 4, 15)] := by decide
theorem test_bit_counts :
  xs (.clz 0 4 5) (withX []) = some [(1, 4, 64)] ∧ xs (.ctz 0 4 5) (withX [(5, 40)]) = some [(1, 4, 3)] ∧
  xs (.popc 0 4 5) (withX [(5, 0x8000000000000101)]) = some [(1, 4, 3)] := by decide
theorem test_min_max_signs :
  xs (.min 0 4 5 6) (withX [(5, -1), (6, 1)]) = some [(1, 4, -1)] ∧ xs (.minn 0 4 5 6) (withX [(5, -1), (6, 1)]) = some [(1, 4, 1)] ∧
  xs (.max 0 4 5 6) (withX [(5, -1), (6, 1)]) = some [(1, 4, 1)] ∧ xs (.maxn 0 4 5 6) (withX [(5, -1), (6, 1)]) = some [(1, 4, -1)] := by decide
theorem test_add32_extends_the_sign :
  xs (.add32 0 4 5 6) (withX [(5, 0x7FFFFFFF), (6, 1)]) = some [(1, 4, 0xFFFFFFFF80000000)] ∧
  xs (.sub32 0 4 5 6) (withX [(6, 1)]) = some [(1, 4, -1)] := by decide
/-- R175: X0 discards a write. -/
theorem test_x0_discards : xs (.add 0 0 5 6) (withX [(5, 1)]) = some [] := by decide
theorem test_andn_order : xs (.andn 0 4 5 6) (withX [(5, 6), (6, 3)]) = some [(1, 4, 4)] := by decide
/-- R188: the second bundle of the worked chain. -/
theorem test_movk_chain :
  xs (.movk 0 5 1 0xAB (some 0x89)) (withX [(5, 0xFFFFFFFFFFFFCDEF)]) = some [(1, 5, 0xFFFFFFFF89ABCDEF)] ∧
  xs (.movi 0 5 0xEF (some 0xCD)) (withX []) = some [(1, 5, 0xFFFFFFFFFFFFCDEF)] := by decide
theorem test_immediate_signs :
  xs (.addi 0 4 5 0xFF none) (withX [(5, 1)]) = some [(1, 4, 0)] ∧ xs (.andi 0 4 5 0xFF none) (withX [(5, -2)]) = some [(1, 4, -2)] ∧
  xs (.srai 0 4 5 3 none) (withX [(5, -9)]) = some [(1, 4, -2)] := by decide
/-- R189: the condition and its complement; with pd = 0 both are discarded. -/
theorem test_compare_pairs :
  ps (.cmplti 0 2 7 10 none) (withX [(7, -7)]) = some [(1, 2, true), (1, 3, false)] ∧
  ps (.cmpltn 0 2 7 8) (withX [(7, -7), (8, 10)]) = some [(1, 2, false), (1, 3, true)] ∧ ps (.cmpeq 0 0 1 1) (withX []) = some [] := by decide
theorem test_tbit : ps (.tbit 0 2 9 63) (withX [(9, 0x8000000000000000)]) = some [(1, 2, true), (1, 3, false)] := by decide
/-- R190: PANDN with P0 true and P1 false. -/
theorem test_pandn_order : ps (.pandn 0 4 0 1) (withX []) = some [(1, 4, true)] ∧ ps (.pandn 0 4 1 0) (withX []) = some [(1, 4, false)] := by decide
/-- R191: the predicate word leaves out P0 and P1. -/
theorem test_pstore :
  xs (.pstore 0 5) { withX [] with regs := { zeroRegs with p := 0x8005 } } = some [(1, 5, 0x8004)] := by decide
/-- R176: X33 of an iteration is read as X34 in the next, after XROT went from 0 to 31. -/
theorem test_rotation :
  { withX [(33, 7)] with regs := { (withX [(33, 7)]).regs with xrot := 31 } }.xr 34#6 = 7 ∧ (withX [(33, 7)]).xr 33#6 = 7 ∧
  xs (.or 0 34 33 0) { withX [(33, 7)] with regs := { (withX [(33, 7)]).regs with xrot := 31 } } = some [(1, 33, 0)] := by decide
/-- R164: a slot whose guard is false does nothing. -/
theorem test_false_guard : xs (.add 2 4 5 6) (withX [(5, 1)]) = some [] := by decide
/-- R196: the end of iteration 2 of the worked loop, and of its last. -/
def loopAt (lc ec xrot prot : Nat) : Regs :=
  { zeroRegs with pc := 0x120, lc := lc, ec := ec, xrot := xrot, prot := prot, loop := some ⟨0x120, 1, none, none⟩ }
theorem test_loop_iteration :
  let r := (loopAt 1 1 30 6).nextBundle .none
  r.pc = 0x120 ∧ r.lc = 0 ∧ r.ec = 1 ∧ r.xrot = 29 ∧ r.prot = 5 ∧ r.pAt 8 = false := by decide
theorem test_loop_exit :
  let r := (loopAt 0 1 29 5).nextBundle .none
  r.pc = 0x130 ∧ r.lc = 0 ∧ r.ec = 0 ∧ r.xrot = 28 ∧ r.prot = 4 ∧ r.loop.isNone := by decide
/-- R192: the target counts bundles from the branch. -/
theorem test_branch_target :
  (ran (.br 0 (-2) none) { withX [] with regs := { zeroRegs with pc := 0x140 } }).map (·.ctl) = some (.branch 0x120) ∧
  (ran (.call 0 5 none) { withX [] with regs := { zeroRegs with pc := 0x140 } }).map (·.ctl) = some (.branch 0x190) ∧
  xs (.call 0 5 none) { withX [] with regs := { zeroRegs with pc := 0x140 } } = some [(1, 1, 0x160)] := by decide
theorem test_false_branch_goes_past_the_delay_bundle :
  (ran (.br 2 (-2) none) { withX [] with regs := { zeroRegs with pc := 0x140 } }).map (·.ctl) = some (.branch 0x160) := by decide
/-- R200, R210, R43: privileged forms outside handler mode and without SERVICE. -/
theorem test_privileged_forms :
  trapOf (.eret 0) (at0 (withX [])) = some (0x0D, 0, 0) ∧ trapOf (.traprd 0 5 2) (at0 (withX [])) = some (0x0D, 0, 0) ∧
  trapOf (.setpri 0 5) (at0 (withX [(5, 1)])) = some (0x0D, 0, 0) := by decide
/-- R199: the code of a software trap. -/
theorem test_trap : trapOf (.trap 0 7) (at0 (withX [])) = some (0x10, 7, 0) := by decide
/-- R202: a vector's lanes 2j and 2j + 1 lie in slot s + j. -/
theorem test_spill_vector :
  (ran (.spstv 0 1 480) { withX [] with regs := { zeroRegs with v := zeroRegs.v.setIfInBounds 1 ⟨3, Vector.ofFn fun i => BitVec.ofNat 32 i.val⟩ } }).map
    (fun t => (t.pend.map fun p => match p.res with | .spill n v g => (n, v, g) | _ => (0, 0, 0)).take 2) =
    some [(480, 0x0000000100000000, 3), (481, 0x0000000300000002, 3)] := by decide
/-- R208: a read of STEPCLK gives the step of its own issue. -/
theorem test_stepclk : xs (.movs 0 5 1) { withX [] with clk := 9 } = some [(10, 5, 9)] := by decide

/-! ### Numbers -/

/-- The FP16 number with bits x. -/
def half (x : Nat) : Val := decodeFloat fp16 x
/-- The worked block of R71, row by row. -/
def workedBlock : List (Val × Nat) :=
  [half 0x4200, half 0x3800, half 0, half 0, half 0x3400, half 0x3C00, half 0, half 0, half 0, half 0, half 0xBA00, half 0x3000,
   half 0, half 0, half 0x3200, half 0].map fun v => (v, 0)
/-- R71: 0B 80 00 80 01 00 FE 80, with NX and UF. -/
theorem test_sq3_worked_block : sqBlock 8 0 workedBlock = (0x80FE00018000800B, flNX ||| flUF) := by decide
/-- R73: the transposed block 03 90 00 80 01 00 FE 80. -/
theorem test_sq3_worked_transpose : sqTranspose 8 0x80FE00018000800B = 0x80FE000180009003 := by decide
/-- R74: 1 + 3·2^-12 to FP16 under SR rounds up exactly when F = 0xC000 exceeds the noise word (R76). -/
theorem test_stochastic_rounding :
  (convertOne 5 6 0x8123 false (.num false 4099 (-12))).1 = 0x3C01 ∧ (convertOne 5 6 0xC000 false (.num false 4099 (-12))).1 = 0x3C00 := by decide
/-- R75: four halfway elements under RNEF and under RNE. -/
theorem test_error_feedback :
  (convertGroup 5 5 false (.num false 0 0) (List.replicate 4 (.num false 2049 (-11), 0))).map (·.1) = [0x3C00, 0x3C01, 0x3C00, 0x3C01] ∧
  (convertGroup 5 0 false (.num false 0 0) (List.replicate 4 (.num false 2049 (-11), 0))).map (·.1) = [0x3C00, 0x3C00, 0x3C00, 0x3C00] := by
  decide
/-- R91: the worked window sum, where 2^-70 is cut off, and alone. -/
theorem test_window_sum :
  windowSum false [.num false 0 0, .num false 1 0, .num false 1 (-70), .num true 1 0] = (0, flNX) ∧
  windowSum false [.num false 0 0, .num false 1 (-70)] = (0x1C800000, 0) := by decide
/-- R91: infinities of both signs, and ∞ × stored 0. -/
theorem test_window_sum_specials :
  windowSum false [.inf false, .inf true] = (0x7FC00000, flNV) ∧ windowSum true [.num false 1 0] = (0x7FC00000, flNV) ∧
  windowSum false [.num true 0 0, .num true 0 0] = (0x80000000, 0) := by decide
/-- R92: one saturation of the exact sum. -/
theorem test_int_sum : intSum (2 ^ 31 - 1) [1, -1] = (2 ^ 31 - 1, 0) ∧ intSum (2 ^ 31 - 1) [1] = (2 ^ 31 - 1, flOF) := by decide
/-- R117, R118, R120: the worked stamped word with f = 0.75. -/
theorem test_stamped_read : (readStamped 0x3F400000 0x40000000 5 8).1 = 0x3F580000 := by decide +kernel
theorem test_stamped_newer_add : (stampedAdd (0x40000000 + 5 * 2 ^ 32) 0x3F800000 0x3F400000 8).1 = 0x3FEC0000 + 8 * 2 ^ 32 := by decide +kernel
theorem test_stamped_older_add : (stampedAdd (0x3FEC0000 + 8 * 2 ^ 32) 0x3F800000 0x3F400000 7).1 = 0x40260000 + 8 * 2 ^ 32 := by decide +kernel
/-- R120: a retired word takes no add. -/
theorem test_stamped_retired : stampedAdd (2 ^ 48 + 7) 0x3F800000 0x3F400000 8 = (2 ^ 48 + 7, flTB) := by decide
/-- R237: MAX ranks +0 above −0, MIN below. -/
theorem test_zero_order : max32 0 0x80000000 = 0 ∧ min32 0 0x80000000 = 0x80000000 ∧ max32 0x7FC00001 0 = 0x7FC00000 := by decide
/-- R100: 2^3, 1/4, the square root of 9. -/
theorem test_finisher_functions :
  finishFn 2 0 0x40400000 = (0x41000000, 0) ∧ finishFn 1 0 0xBF800000 = (0, 0) := by decide

/-! ### Vector, pattern, tile and finisher slots -/

/-- A V register with its first lanes given. -/
def vreg (t : BitVec 4) (l : List Lane) : VReg := ⟨t, Vector.ofFn fun i => l[i.val]?.getD 0⟩
/-- A strand with V registers, K registers and T registers given. -/
def withV (vs : List (Nat × VReg)) (ks : List (Nat × Word)) (ts : List (Nat × TReg)) : Strand :=
  { zeroStrand with
    launch := 1
    t := ts.foldl (fun t p => t.setIfInBounds p.1 p.2) zeroStrand.t
    regs := { zeroRegs with
      v := vs.foldl (fun v p => v.setIfInBounds p.1 p.2) zeroRegs.v
      k := ks.foldl (fun k p => k.setIfInBounds p.1 p.2) zeroRegs.k } }
/-- V results in flight after a slot: landing step, register, tag, mask, and the first eight lanes. -/
def vs (i : Instr) (st : Strand) : Option (List (List Nat)) :=
  (ran i st).map fun t => t.pend.filterMap fun p => match p.res with
    | .v n t m l => some (p.due :: n :: t.toNat :: m.toNat :: (l.toList.take 8).map (·.toNat)) | _ => none
/-- K results, T results' tags and flags in flight. -/
def ks (i : Instr) (st : Strand) : Option (List (Nat × Nat × Word)) :=
  (ran i st).map fun t => t.pend.filterMap fun p => match p.res with
    | .k n v => some (p.due, n, v) | .g n v => some (p.due, 100 + n, v) | .flags f => some (p.due, 200, f.setWidth 64) | _ => none

/-- R207: the worked fragment. -/
theorem test_vcmplt_worked :
  ks (.vcmplt 0 2 0 1 0) (withV [(0, vreg 3 []), (1, vreg 3 [5, -3, 9, 0, -1, 7, 2, -8])] [] []) =
    some [(2, 2, 0x65), (2, 3, 0xFFFFFFFFFFFFFF9A)] := by decide
theorem test_vpack_worked :
  vs (.vpack 0 2 1 2) (withV [(1, vreg 3 [5, -3, 9, 0, -1, 7, 2, -8])] [(2, 0x65)] []) =
    some [[2, 2, 3, 0xFFFFFFFFFFFFFFFF, 5, 9, 7, 2, 0, 0, 0, 0]] := by decide
theorem test_vpopc_worked : xs (.vpopc 0 5 2) (withV [] [(2, 0x65)] []) = some [(2, 5, 4)] := by decide
/-- R207: a first source tagged RAW raises format. -/
theorem test_vcmplt_raw : trapOf (.vcmplt 0 2 0 1 0) (at0 (withV [(1, vreg 3 [])] [] [])) = some (0x02, 0x210, 0) := by decide
/-- R204: I8 wraps on eight bits and is sign-extended; a shift count is taken modulo the width. -/
theorem test_vadd_i8_wraps :
  vs (.vadd 0 2 0 1 0) (withV [(0, vreg 1 [127, -1]), (1, vreg 1 [1, 1])] [] []) =
    some [[2, 2, 1, 0xFFFFFFFFFFFFFFFF, 0xFFFFFF80, 0, 0, 0, 0, 0, 0, 0]] := by decide
theorem test_vshr_fills_within_the_width :
  vs (.vshr 0 2 0 1 0) (withV [(0, vreg 1 [-2]), (1, vreg 1 [9])] [] []) =
    some [[2, 2, 1, 0xFFFFFFFFFFFFFFFF, 0x7F, 0, 0, 0, 0, 0, 0, 0]] := by decide
theorem test_viota_counts_below :
  vs (.viota 0 2 3) (withV [] [(3, 0xB)] []) = some [[2, 2, 4, 0xFFFFFFFFFFFFFFFF, 0, 1, 2, 2, 3, 3, 3, 3]] := by decide
theorem test_vext_sign : xs (.vext 0 5 1 0) (withV [(1, vreg 3 [-3])] [] []) = some [(2, 5, -3)] ∧
  xs (.vext 0 5 1 0) (withV [(1, vreg 4 [-3])] [] []) = some [(2, 5, 0xFFFFFFFD)] := by decide
theorem test_vfirst_of_nothing : xs (.vfirst 0 5 3) (withV [] [] []) = some [(2, 5, 64)] := by decide
/-- R226: an index below 0 writes zero and sets OOR. -/
theorem test_xperm_out_of_range :
  vs (.xperm 0 2 1 0 0) (withV [(1, vreg 7 [10, 20, 30]), (0, vreg 3 [2, -1, 1])] [] []) =
    some [[2, 2, 7, 0xFFFFFFFFFFFFFFFF, 30, 0, 20, 10, 10, 10, 10, 10]] ∧
  ks (.xperm 0 2 1 0 0) (withV [(1, vreg 7 [10, 20, 30]), (0, vreg 3 [2, -1, 1])] [] []) = some [(2, 200, 16)] := by decide
/-- R220: the worked descriptor. -/
theorem test_gidx_worked : ks (.gidx 0 1 4 0 4) (withX []) = some [(1, 101, 0x0000001000020048)] := by decide
/-- R229: DFCFG clears the stages and leaves the destination. -/
theorem test_dfcfg_fields :
  (ran (.dfcfg 0 2 5 0 0 0) (withX [])).map (fun t => t.pend.map fun p => match p.res with | .fcfg w m v => (w, m, v) | _ => (9, 0, 0)) =
    some ([(0, 56, 8, 0), (0, 55, 1, 0), (0, 50, 3, 0), (0, 49, 1, 0), (0, 46, 3, 0), (0, 42, 4, 5), (0, 38, 4, 2)].map
      fun (w, lo, len, v) => (w, BitVec.ofNat 64 ((2 ^ len - 1) * 2 ^ lo), BitVec.ofNat 64 (v * 2 ^ lo))) := by decide
/-- R212, R215: a push without a stationary operand. -/
theorem test_push_without_latch : trapOf (.mpush 0 0 0 0 0 0) (at0 (withX [])) = some (0x02, 0x228, 0) := by decide
/-- R218: a drain of a bank tagged RAW. -/
theorem test_drain_raw : trapOf (.mdrain 0 1 0 64) (at0 (withX [])) = some (0x02, 0x231, 0) := by decide

/-! ### Tensors and memory -/

/-- H5 of the worked resolution (R55). -/
def h5 : Entry := #v[0x00100000, BitVec.ofNat 64 (256 + 320 * 2 ^ 32), 0, BitVec.ofNat 64 (2 * 2 ^ 62 + 8 + 3 * 2 ^ 9 + 1 * 2 ^ 13), 0, 0,
  BitVec.ofNat 64 (0 + 5 * 2 ^ 6 + 2 * 2 ^ 10), 0]
/-- R55: element (130, 200) of H5 lies in tile 13, on tile 73, at slice offset 0x102110. -/
theorem test_worked_resolution :
  h5.tileNumber 0 130 200 = 13 ∧ h5.owner 0 13 = some 73 ∧ h5.frame 13 = 0x00102000 ∧
  State.reset.elemAddr 73 0 { e := h5, h := 5, tile := 13, row := 130, col := 200, frame := sliceAddr 73 (h5.frame 13), page := none } 0 0 =
    some 0x24902110 := by decide

/-- Launch 1 of an image at 0 with a table. -/
def launch1 : Launch :=
  { id := 1, field := 0, words := Vector.replicate 8 0, asid := 0, pri := 0, issuer := .queue 0, phase := .open_, created := 1, exited := 0,
    lost := false, args := none, tiles := [0, 72, 73], agePeriod := 0, ceiling := 0, short := false, since := 0 }
def withTable (t : Assoc Entry) (s : State) : State :=
  { s with launches := [launch1], images := [(0, ⟨0, 0x1000, [], [], t, []⟩)] }
/-- R233, R51: a reserved bit of the mask word, and an absent handle. -/
theorem test_dfmask_reserved :
  trapOf (.dfmask 0 5 5 3) (withTable [(5, h5)] (at0 (withX [(5, 32)]))) = some (0x02, 0x201, 0) ∧
  trapOf (.dfmask 0 1 5 3) (at0 (withX [(5, 32)])) = some (0x05, 0xFFFF, 0) := by decide
/-- R55: the same load on tile 72 raises not local with TRAPARG 73. -/
theorem test_worked_resolution_not_local :
  trapOf (.ld16 0 5 10 12 none) { withTable [(5, h5)] (at0 (withX [])) with
    cur := ⟨72, 0⟩, seats := [(144, withX [(12, 130), (13, 200)])] } = some (0x05, 73, 0) := by decide

/-- The worked copy of R251: a 4×5 matrix 10r + c at 0x1000, block transposed to 0x2000. -/
def copied : Cmd :=
  { id := 1, op := 0, phase := 2, seat := ⟨0, 0⟩, asid := 0, launch := 1, sid := 0,
    z := ((((((Vector.replicate 32 0).set 0 (0x1000 + 28)).set 1 0x2000).set 2 0x0000000300000002).set 3 0x0000000500000000).set 4 2).set 5 0x0000000100000003,
    counter := 2 ^ 64, acq := false, rel := false, scope := 0, arm := none, handle := 0, now := 0, owner := 0, moved := [], leased := [],
    awaits := [], frames := [], adds := [], length := none }
def matrix : State := { State.reset with mem := (List.range 20).foldl (fun m k => memWrite m (0x1000 + 4 * k) (BitVec.ofNat 8 (10 * (k / 5) + k % 5))) [] }
theorem test_worked_copy :
  (List.range 6).map (fun k => (copyLoop copied (copyCount copied) 0 matrix 0).1.natAt (0x2000 + 4 * k) 4) = [12, 22, 32, 13, 23, 33] := by decide
/-- Memory keeps its form: a written zero is not listed. -/
theorem test_memory_zero : memWrite (memWrite [] 5 7) 5 0 = [] ∧ memRead (memWrite [] 5 7) 5 = 7 ∧ memWrites [] 3 [1, 0, 2] = [(3, 1), (5, 2)] := by decide

/-! ### States and operands that meet the statements' hypotheses: slots -/

theorem witness_acts (l : List (Nat × Word)) : ActsInBundle (at0 (withX l)) (withX l) 0 := ⟨⟨rfl, rfl, rfl⟩, rfl⟩
theorem witness_acts_vectors : ActsInBundle (at0 (withV [] [] [])) (withV [] [] []) 0 := ⟨⟨rfl, rfl, rfl⟩, rfl⟩
theorem witness_marks (l : List (Nat × Word)) : Marks (at0 (withX l)) (at0 (withX l)) (withX l) := ⟨rfl, rfl⟩

theorem witness_EncodeThenDecode :
  (Instr.rep 4 0 0 1).wf = true ∧ encode (.rep 4 0 0 1) = some (0xF1040400, none) ∧ (wordClass 0xF1040400#32 = 15 → (0 : Nat) = 0) ∧
  (Instr.addi 15 63 63 0x80 (some 0xFF)).wf = true ∧ encode (.addi 15 63 63 0x80 (some 0xFF)) = some (0x2F0FFF80, some 0xFF) ∧
  wordClass 0x2F0FFF80#32 ≠ 15 := by decide
theorem witness_FalseGuardChangesNothing :
  encode (.add 2 4 5 6) = some (0x12004146, none) ∧ wordClass 0x12004146#32 ≠ 15 ∧ wordClass 0x12004146#32 ≠ 4 ∧
  (withX []).pr (bitsAt 0x12004146#32 24 4) = false ∧
  encode (.mark 1) = some (0x41500000, none) ∧ wordClass 0x41500000#32 = 4 ∧ 4 ≤ fieldAt 0x41500000#32 20 4 ∧
  (withX []).pr (bitsAt 0x41500000#32 24 4) = false := by decide
theorem witness_FalseGuard_seat : (at0 (withX [])).strand = some (withX []) := rfl
theorem witness_RegisterReads :
  1 ≤ (1#6).toNat ∧ (31#6).toNat < 32 ∧ 32 ≤ (32#6).toNat ∧ 2 ≤ (2#4).toNat ∧ (7#4).toNat < 8 ∧ 8 ≤ (8#4).toNat ∧ 1 ≤ (1#3).toNat := by decide
theorem witness_ScalarResults : Acts (at0 (withX [(7, -7), (8, 0)])) (withX [(7, -7), (8, 0)]) 0 := (witness_acts _).toActs
theorem witness_ComparesAndPredicates : Acts (at0 (withX [])) (withX []) 0 ∧ (0#4).toNat % 2 = 0 ∧ (14#4).toNat % 2 = 0 :=
  ⟨(witness_acts _).toActs, by decide, by decide⟩
theorem witness_NopStallAndHeaders : Acts (at0 (withX [])) (withX []) 0 ∧ (1#8) ≠ 0 ∧ (255#8) ≠ 0 := ⟨(witness_acts _).toActs, by decide, by decide⟩
theorem witness_BranchesTakeTheirDelayBundle :
  (at0 (withX [])).strand = some (withX []) ∧ (at0 (withX [])).raised = none ∧ (withX []).pr 0#4 = true ∧ (withX []).pr 1#4 = false ∧
  zeroRegs.spool = none ∧ zeroRegs.rep = none ∧ zeroRegs.branch = none ∧ { zeroRegs with branch := some 32 }.branch = some 32 :=
  ⟨rfl, rfl, rfl, rfl, rfl, rfl, rfl, rfl⟩
theorem witness_LoopsRunTheirIterations :
  (bitsAt ((withX [(12, 0x100000000)]).xr 12#6) 0 32).toNat = 0 ∧ (bitsAt ((withX [(12, 0xFFFFFFFF)]).xr 12#6) 0 32).toNat ≠ 0 ∧
  (loopAt 1 1 0 0).pc = 0x120 + 16 * (1 - 1) ∧ (loopAt 1 1 0 0).spool = none ∧ (loopAt 1 1 0 0).rep = none ∧ (loopAt 1 1 0 0).branch = none ∧
  (loopAt 1 1 0 0).loop = some ⟨0x120, 1, none, none⟩ := by decide
theorem witness_LoopEnds :
  (0 : Nat) = ((none : Option Nat).getD 0) ∧ (loopAt 0 1 0 0).lc = 0 ∧ (loopAt 0 1 0 0).ec - 1 = 0 ∧ ¬ ((loopAt 2 1 0 0).lc - 1 = 0) ∧
  ({ loopAt 2 1 0 0 with loop := some ⟨0x120, 2, none, none⟩ } : Regs).pc ≠ 0x120 + 16 * (2 - 1) := by decide
theorem witness_MarkParkExitTrap :
  ActsInBundle (at0 (withX [(10, 8), (9, 1)])) (withX [(10, 8), (9, 1)]) 0 ∧
  (at0 (withX [(10, 8), (9, 1)])).flushGate = .ok (at0 (withX [(10, 8), (9, 1)])) ∧ (withX [(10, 8), (9, 1)]).handler = none ∧ (9#6) ≠ 0 ∧
  ((withX [(10, 8), (9, 1)]).xr 10#6).toNat % 8 = 0 ∧ (at0 (withX [(10, 8), (9, 1)])).translate 0 0 8 false = some 8 :=
  ⟨witness_acts _, rfl, rfl, by decide, rfl, rfl⟩
/-- A strand in handler mode. -/
def handling (l : List (Nat × Word)) : Strand := { withX l with handler := some ⟨0x1000, 0x10⟩ }
theorem witness_handler : ActsInBundle (at0 (handling [])) (handling []) 0 ∧ (handling []).handler ≠ none := ⟨⟨⟨rfl, rfl, rfl⟩, rfl⟩, by decide⟩
/-- A nest in its body, section 1, at level 3. -/
def inNest (section_ : Nat) : Strand :=
  { withX [] with regs := { zeroRegs with spool := some ⟨2, 0x40, [⟨3, 4, 1, section_, 0, true⟩], false, none, zeroRegs.x, 0, []⟩ } }
theorem witness_SpoolBreakAndEret :
  badLevel [] 2 6 0 = none ∧ badLevel [(192 * 2 + 31, 0x80)] 2 6 0 = some 0 ∧ badLevel [] 2 6 5 = none := by decide
theorem witness_SpoolBreak :
  ActsInBundle (at0 (inNest 1)) (inNest 1) 0 ∧ (∃ sp, (inNest 1).regs.spool = some sp ∧ ∃ t ∈ sp.levels, t.level = (3#3).toNat ∧ t.section_ = 1) ∧
  (∃ sp, (inNest 2).regs.spool = some sp ∧ ∃ t ∈ sp.levels, t.level = (3#3).toNat ∧ t.section_ = 2) ∧
  (∀ sp, (inNest 0).regs.spool = some sp → ∀ t ∈ sp.levels, ¬ (t.level = (3#3).toNat ∧ (t.section_ = 1 ∨ t.section_ = 2))) ∧
  (∀ sp, (withX []).regs.spool = some sp → ∀ t ∈ sp.levels, ¬ (t.level = 3 ∧ (t.section_ = 1 ∨ t.section_ = 2))) := by
  refine ⟨⟨⟨rfl, rfl, rfl⟩, rfl⟩, ⟨_, rfl, _, List.mem_singleton_self _, rfl, rfl⟩, ⟨_, rfl, _, List.mem_singleton_self _, rfl, rfl⟩, ?_, ?_⟩
  · intro sp h t ht
    cases h
    simp only [List.mem_singleton] at ht
    subst ht
    simp
  · intro sp h
    cases h
theorem witness_SpillResults : Acts (at0 (withX [])) (withX []) 0 ∧ (7#6).toNat < 8 ∧ (8#6).toNat = 8 := ⟨(witness_acts _).toActs, by decide, by decide⟩
theorem witness_SpecialRegisters : Acts (at0 (withX [(5, -1)])) (withX [(5, -1)]) 0 := (witness_acts _).toActs
theorem witness_SystemControls :
  (bitsAt ((withX [(5, 0x100)]).xr 5#6) 0 8).toNat ≤ (withX []).pri ∧ (withX [(5, 1)]).pri < (bitsAt ((withX [(5, 1)]).xr 5#6) 0 8).toNat ∧
  (withX []).service = false ∧ (bitsAt ((withX [(5, 1)]).xr 5#6) 0 32).toNat ≠ 0 ∧ (bitsAt ((withX [(5, 0x100000000)]).xr 5#6) 0 32).toNat = 0 ∧
  ({ withX [] with service := true } : Strand).service = true := by decide

/-! ### Vectors, tiles, the beat and the finisher -/

/-- A strand whose V0 and V1 hold tag t, and V2 tag u; T0 holds tag t. -/
def tagged (t u : BitVec 4) : Strand :=
  withV [(0, vreg t [5, -1]), (1, vreg t [3]), (2, vreg u [])] [(1, 0xF)] [(0, ⟨t, Vector.replicate 8192 0⟩), (1, ⟨t, Vector.replicate 8192 0⟩)]
theorem witness_acts_tagged (t u : BitVec 4) : ActsInBundle (at0 (tagged t u)) (tagged t u) 0 := ⟨⟨rfl, rfl, rfl⟩, rfl⟩
theorem witness_VectorComparesAndMoves :
  integerTag ((tagged 3 0).vr 0#5).tag ∧ ((tagged 3 0).vr 1#5).tag = ((tagged 3 0).vr 0#5).tag ∧ (0#3).toNat % 2 = 0 ∧ (6#3).toNat % 2 = 0 ∧
  integerTag 1 ∧ integerTag 4 := by
  refine ⟨?_, rfl, rfl, rfl, ?_, ?_⟩ <;> first | decide | (unfold integerTag; decide) | (unfold rowed; decide) | (unfold blockTag; decide)
theorem witness_VectorLanesAndTheirTags :
  integerTag ((tagged 1 0).vr 0#5).tag ∧ ¬ integerTag ((tagged 1 0).vr 2#5).tag ∧ ((tagged 1 2).vr 2#5).tag ≠ ((tagged 1 2).vr 0#5).tag ∧
  integerTag ((tagged 4 5).vr 0#5).tag ∧ ¬ integerTag ((tagged 4 5).vr 2#5).tag := by
  refine ⟨?_, ?_, ?_, ?_, ?_⟩ <;> first | decide | (unfold integerTag; decide) | (unfold rowed; decide) | (unfold blockTag; decide)
/-- A strand at step 4 with one result due at step 5 and another at 6. -/
def due (r : Res) : Strand := { withX [] with clk := 4, pend := [⟨4 + 1, 0, r⟩, ⟨4 + 2 + 0, 1, .x 3 9⟩] }
theorem witness_ResultsLandAtTheirStep (r : Res) :
  (at0 (due r)).strandAt ⟨0, 0⟩ = some (due r) ∧ (due r).drains = [] ∧ (due r).adds = [] ∧ (due r).wait = .none ∧
  (due r).pend = [⟨(due r).clk + 1, 0, r⟩, ⟨(due r).clk + 2 + 0, 1, .x 3 9⟩] := ⟨rfl, rfl, rfl, rfl, rfl⟩
theorem witness_DescriptorsAndTiles :
  rowed 1 ∧ rowed 6 ∧ blockTag 8 ∧ blockTag 10 ∧ rowed ((tagged 2 0).vr 0#5).tag ∧ rowed ((tagged 2 0).tr 0#3).tag ∧ ((tagged 5 0).tr 0#3).tag = 5 := by
  refine ⟨?_, ?_, ?_, ?_, ?_, ?_, ?_⟩ <;> first | decide | (unfold integerTag; decide) | (unfold rowed; decide) | (unfold blockTag; decide)
theorem witness_PackedRowsAndPermutedLanes :
  rowed ((tagged 6 3).tr 0#3).tag ∧ ((tagged 6 0).vr 2#5).tag = 0 ∧ ((tagged 6 3).vr 2#5).tag = 3 ∧ ((tagged 6 4).vr 2#5).tag = 4 ∧
  ((tagged 6 0).vr 2#5).tag ≠ 3 ∧ ((tagged 6 0).vr 2#5).tag ≠ 4 := by
  refine ⟨?_, ?_, ?_, ?_, ?_, ?_⟩ <;> first | decide | (unfold integerTag; decide) | (unfold rowed; decide) | (unfold blockTag; decide)
theorem witness_TransposedAndConvertedElements :
  rowed ((tagged 1 0).tr 0#3).tag ∧ blockTag ((tagged 9 0).tr 0#3).tag ∧ (0#3) ≠ 5 ∧ (6#3) ≠ 7 ∧ (5#4) ≠ ((tagged 1 0).tr 0#3).tag ∧
  1 ≤ ((tagged 1 0).vr 0#5).tag.toNat ∧ ((tagged 7 0).vr 0#5).tag.toNat ≤ 7 := by
  refine ⟨?_, ?_, ?_, ?_, ?_, ?_, ?_⟩ <;> first | decide | (unfold integerTag; decide) | (unfold rowed; decide) | (unfold blockTag; decide)
/-- Words drawn under SR in LIVE mode, four for the lanes that K1 enables and 4096 for a tile. -/
theorem witness_NoiseDrawn (n : Nat) (h : n ≠ 0) : ∃ ws u, (at0 (tagged 7 0)).drawNoise n = .ok (ws, u) ∧ ∃ v, u.strand = some v := by
  simp only [State.drawNoise, show (at0 (tagged 7 0)).strand = some (tagged 7 0) from rfl, if_neg h, show (tagged 7 0).noise.mode ≠ 2 from by decide,
    if_false, show (at0 (tagged 7 0)).noiseOff (fieldOf (at0 (tagged 7 0)).cur.tile) = false from rfl, Bool.false_eq_true]
  exact ⟨_, _, rfl, _, State.strand_setStrand _ _⟩

/-- ONEHOT and DIAG descriptors on V0, and the strand of a push: T0, T1 tagged t, the latch l, bank A0 tagged w. -/
def oneHot : Word := 0x20408
def pushing (t w : BitVec 4) (l : StatLatch) : Strand :=
  { tagged t 3 with
    slatch := l
    g := zeroStrand.g.setIfInBounds 0 oneHot
    glatch := some ⟨t, List.replicate 64 none⟩
    aw := zeroStrand.aw.setIfInBounds 0 ⟨w, Vector.replicate 4096 0⟩ }
def tile (t : BitVec 4) : TReg := ⟨t, Vector.replicate 8192 0⟩
theorem witness_acts_pushing (t w : BitVec 4) (l : StatLatch) :
  ActsInBundle (at0 (pushing t w l)) (pushing t w l) 0 ∧ Marks (at0 (pushing t w l)) (at0 (pushing t w l)) (pushing t w l) ∧
  (pushing t w l).regs.rep = none := ⟨⟨⟨rfl, rfl, rfl⟩, rfl⟩, ⟨rfl, rfl⟩, rfl⟩
theorem witness_LatchAndBankSetup :
  patternOk oneHot = true ∧ boundTagOk oneHot 3 none = true ∧ patBound oneHot = true ∧ ((pushing 1 7 .empty).work 0#2).tag = 7 ∧
  ((pushing 1 3 .empty).work 0#2).tag = 3 ∧ ((tagged 1 0).tr 0#3).tag = 1 ∧ ¬ (((tagged 5 0).tr 0#3).tag = 1 ∨ ((tagged 5 0).tr 0#3).tag = 2) := by
  decide
/-- A seat waiting to swap A1, with nothing on it, and with a result on its bank in flight, and with a drain of it. -/
def swapping (p : List Pending) : Strand := { withX [] with swap := some 1, pend := p }
theorem witness_Swap :
  (swapping []).swap = some (1#2).toNat ∧ (∀ p ∈ (swapping []).pend, onBank 1 p.res = false) ∧ (∀ d ∈ (swapping []).drains, d.acc ≠ 1) ∧
  (∃ p ∈ (swapping [⟨9, 0, .mzero 1 7⟩]).pend, onBank 1 p.res = true) :=
  ⟨rfl, by simp [swapping], by simp [swapping, withX, zeroStrand], _, List.mem_singleton_self _, rfl⟩
theorem witness_PushesIssueBeats :
  (pushing 1 3 (.tile (tile 1) 1)).slatch = .tile (tile 1) 1 ∧ multiplies ((pushing 1 3 .empty).tr 0#3).tag ∧ multiplies (tile 8).tag ∧
  blockTag ((pushing 9 7 .empty).tr 0#3).tag ∧ ((pushing 1 3 .empty).work 0#2).tag = 3 ∧ ((pushing 8 7 .empty).work 0#2).tag = 7 ∧
  (60#6).toNat % beatRowsOf 8 = 0 ∧ (62#6).toNat % beatRowsOf 9 = 0 ∧ (63#6).toNat % beatRowsOf 5 = 0 ∧
  (∃ G V k tr, (pushing 5 7 (.gen oneHot (vreg 3 []) 0 false)).slatch = .gen G V k tr ∧ boundTagOk G V.tag (some 5) = true) ∧
  (∃ l, (pushing 1 3 .empty).glatch = some l ∧ l.tag = 1) ∧ ¬ (0 < (pushing 1 3 .empty).regs.rep.getD 0) ∧
  patternOk ((pushing 1 3 .empty).gr 0#3) = true := by
  refine ⟨rfl, ?_, ?_, ?_, rfl, rfl, rfl, rfl, rfl, ⟨_, _, _, _, rfl, rfl⟩, ⟨_, rfl, rfl⟩, by decide, rfl⟩ <;>
    first | (unfold multiplies; decide) | (unfold multiplies blockTag; decide) | (unfold blockTag; decide)
theorem witness_PushTraps :
  (pushing 1 3 .empty).slatch = .empty ∧ (pushing 1 3 (.tile (tile 1) 1)).slatch ≠ .empty ∧ { pushing 1 3 .empty with glatch := none }.glatch = none ∧
  ¬ multiplies ((pushing 2 3 .empty).tr 0#3).tag ∧ ¬ (((pushing 1 3 .empty).tr 0#3).tag = (tile 5).tag) ∧ ¬ blockTag ((pushing 1 3 .empty).tr 0#3).tag ∧
  ((pushing 1 7 .empty).work 0#2).tag ≠ 3 ∧ patternOk 11 = false ∧ ¬ multiplies (tile 2).tag := by
  refine ⟨rfl, ?_, rfl, ?_, ?_, ?_, ?_, rfl, ?_⟩ <;>
    first | decide | (unfold multiplies blockTag; decide) | (unfold blockTag; decide) | (intro h; cases h)
theorem witness_IntegerBeat :
  ((pushing 1 3 (.tile (tile 1) 1)).tr 0#3).tag = 1 ∧ (tile 1).tag = 1 ∧ (pushing 1 3 (.tile (tile 1) 1)).slatch = .tile (tile 1) 1 ∧
  ((pushing 1 3 (.tile (tile 1) 1)).work 0#2).tag = 3 ∧ (pushing 1 3 (.tile (tile 1) 1)).regs.rep = none := ⟨rfl, rfl, rfl, rfl, rfl⟩

/-- A dense FP16 tensor of 128 × 128 at 0x2000 on the issuing tile, and variants of it. -/
def dense (kind fmt : Nat) : Entry :=
  #v[0x2000, BitVec.ofNat 64 (128 + 128 * 2 ^ 32), 0, 0, 0, 0, BitVec.ofNat 64 (kind + fmt * 2 ^ 6 + 2 * 2 ^ 10), 0]
def tensor (kind fmt : Nat) (st : Strand) : State := withTable [(1, dense kind fmt)] (at0 st)
theorem witness_FinisherSetupAndLanes :
  (tensor 0 5 (withX [])).entryOf 1 1 = some (dense 0 5) ∧ 1 ≤ (dense 0 5).rank ∧ (dense 0 5).rank ≤ 4 ∧ (62#6).toNat + (dense 0 5).rank ≤ 64 ∧
  ((withX [(5, 0xDF)]).xr 5#6).toNat.testBit 5 = false ∧ ((withX [(5, 32)]).xr 5#6).toNat.testBit 5 = true ∧
  ((withX [(5, 64)]).xr 5#6).toNat % 64 = 0 ∧ ((withX [(5, 63)]).xr 5#6).toNat % 64 ≠ 0 ∧ (4#3).toNat < 5 ∧
  (at0 (withX [])).inBundle = true ∧ (at0 (withX [])).entryOf 1 1 = none := by decide
theorem witness_FinisherLanes :
  ((tagged 7 0).vr 0#5).tag = 7 ∧ ((tagged 7 0).vr 1#5).tag = 7 ∧ (13#5).toNat < 14 ∧ ((tagged 7 0).vr 2#5).tag ≠ 7 ∧ 16 ≤ (16#5).toNat := by decide
/-- A strand whose visible bank A0 is tagged t, with FCFG0 and FCFG4. -/
def draining (t : BitVec 4) (c0 c4 : Word) : Strand :=
  { tagged 7 0 with
    av := zeroStrand.av.setIfInBounds 0 ⟨t, Vector.replicate 4096 0⟩
    regs := { (tagged 7 0).regs with fcfg := (zeroRegs.fcfg.setIfInBounds 0 c0).setIfInBounds 4 c4 } }
theorem witness_DrainStarts :
  ActsInBundle (at0 (draining 7 0 0)) (draining 7 0 0) 0 ∧ ((draining 7 0 0).av[(0#2).toNat]?.getD zeroBank).tag = 7 ∧
  ((draining 3 0 0).av[(0#2).toNat]?.getD zeroBank).tag = 3 ∧ ((draining 0 0 0).av[(0#2).toNat]?.getD zeroBank).tag ≠ 7 ∧
  ((draining 0 0 0).av[(0#2).toNat]?.getD zeroBank).tag ≠ 3 := ⟨⟨⟨rfl, rfl, rfl⟩, rfl⟩, rfl, rfl, by decide, by decide⟩
/-- Its configuration: stage 2 on with a bias from V0 and V1, to a T register in FP16. -/
theorem witness_DrainStages :
  let st := draining 7 (BitVec.ofNat 64 (2 ^ 55 + 2 ^ 53 + 5 * 2 ^ 42 + 2 ^ 36)) (BitVec.ofNat 64 (2 ^ 48))
  let C : Nat → Nat → Nat → Nat := fun w lo len => (st.regs.fcfg[w]?.getD 0).toNat / 2 ^ lo % 2 ^ len
  C 0 52 1 = 0 ∧ C 0 55 1 = 1 ∧ C 0 53 1 = 1 ∧ (st.regs.v[C 4 53 5]?.getD zeroV).tag = 7 ∧ (st.regs.v[C 4 48 5]?.getD zeroV).tag = 7 ∧
  C 0 46 3 ≠ 6 ∧ C 0 36 2 = 1 ∧ C 0 49 1 = 0 ∧ C 0 42 4 = 5 := by decide
theorem witness_DrainAccepted :
  ∃ d v, (at0 (draining 7 0 0)).startDrain (draining 7 0 0) 0 0 64 = .ok d ∧
    (at0 (draining 7 0 0)).drainWords (draining 7 0 0) (draining 7 0 0).regs.fcfg 0 64 d.destRow d.destCol = 0 ∧
    (at0 (draining 7 0 0)).strand = some v := ⟨_, _, rfl, rfl, rfl⟩
/-- A drain to a local tensor in FP16 under SR: its mark and its words. -/
def drainingTensor : Strand := draining 7 (BitVec.ofNat 64 (2 ^ 46 * 6 + 5 * 2 ^ 42 + 2 * 2 ^ 36 + 1 * 2 ^ 30)) 0
theorem witness_DrainToTensor :
  ∃ d, (tensor 0 5 drainingTensor).startDrain drainingTensor 0 0 8 = .ok d ∧
    (tensor 0 5 drainingTensor).mark = .ok ((tensor 0 5 drainingTensor).setStrand { drainingTensor with marked := true }) ∧
    (tensor 0 5 drainingTensor).drainWords drainingTensor drainingTensor.regs.fcfg 0 8 d.destRow d.destCol ≠ 0 :=
  ⟨_, rfl, rfl, by decide +kernel⟩

/-! ### Local accesses -/

theorem witness_acts_tensor (kind fmt : Nat) (st : Strand) (h : st = withX [] ∨ st = tagged 5 0) : ActsInBundle (tensor kind fmt st) st 0 := by
  rcases h with rfl | rfl <;> exact ⟨⟨rfl, rfl, rfl⟩, rfl⟩
theorem witness_VectorTileAndStampedLoads :
  (tensor 0 5 (withX [])).poison = [] ∧
  (∃ pl, (tensor 0 5 (withX [])).locate (withX []) 1 12 (rowOffset none) false true false false admitVectorLoad = .ok pl ∧
    (readsIn (tensor 0 5 (withX [])) (withX []) pl [(0, 0), (0, 63)]).poison = []) ∧
  (∃ pl, (tensor 0 5 (withX [])).locate (withX []) 1 12 (rowOffset none) true false false false admitVectorLoad = .ok pl ∧
    (readsIn (tensor 0 5 (withX [])) (withX []) pl [(0, 0), (63, 0)]).poison = []) ∧
  (∃ pl, (tensor 0 5 (withX [])).locate (withX []) 1 12 (rowOffset none) true true false false admitTileLoad = .ok pl ∧
    pl.e.kind ≠ 1 ∧ isSq pl.e.fmt = false) ∧
  (∃ pl, (tensor 0 8 (withX [])).locate (withX []) 1 12 (rowOffset none) true true false false admitTileLoad = .ok pl ∧
    pl.e.kind = 0 ∧ isSq pl.e.fmt = true ∧
    (((tensor 0 8 (withX [])).touch 0 pl).settleWords (withX []) [(pl.frame, 8)]).poison = []) ∧
  (∃ pl, (tensor 2 0 (withX [])).locate (withX []) 1 12 (rowOffset none) false false false false admitStamped = .ok pl ∧
    (readsIn (tensor 2 0 (withX [])) (withX []) pl [(0, 0)]).poison = []) ∧
  (∃ pl, (tensor 2 0 (withX [])).locate (withX []) 1 12 (rowOffset none) false true false false admitStamped = .ok pl) :=
  ⟨rfl, ⟨_, rfl, rfl⟩, ⟨_, rfl, rfl⟩, ⟨_, rfl, by decide, rfl⟩, ⟨_, rfl, rfl, rfl, rfl⟩, ⟨_, rfl, rfl⟩, ⟨_, rfl⟩⟩
/-- An add of the strand on its way to an element that it reads: the load reads what it leaves. -/
theorem witness_ReadsAfterOwnOperation :
  let s := { tensor 0 0 (withX []) with flight := [⟨1, ⟨0, 0⟩, 0, 1, 0, 4, false, 0x2000, 0x2000, 5, 0, 0⟩] }
  (∀ o ∈ s.flight, o.of (withX []) = true) ∧ (settled s (withX []) false 0x2000 8).poison = [] ∧
  (settled s (withX []) false 0x2000 8).natAt 0x2000 8 = 5 ∧ (settled s (withX []) false 0x2008 8).natAt 0x2000 8 = 0 ∧
  (settled s (withX []) true 0x2008 8).natAt 0x2000 8 = 5 := by decide
theorem witness_ScalarLoads :
  (∃ pl, (tensor 0 5 (withX [(12, 127), (13, 127)])).locate (withX [(12, 127), (13, 127)]) 1 12 (rowOffset none) false false false false
    (admitScalarLoad 2) = .ok pl ∧ pl.e.kind ≠ 3) ∧
  (∃ pl, (tensor 0 1 (withX [])).locate (withX []) 1 12 (rowOffset (some 0x08)) false false false false (admitScalarLoad 1) = .ok pl ∧ pl.e.kind ≠ 3) ∧
  (∃ pl, (tensor 0 7 (withX [])).locate (withX []) 1 12 (rowOffset none) false false false true (admitScalarLoad 4) = .ok pl ∧ pl.e.kind ≠ 3) ∧
  (∃ pl, (tensor 0 0 (withX [])).locate (withX []) 1 12 (rowOffset none) false false false false (admitScalarLoad 8) = .ok pl ∧
    (tensor 0 0 (withX [])).elemAddr 0 0 pl 0 0 = some 0x2000) ∧
  poisonMet [] { tensor 0 0 (withX []) with poison := [0x400] } [(0x2000, 8)] = some 0x400 :=
  ⟨⟨_, rfl, by decide⟩, ⟨_, rfl, by decide⟩, ⟨_, rfl, by decide⟩, ⟨_, rfl, rfl⟩, rfl⟩
/-- Elements of the RAW tensor: the last of it, the first one outside, and another owner's. -/
theorem witness_ElementAddresses :
  (tensor 0 0 (withX [])).entryOf 1 1 = some (dense 0 0) ∧ (dense 0 0).kind = 0 ∧ (dense 0 0).fmt = 0 ∧ (dense 0 0).rank = 2 ∧
  (dense 0 0).pageable = false ∧ (dense 0 0).map = 0 ∧ (12#6).toNat < 63 ∧ (1#6) ≠ 0 ∧
  ((withX [(12, 127), (13, 127)]).xr 12#6).toNat < (dense 0 0).ext 0 ∧ ((withX [(12, 127), (13, 127)]).xr 13#6).toNat < (dense 0 0).ext 1 ∧
  ¬ (((withX [(12, 128)]).xr 12#6).toNat < (dense 0 0).ext 0) := by decide
theorem witness_OtherOwner :
  Entry.map #v[0x2000, 0, 0, BitVec.ofNat 64 (2 ^ 62 + 3), 0, 0, 0, 0] = 1 ∧
  Entry.home #v[0x2000, 0, 0, BitVec.ofNat 64 (2 ^ 62 + 3), 0, 0, 0, 0] % 512 ≠ (at0 (withX [])).cur.tile := by decide
theorem witness_StoresEnterTheGate :
  (∃ pl, (tensor 0 5 (tagged 5 0)).locate (tagged 5 0) 1 12 (rowOffset none) false false true false (admitScalarStore 2) = .ok pl ∧ pl.e.kind ≠ 3) ∧
  (∃ pl, (tensor 0 5 (tagged 5 0)).locate (tagged 5 0) 1 12 (rowOffset none) false true true false (admitVectorStore ((tagged 5 0).vr 0#5).tag) = .ok pl) ∧
  (∃ pl, (tensor 0 5 (tagged 5 0)).locate (tagged 5 0) 1 12 (rowOffset none) true false true false (admitVectorStore ((tagged 5 0).vr 0#5).tag) = .ok pl) ∧
  (∃ pl, (tensor 0 5 (tagged 5 0)).locate (tagged 5 0) 1 12 (rowOffset none) true true true false (admitTileStore ((tagged 5 0).tr 0#3).tag) = .ok pl ∧
    isSq pl.e.fmt = false) ∧
  ((tagged 5 0).gate.map (·.entries)).sum + 16 ≤ 64 ∧
  64 < (({ withX [] with gate := [⟨1, 0, [], [], 64, 0⟩] } : Strand).gate.map (·.entries)).sum + 1 :=
  ⟨⟨_, rfl, by decide⟩, ⟨_, rfl⟩, ⟨_, rfl⟩, ⟨_, rfl, rfl⟩, by decide, by decide⟩
/-- A member of the team whose record is the tensor's first element: storing to it meets a counter. -/
def member : Strand := { withX [] with team := 0x80 }
theorem witness_StoreMeetsCounter :
  (∃ pl, (tensor 0 5 member).locate member 1 12 (rowOffset none) false false true false (admitScalarStore 2) = .ok pl ∧ pl.e.pageable = false) ∧
  (tensor 0 5 member).meetsCounter 0 (bytesAt 0x2000 2 7) = true ∧ (tensor 0 5 member).meetsCounter 0 (bytesAt 0x2008 2 7) = false :=
  ⟨⟨_, rfl, rfl⟩, by decide, by decide⟩
/-- A gated store of one byte performed by a mark. -/
def gated : Strand := { withX [] with gate := [⟨1, 0, [(0x2000, 7)], [], 1, 0⟩] }
theorem witness_MarkPerformsGatedStores :
  (tensor 0 1 gated).strand = some gated ∧ (∃ u, (tensor 0 1 gated).flushGate = .ok u ∧ memRead u.mem 0x2000 = 7) ∧
  (∀ o ∈ (tensor 0 1 gated).flight, o.of gated = false) ∧
  (∀ g ∈ gated.gate, ∀ e, (tensor 0 1 gated).entryOf gated.launch g.handle = some e → e.pageable = false) := by
  refine ⟨rfl, ⟨_, rfl, rfl⟩, (fun o h => nomatch h), ?_⟩
  intro g hg e he
  simp only [gated, List.mem_singleton] at hg
  subst hg
  cases he
  rfl
theorem witness_LocalAccessTraps :
  (tensor 0 0 (withX [])).entryOf 1 2 = none ∧ 63 < (63#6).toNat + (dense 0 0).rank - 1 ∧ (62#6).toNat + (dense 0 0).rank - 1 ≤ 63 ∧
  (tensor 5 0 (withX [])).entryOf 1 1 = some (dense 5 0) ∧ (dense 5 0).kind = 5 ∧ (dense 4 0).kind = 4 ∧ (dense 0 0).kind = 0 ∧
  Entry.ronly #v[0, 0, 0, 0, 0, 0, 0x4800, 0] = true := by decide


/-! ### Engine commands -/

/-- A strand with the Z registers given. -/
def withZ (l : List (Nat × Word)) (x : List (Nat × Word)) : Strand :=
  { withX x with z := l.foldl (fun z p => z.setIfInBounds p.1 p.2) zeroStrand.z }
theorem witness_EngineCommandsIssue (l x : List (Nat × Word)) :
  ActsInBundle (at0 (withZ l x)) (withZ l x) 0 ∧ Marks (at0 (withZ l x)) (at0 (withZ l x)) (withZ l x) ∧
  (∀ d ∈ (((at0 (withZ l x)).setStrand { withZ l x with marked := true }).settleSlice { withZ l x with marked := true } 0).cmds,
    d.phase ≠ 1 ∧ d.id < (at0 (withZ l x)).nextId) :=
  ⟨⟨⟨rfl, rfl, rfl⟩, rfl⟩, ⟨rfl, rfl⟩, fun d h => nomatch h⟩
/-- A copy of 6 words of 4 bytes, strided; its mask for COPYM; the expanding form for CEXP. -/
def zCopy : List (Nat × Word) := [(0, 0x101C), (1, 0x2000), (2, 0x0000000300000002), (3, 0x0000000500000000), (4, 2), (5, 0x0000000100000003)]
def zCopym : List (Nat × Word) := [(0, 0x1000), (1, 0x2000), (2, 0x0000000300000002), (4, 0x00110002)]
def zCexp : List (Nat × Word) := [(0, 0x1000), (1, 0x2000), (2, 0x0000000100000002), (3, 4), (4, 0xA0)]
theorem witness_CopyWindows :
  copyWindow (withZ zCopy []) ∧ zBits (withZ zCopy []) 4 16 16 = 0 ∧ zBits (withZ zCopy []) 4 4 4 = 0 ∧
  copyWindow (withZ zCopym []) ∧ zBits (withZ zCopym []) 1 0 64 < 0xC0000000 ∧ zBits (withZ zCopym []) 4 4 4 = 0 ∧
  copymMaskOk (captured (at0 (withZ zCopym [])) (withZ zCopym []) 1 0 0 0 0 0 0 0) = true := by
  unfold copyWindow
  decide
theorem witness_ExpandWindow :
  copyWindow (withZ zCexp []) ∧ zBits (withZ zCexp []) 3 0 32 ≠ 0 ∧ zBits (withZ zCexp []) 4 16 16 = 0 ∧ zBits (withZ zCexp []) 2 32 32 = 1 ∧
  zBits (withZ zCexp []) 4 2 1 = 0 ∧ zBits (withZ zCexp []) 4 0 2 = 0 ∧ zBits (withZ zCexp []) 4 4 4 = 10 := by
  unfold copyWindow
  decide
/-- POOL's four tensors: a table in FP16 over eight owners, indices, a destination in FP32 and ends. -/
def pooled (fmt rank home : Nat) : Entry :=
  #v[0x2000, BitVec.ofNat 64 (128 + 128 * 2 ^ 32), 0, BitVec.ofNat 64 home, 0, 0, BitVec.ofNat 64 (fmt * 2 ^ 6 + rank * 2 ^ 10), 0]
def zPool : List (Nat × Word) := [(8, BitVec.ofNat 64 (1 + 2 * 2 ^ 6 + 3 * 2 ^ 12 + 4 * 2 ^ 18 + 4 * 2 ^ 32)), (9, BitVec.ofNat 64 (2 ^ 32)), (10, 0)]
def poolState : State :=
  withTable [(1, pooled 5 2 (2 * 2 ^ 62 + 8 + 3 * 2 ^ 9 + 1 * 2 ^ 13)), (2, pooled 4 1 0), (3, pooled 7 2 0), (4, pooled 4 1 0)] (at0 (withZ zPool []))
theorem witness_PoolWindow :
  poolCheck poolState (withZ zPool []) (captured poolState (withZ zPool []) 4 0 0 0 0 0 0 0) = none ∧
  poolState.bindTrap 1 noCounter (poolDests poolState (captured poolState (withZ zPool []) 4 0 0 0 0 0 0 0)) = none := by decide
/-- The windows of the sequence commands, of BALLAST and of the fabric's. -/
def zSeq : List (Nat × Word) := [(16, 0x4000), (17, BitVec.ofNat 64 (1 * 2 ^ 32)), (21, 0x8000)]
def zBallast : List (Nat × Word) := [(16, 0x4000), (17, 0), (20, 256), (21, 0x8000), (22, BitVec.ofNat 64 (2 * 2 ^ 32))]
def zFabric (tag : Word) : List (Nat × Word) := [(24, 0x4000), (25, 0x8000), (26, BitVec.ofNat 64 (64 * 2 ^ 32)), (28, tag)]
theorem witness_SequenceWindows :
  zBits (withZ [(17, 5)] []) 18 32 32 = 0 ∧ zClear (withZ [(17, 5)] []) [19, 20, 21, 22, 23] ∧ zClear (withZ [(17, 5)] []) [18, 19, 20, 21, 22, 23] ∧
  1 ≤ zBits (withZ zSeq []) 17 32 32 ∧ zBits (withZ [(17, BitVec.ofNat 64 (65536 * 2 ^ 32))] []) 17 32 32 ≤ 65536 ∧
  zClear (withZ zSeq []) [18, 19, 20, 22, 23] ∧ zBits (withZ zSeq []) 17 42 21 = 0 ∧ 1 ≤ zBits (withZ zSeq []) 17 32 10 ∧
  zBits (withZ [(17, BitVec.ofNat 64 (512 * 2 ^ 32))] []) 17 32 10 ≤ 512 ∧ ¬ (1 ≤ zBits (withZ [] []) 17 32 10) := by
  unfold zClear
  decide
theorem witness_BallastWindow :
  zBits (withZ zBallast []) 17 32 32 = 0 ∧ zBits (withZ zBallast []) 18 32 32 = 0 ∧ zBits (withZ zBallast []) 19 32 32 = 0 ∧
  zBits (withZ zBallast []) 20 9 55 = 0 ∧ zBits (withZ zBallast []) 20 0 9 ≤ 256 := by decide
theorem witness_FabricWindows :
  fabricWindowOk (withZ (zFabric 0) []) [0] ∧ fabricWindowOk (withZ (zFabric 7) []) [7, 3] ∧ fabricWindowOk (withZ (zFabric 3) []) [7, 3] := by
  unfold fabricWindowOk zClear
  decide
/-- A pageable tensor whose tile 0 tile 0 owns, and the windows of OFFLOAD and RECALL. -/
def pageableEntry : Entry := #v[0x2000, BitVec.ofNat 64 (64 + 64 * 2 ^ 32), 0, 0, 0, 0, BitVec.ofNat 64 (5 * 2 ^ 6 + 2 * 2 ^ 10 + 2 ^ 13), 0]
def pageState (l : List (Nat × Word)) : State := withTable [(1, pageableEntry)] (at0 (withZ l []))
theorem witness_PagingWindows :
  pageableEntry.pageable = true ∧ (pageState [(1, 0x40000000)]).entryOf 1 (1#6).toNat = some pageableEntry ∧
  pageCheck false (pageState [(1, 0x40000000)]) (withZ [(1, 0x40000000)] [])
    (captured (pageState [(1, 0x40000000)]) (withZ [(1, 0x40000000)] []) 14 0 0 0 0 0 0 (1#6).toNat) = none ∧
  pageCheck true (pageState [(1, 0x10000)]) (withZ [(1, 0x10000)] [])
    (captured (pageState [(1, 0x10000)]) (withZ [(1, 0x10000)] []) 15 0 0 0 0 0 0 (1#6).toNat) = none := by decide
/-- The bind check: no bound range, and a range bound to another counter (R62). -/
theorem witness_BindTrap :
  (at0 (withZ zCopy [])).bindTrap 1 noCounter (copyRegions (captured (at0 (withZ zCopy [])) (withZ zCopy []) 0 0 0 0 0 0 0 0)) = none ∧
  (captured (at0 (withZ zCopy [])) (withZ zCopy []) 0 0 0 0 0 0 0 0).arm = none ∧
  (captured (at0 (withZ zCopy [])) (withZ zCopy []) 0 0 0 0 0 0 1 0).arm ≠ none := by decide
theorem witness_MisalignedWindows :
  zBits (withZ [(0, 2), (4, 2)] []) 0 0 64 % 2 ^ zBits (withZ [(0, 2), (4, 2)] []) 4 0 2 ≠ 0 ∧
  zBits (withZ [(0, 4), (1, 6), (4, 2)] []) 0 0 64 % 2 ^ zBits (withZ [(0, 4), (1, 6), (4, 2)] []) 4 0 2 = 0 ∧
  zBits (withZ [(0, 4), (1, 6), (4, 2)] []) 1 0 64 % 2 ^ zBits (withZ [(0, 4), (1, 6), (4, 2)] []) 4 0 2 ≠ 0 ∧
  0xC0000000 ≤ zBits (withZ [(1, 0xC0000000)] []) 1 0 64 := by decide

/-- A strand that gathers lanes 0 and 1 of V0 from tensor 1 under K1, and one whose V0 has another tag. -/
def gathering (t : BitVec 4) : Strand :=
  { withV [(0, vreg t [3, 127])] [(1, 3)] [] with z := zeroStrand.z.setIfInBounds 8 (BitVec.ofNat 64 (1 + 1 * 2 ^ 16)) }
theorem witness_Gather :
  ActsInBundle (tensor 0 5 (gathering 4)) (gathering 4) 0 ∧ Marks (tensor 0 5 (gathering 4)) (tensor 0 5 (gathering 4)) (gathering 4) ∧
  zBits (gathering 4) 8 0 6 = 1 ∧ zBits (gathering 4) 8 19 13 = 0 ∧ zBits (gathering 4) 8 6 10 = 0 ∧ zBits (gathering 4) 8 32 6 = 0 ∧
  ((gathering 4).vr 0#5).tag = 4 ∧ ((gathering 3).vr 0#5).tag ≠ 4 ∧ (tensor 0 5 (gathering 4)).poison = [] ∧
  (tensor 0 5 (gathering 4)).entryOf 1 1 = some (dense 0 5) ∧ (dense 0 5).kind = 0 ∧ (dense 0 5).fmt = 5 ∧ (dense 0 5).rank = 2 ∧
  zBits (gathering 4) 9 0 32 = 0 :=
  ⟨⟨⟨rfl, rfl, rfl⟩, rfl⟩, ⟨rfl, rfl⟩, by decide, by decide, by decide, by decide, rfl, by decide, rfl, rfl, rfl, rfl, rfl, rfl⟩
theorem witness_GatherRows :
  ∃ rows, ((tensor 0 5 (gathering 4)).setStrand { gathering 4 with marked := true }).gatherRows { gathering 4 with marked := true } (dense 0 5) 1
    ((gathering 4).vr 0#5) ((gathering 4).kr 1#3) (List.range 64) = .ok rows := ⟨_, rfl⟩
/-- A launch of one strand of the image at 0. -/
def launching : Strand :=
  withZ [(16, 0), (17, BitVec.ofNat 64 (1 + 2 ^ 32)), (18, BitVec.ofNat 64 (1 + 2 ^ 32)), (22, 0)] []
theorem witness_Launch :
  ActsInBundle (at0 launching) launching 0 ∧ Marks (at0 launching) (at0 launching) launching ∧ zBits launching 22 0 64 = 0 ∧
  ((at0 launching).launches.filter fun l => l.phase == .pending && l.field == 0).length < 4096 ∧
  ((List.replicate 4096 { launch1 with phase := .pending }).filter fun l => l.phase == .pending && l.field == 0).length = 4096 :=
  ⟨⟨⟨rfl, rfl, rfl⟩, rfl⟩, ⟨rfl, rfl⟩, by decide, by decide, by
    rw [List.filter_eq_self.mpr (fun l h => by rw [List.eq_of_mem_replicate h]; rfl), List.length_replicate]⟩

/-! ### Counters, atomics, sequences, teams, fences -/

/-- A seat with cells of memory, a launch table and open reservations; X10 is 0x2000, the address of an SY slot's word. -/
def atWord (cells : List (Nat × Nat)) (t : Assoc Entry) (ws : List Reservation) (x : List (Nat × Word)) : State :=
  withTable t { at0 (withX x) with mem := cells.foldl (fun m c => memWrites m c.1 (leBytes 8 c.2)) [], windows := ws }
/-- What an SY slot's mark leaves there. -/
def atWordMarked (cells : List (Nat × Nat)) (t : Assoc Entry) (ws : List Reservation) (x : List (Nat × Word)) : State :=
  ((atWord cells t ws x).setStrand { withX x with marked := true }).fillXlat 0 0 0x2000
theorem witness_AtHome (cells : List (Nat × Nat)) (t : Assoc Entry) (ws : List Reservation) (x : List (Nat × Word)) (w : Bool) :
  AtHome (atWord cells t ws x) (withX x) 0 0x2000 w (atWordMarked cells t ws x) { withX x with marked := true } 0x2000 :=
  { seat := rfl, guard := rfl, quiet := rfl, bundle := rfl, aligned := rfl,
    marks := ⟨atWord cells t ws x, withX x, ⟨rfl, rfl⟩, rfl, rfl, rfl, rfl⟩ }
theorem witness_CounterOperations :
  ((withX [(10, 0x2000)]).xr 10#6).toNat = 0x2000 ∧ acquiring 1 ∧ ¬ acquiring 2 ∧
  (atWordMarked [(0x2000, 2 ^ 64 - 2)] [] [] []).natAt 0x2000 8 + ((withX [(9, 1)]).xr 9#6).toNat < 2 ^ 64 ∧
  2 ^ 64 ≤ (atWordMarked [(0x2000, 2 ^ 64 - 1)] [] [] []).natAt 0x2000 8 + ((withX [(9, 1)]).xr 9#6).toNat ∧
  (atWordMarked [(0x2000, 4)] [] [] []).natAt 0x2000 8 < ((withX [(9, 5)]).xr 9#6).toNat ∧
  ((withX [(9, 4)]).xr 9#6).toNat ≤ (atWordMarked [(0x2000, 4)] [] [] []).natAt 0x2000 8 ∧
  ((withX [(10, 0x2004)]).xr 10#6).toNat % 8 ≠ 0 := by
  unfold acquiring
  decide
/-- R144: an add that acquires leaves the counter at its largest value and raises overflow after the bundle. -/
theorem test_counter_overflow :
  trapOf (.cadd 0 1 0 10 9) (atWord [(0x2000, 2 ^ 64 - 1)] [] [] [(10, 0x2000), (9, 1)]) = some (0x0B, 0, 0) ∧
  trapOf (.cwait 0 0 0 10 9) (atWord [] [] [] [(10, 0x2004)]) = some (0x05, 0xFFFF, 0) := by decide
theorem witness_DataAtomics :
  atomicCheck (atWordMarked [] [] [] []) { withX [] with marked := true } 0x2000 0x2000 = none ∧
  stampedCheck (atWordMarked [] [(1, dense 2 0)] [] []) { withX [] with marked := true } 0x2000 0x2000 = none ∧
  stampedCheck (atWordMarked [] [] [] []) { withX [] with marked := true } 0x2000 0x2000 ≠ none ∧
  ((atWordMarked [] [(1, dense 4 0)] [] []).wordHandle 1 0x2000 fun _ e => e.kind == 4).isSome = true := by decide
/-- A sequence of 256 slots at 0x2000, empty, its page table at 0x3000 and its frame at 0x5000; and a header whose CAP is 1. -/
def seqCells : List (Nat × Nat) := [(0x2018, 0x3000), (0x2030, 256 * 2 ^ 32), (0x3000, 0x5001)]
theorem witness_SequenceOperations :
  ((atWordMarked seqCells [] [] []).seqHeader 0x2000).valid = true ∧ ((atWordMarked seqCells [] [] []).seqHeader 0x2000).cap = 256 ∧
  ((atWordMarked seqCells [] [] []).seqHeader 0x2000).cap < ((atWordMarked seqCells [] [] []).seqHeader 0x2000).rsv + ((withX [(9, 257)]).xr 9#6).toNat ∧
  ((atWordMarked [(0x2030, 2 ^ 32)] [] [] []).seqHeader 0x2000).valid = false ∧ ((atWordMarked [] [] [] []).seqHeader 0x2000).valid = false ∧
  (atWordMarked seqCells [] [⟨0, 0x2000, 7, 1, false⟩] []).windows ≠ [] := by decide
theorem witness_Reserve :
  ((atWordMarked seqCells [] [] []).reserve 0 ((atWordMarked seqCells [] [] []).seqHeader 0x2000) 1 0).1 =
    some ((atWordMarked seqCells [] [] []).seqHeader 0x2000).rsv ∧
  ((atWordMarked seqCells [] [⟨0, 0x2000, 0, 1, false⟩] []).commit 0
    ((atWordMarked seqCells [] [⟨0, 0x2000, 0, 1, false⟩] []).seqHeader 0x2000) 0).isSome = true ∧
  ((atWordMarked seqCells [] [] []).reserve 0 ((atWordMarked seqCells [] [] []).seqHeader 0x2000) 0 0).1 = none := by decide +kernel
/-- R110: the worked commit window. -/
def committing : State := atWord [(0x2000, 8), (0x2008, 17)] [] [⟨0, 0x2000, 8, 4, false⟩, ⟨0, 0x2000, 12, 2, false⟩, ⟨0, 0x2000, 14, 3, false⟩] []
def commitAt (start : Nat) (s : State) : State := (s.commit 0 (s.seqHeader 0x2000) start).getD s
theorem test_worked_commit_window :
  (commitAt 12 committing).natAt 0x2000 8 = 8 ∧ (commitAt 8 (commitAt 12 committing)).natAt 0x2000 8 = 14 ∧
  (commitAt 14 (commitAt 8 (commitAt 12 committing))).natAt 0x2000 8 = 17 ∧ (commitAt 14 (commitAt 8 (commitAt 12 committing))).windows = [] ∧
  ((commitAt 8 (commitAt 12 committing)).commit 0 ((commitAt 8 (commitAt 12 committing)).seqHeader 0x2000) 12).isNone = true := by decide +kernel
theorem witness_NoReservation : ∀ w ∈ (atWordMarked seqCells [] [] []).windows, ¬ (w.hdr = 0x2000 ∧ w.start = 0 ∧ w.committed = false) := by
  simp [show (atWordMarked seqCells [] [] []).windows = [] from rfl]
/-- R108: a reservation of nothing is refused. -/
theorem test_reserve_nothing : (match exec (.srsv 0 5 10 9) (atWord seqCells [] [] [(10, 0x2000)]) with | .next t => (t.strand.map (·.pend)).getD [] | _ => []) =
    [⟨1, 1, .x 5 (-1)⟩] := by decide
/-- R101, R102: a header of zeros is invalid. -/
theorem test_zero_header : trapOf (.srsv 0 5 10 9) (at0 (withX [(10, 0x2000)])) = some (0x08, 1, 0) := by decide
theorem witness_TeamOperations :
  ((withX [(10, 0x80)]).xr 10#6).toNat % 2 ^ 32 * 64 = 0x2000 ∧ ((atWordMarked [(0x2000, 5)] [] [] []).teamAt 0x2000).arrivals + 1 < 2 ^ 64 ∧
  ((atWordMarked [(0x2000, 5)] [] [] []).teamAt 0x2000).members = 0 ∧ ((atWordMarked [(0x2010, 3)] [] [] []).teamAt 0x2000).members = 3 ∧
  (withX []).team = 0xFFFFFFFF ∧ ((atWordMarked [(0x2010, 3)] [] [] []).teamAt 0x2000).gang = false ∧
  acquiring 3 ∧ ¬ acquiring 0 := by
  unfold acquiring
  decide
/-- R32: the worked generation's closing arrival, with one join and one leave counted. -/
theorem test_team_close :
  let t : Team := { arrivals := 3, base := 0, members := 3, joins := 1, leaves := 1, gang := false }
  t.close.1.members = 3 ∧ t.close.1.base = 3 ∧ t.close.1.joins = 0 ∧ t.close.1.leaves = 0 ∧ t.close.2 = 1 := by decide
/-- A fence over one command, while the command is in flight and when it has completed. -/
def fenced : Strand := { withX [] with fence := zeroStrand.fence.setIfInBounds 2 (some ⟨[1], [], some 0, 3⟩) }
theorem witness_FencesAndStep :
  ActsInBundle (at0 fenced) fenced 0 ∧ fenced.fence[(1#3).toNat]?.getD none = none ∧
  fenced.fence[(2#3).toNat]?.getD none = some ⟨[1], [], some 0, 3⟩ ∧
  (at0 fenced).fenceDone fenced ⟨[1], [], some 0, 3⟩ = true ∧
  ({ at0 fenced with cmds := [copied] } : State).fenceDone fenced ⟨[1], [], some 0, 3⟩ = false ∧
  copied.of (withX []) = true ∧ (⟨1, ⟨0, 0⟩, 0, 1, 0, 4, false, 0x2000, 0x2000, 5, 0, 0⟩ : HomeOp).of (withX []) = true ∧
  (((at0 fenced).setStrand { fenced with marked := true }).settleAll { fenced with marked := true }).strand = some { fenced with marked := true } ∧
  (at0 fenced).sweepOwed 0 = false ∧ ({ at0 fenced with mem := memWrites [] (idWord 0 0) (leBytes 8 (3 * 2 ^ 14 - 1)) } : State).sweepOwed 0 = true :=
  ⟨⟨⟨rfl, rfl, rfl⟩, rfl⟩, rfl, rfl, rfl, rfl, rfl, rfl, rfl, rfl, by decide⟩

/-! ### The step, traps and reset -/

/-- R184: ADD X4, X5, X6 placed for the next step. -/
def adding : State := State.reset.withFetchWord 32 0x10004146
def addingBytes : List Byte := leBytes 4 0x10004146 ++ List.replicate 12 0
theorem witness_PlacedSlots :
  placedSlots addingBytes = [(0, 0x10004146#32, .ok (.add 0 4 5 6)), (1, 0, .ok (.nop 0)), (2, 0, .ok (.nop 0)), (3, 0, .ok (.nop 0))] ∧
  bundleFault false false false (placedSlots addingBytes) = none := by decide +kernel
def addingSlots : List (Nat × BitVec 32 × Instr) := [(0, 0x10004146#32, .add 0 4 5 6), (1, 0, .nop 0), (2, 0, .nop 0), (3, 0, .nop 0)]
theorem witness_StepRunsTheDecodedBundle : ∃ s0 u0 st, Issues adding s0 u0 ⟨0, 0⟩ [] st addingBytes addingSlots :=
  ⟨_, _, _, { input := rfl, seat := rfl, state := rfl, clock := rfl, free := ⟨rfl, rfl, rfl, rfl, rfl, rfl, rfl⟩, nest := (fun _ h => nomatch h),
              words := ⟨by decide +kernel, by decide +kernel, by decide +kernel⟩, bytes := rfl, intact := rfl, decoded := by rw [witness_PlacedSlots.1]; rfl,
              judged := by decide +kernel, gate := ⟨rfl, rfl⟩, legal := witness_PlacedSlots.2 }⟩
theorem witness_Run : Run [.nop 0, .add 0 4 5 6] (at0 (withX [(5, 1)])) ((at0 (withX [(5, 1)])).setStrand (lands (withX [(5, 1)]) 1 (toX (withX []) 4 1))) :=
  ⟨_, rfl, rfl, _, rfl, rfl, rfl⟩
theorem witness_SlotTraps : ∃ v tr, gives (.trap 0 7) (at0 (withX [])) v ∧ v.raised = some tr ∧ tr.after = true ∧
  ∃ w tr', gives (.eret 0) (at0 (withX [])) w ∧ w.raised = some tr' ∧ tr'.after = false := ⟨_, _, rfl, rfl, rfl, _, _, rfl, rfl, rfl⟩
theorem witness_EventInput : (Instr.hotReset).isSlot = false ∧ zeroRegs.spool = none ∧ zeroRegs.branch = none ∧ zeroRegs.loop = none ∧
  zeroRegs.rep = none := ⟨rfl, rfl, rfl, rfl, rfl⟩

/-- Identifier 0's handler table at 0x6000 with an entry for every cause up to 0x1F, and its frame pool at 0x4000: n frames from 0x100000,
the first of them taken when it is given so. -/
def handlers (taken n : Nat) : List (Nat × Nat) :=
  [(idWord 0 2, 0x6000), (idWord 0 4, 0x4000), (0x4000, 0x100000), (0x4008, n), (0x4010, 0x5000), (0x5000, taken)] ++
    (List.range 32).map fun k => (0x6008 + 8 * k, 0x8000 + 0x100 * k)
def ruled (cells : List (Nat × Nat)) (st : Strand) : State :=
  { at0 st with mem := cells.foldl (fun m c => memWrites m c.1 (leBytes 8 c.2)) [], inBundle := false }
/-- What a claim answers, by name: 0 a frame, 1 a short pool, 2 an invalid one. -/
def claimKind : Claim → Nat | .got _ _ _ => 0 | .short _ => 1 | .invalid => 2
theorem witness_TakingATrap :
  (ruled (handlers 0 64) (withX [])).handlerEntry 0 0x10 ≠ 0 ∧ (ruled [] (withX [])).handlerEntry 0 0x10 = 0 ∧
  claimKind ((ruled (handlers 0 64) (withX [])).claim 0 ((ruled (handlers 0 64) (withX [])).idRecord 0 4)) = 0 ∧
  claimKind ((ruled (handlers (2 ^ 64 - 1) 64) (withX [])).claim 0 ((ruled (handlers (2 ^ 64 - 1) 64) (withX [])).idRecord 0 4)) = 1 ∧
  claimKind ((ruled (handlers 0 63) (withX [])).claim 0 ((ruled (handlers 0 63) (withX [])).idRecord 0 4)) = 2 := by decide +kernel
theorem witness_Trapped (c : List (Nat × Nat)) :
  (ruled c (withX [])).strand = some (withX []) ∧ (ruled c (withX [])).raised = none ∧ (withX []).handler = none ∧
  (handling []).handler = some ⟨0x1000, 0x10⟩ ∧ (ruled c (withX [])).inBundle = false ∧ ({ cause := 0x10, arg := 7, after := true } : Trap).after = true :=
  ⟨rfl, rfl, rfl, rfl, rfl, rfl⟩
theorem witness_TrapSave :
  let u := trapSave { cause := 0x10, arg := 7 } (withX []) ((ruled (handlers 0 64) (withX [])).countPoison { cause := 0x10, arg := 7 })
  u.strand.isSome = true ∧ u.raised.isNone = true := by decide +kernel

/-- A container with its nine sections of no length at 0x100000, which handler code on seat 0 returns to. -/
def containerCells : List (Nat × Nat) :=
  [(0x100000, 0x6378 + 2 ^ 32), (0x100008, 9 * 2 ^ 16)] ++ (List.range 9).map fun k => (0x100040 + 16 * k, k + 1 + 2 ^ 16)
def returning : Strand := { withX [] with handler := some ⟨0x100000, 0x10⟩ }
def returnState (cells : List (Nat × Nat)) : State := { ruled cells returning with saved := [(savedKey 0 0x100000, withX [(5, 1)])] }
theorem witness_Container :
  containerOk (fun o => if o < 262144 then memRead (returnState containerCells).mem (0x100000 + o) else 0) = true ∧
  containerOk (fun o => if o < 262144 then memRead (returnState []).mem (0x100000 + o) else 0) = false := by decide +kernel
theorem witness_ReturnFromATrap (c : List (Nat × Nat)) :
  (returnState c).strand = some returning ∧ (returnState c).security.accepts = true ∧ returning.handler = some ⟨0x100000, 0x10⟩ ∧ returning.gate = [] ∧ rising (returnState c).seats = true ∧
  (returnState c).savedAt 0 0x100000 = some (withX [(5, 1)]) ∧ (ruled c returning).savedAt 0 0x100000 = none ∧
  ∀ o < 262144, (returnState c).translate 0 0 (0x100000 + o) false = some (0x100000 + o) := by
  refine ⟨rfl, rfl, rfl, rfl, rfl, rfl, rfl, fun o h => ?_⟩
  have lt : 0x100000 + o < sliceEnd := by unfold sliceEnd; omega
  have re : (returnState c).reachable (0x100000 + o) = true := by
    have t : targetOf (0x100000 + o) = 3 := by unfold targetOf; exact if_pos (by omega)
    have z : (0x100000 + o) / 0x800000 / 64 = 0 := by omega
    have v : servingField (0x100000 + o) = some 0 := by simp [servingField, t, lt, z]
    simp only [State.reachable, v]
    rfl
  simp [State.translate, lt, re]

/-- A step of a part with nothing in it. -/
theorem witness_EveryStepKeepsMemoryCanonical : State.reset.memoryCanonical ∧ ∃ t, step State.reset = .next t := ⟨rfl, _, rfl⟩
theorem witness_ResetValues : (1 : Nat) < 2 ∧ (0x0068 : Nat) % 8 = 0 := by decide

/-! ### Steps of a seat's other agents -/

def waiting (w : Wait) : Strand := { withX [] with wait := w }
theorem witness_Waits (w : Wait) :
  (at0 (waiting w)).strandAt ⟨0, 0⟩ = some (waiting w) ∧ (waiting w).wait = w ∧ ({ fenced with wait := .fence 2 } : Strand).fence[2]? = some (some ⟨[1], [], some 0, 3⟩) :=
  ⟨rfl, rfl, rfl⟩
theorem witness_WaitedWord : (at0 (waiting (.counter 0x2000 1 false))).natAt 0x2000 8 = 0 := by decide
theorem witness_Landing (r : Res) :
  let st := { withX [] with clk := 5, pend := [⟨5, 0, r⟩, ⟨6, 1, .x 3 9⟩] }
  (at0 st).strandAt ⟨0, 0⟩ = some st ∧ (at0 st).raised = none ∧ st.pend = [] ++ ⟨5, 0, r⟩ :: [⟨6, 1, .x 3 9⟩] ∧
  (∀ x ∈ ([] : List Pending) ++ [⟨6, 1, .x 3 9⟩], st.clk < x.due) :=
  ⟨rfl, rfl, rfl, by intro x h; simp only [List.nil_append, List.mem_singleton] at h; subst h; exact Nat.lt_succ_self 5⟩
/-- A drain of A0, 64 rows, stage 6 on: row maxima to V3. -/
def drainOf (c0 c4 : Word) : Drain :=
  { acc := 0, row := 0, count := 64, issue := 4, order := 0, beat := 1, fcfg := (Vector.replicate 5 0 |>.set 0 c0).set 4 c4, vs := zeroV,
    vb := zeroV, vq := zeroV, vgroup := zeroV, maskFrame := 0, destFrame := 0, destRow := 0, destCol := 0, words := [], now := 0, decay := 0,
    written := 0, err := .num false 0 0, offset := 0, live := false, logged := 0, own := none }
theorem witness_DrainBeat :
  let d := drainOf (BitVec.ofNat 64 (2 ^ 51)) (BitVec.ofNat 64 (3 * 2 ^ 38))
  let st := { draining 7 0 0 with drains := [d], clk := 5 }
  st.drains = [d] ∧ d.issue + d.beat = st.clk ∧ 8 * d.beat < d.count ∧ (st.av[d.acc]?.getD zeroBank).tag = 7 ∧ d.row + 8 * d.beat + 8 ≤ 64 ∧
  (d.fcfg[0]?.getD 0).toNat / 2 ^ 51 % 2 ^ 1 = 1 ∧ (d.fcfg[0]?.getD 0).toNat / 2 ^ 36 % 2 ^ 2 = 0 ∧ (d.fcfg[4]?.getD 0).toNat / 2 ^ 38 % 2 ^ 5 = 3 :=
  ⟨rfl, rfl, by decide, rfl, by decide, by decide, by decide, by decide⟩
theorem witness_MassAdd : ∀ x ∈ [(⟨0x2000, 0, 0, 0, 9, 1⟩ : MassAdd)], (⟨0x2000, 0, 0, 0, 8, 0⟩ : MassAdd).due < x.due := by
  intro x h
  simp only [List.mem_singleton] at h
  subst h
  decide

/-- An operation of seat (0, 0) on its way to the word at 0x2000 of tile 0. -/
def going (op a b : Nat) : HomeOp := ⟨1, ⟨0, 0⟩, 0, 0, 0, op, false, 0x2000, 0x2000, a, b, 0⟩
theorem witness_HomesPerformOperations (op a b : Nat) :
  let s := { State.reset with flight := [going op a b], mem := memWrites [] 0x2000 (leBytes 8 (2 ^ 64 - 2)) }
  s.flight = [] ++ going op a b :: [] ∧ (∀ p ∈ ([] : List HomeOp) ++ [], p.id ≠ 1) ∧
  (∀ p ∈ s.flight, (going op a b).seat = p.seat ∨ (p.asid = (going op a b).asid ∧ p.sid = (going op a b).sid ∧ p.launch = (going op a b).launch) →
    (going op a b).rel = true ∨ (p.key < (going op a b).key + (going op a b).bytes ∧ (going op a b).key < p.key + p.bytes) →
    (going op a b).id ≤ p.id) := by
  refine ⟨rfl, by simp, fun p h _ _ => ?_⟩
  simp only [List.mem_singleton] at h
  subst h
  exact Nat.le_refl _
theorem witness_HomeSums :
  let s := { State.reset with mem := memWrites [] 0x2000 (leBytes 8 (2 ^ 64 - 2)) }
  s.natAt 0x2000 8 + 1 < 2 ^ 64 ∧ 2 ^ 64 ≤ s.natAt 0x2000 8 + 2 ∧ s.natAt 0x2000 8 < 2 ^ 64 - 1 := by decide
/-- A watch of a parked strand on the word at 0x2000. -/
def parked : Ready := ⟨0x3000, 0, 1, 0, 0, none, none, none⟩
def watching (t : Nat) : Watch := ⟨1, 0x2000, t, .strand parked 0, true⟩
theorem witness_Watches :
  ({ State.reset with watches := [watching 0] } : State).watches.find? (fun v => v.id == 1) = some (watching 0) ∧
  (watching 0).waiter = .strand parked 0 ∧ (watching 0).armed = true ∧ (0 : Nat) ≤ State.reset.natAt 0x2000 8 ∧
  State.reset.natAt 0x2000 8 < (watching 1).target ∧ State.reset.translate 0 0 0x3000 false = some 0x3000 := ⟨rfl, rfl, rfl, Nat.zero_le _, by decide, rfl⟩

/-! ### Scheduling and launches -/

/-- A field that is up, with the ready strands and queues given; a part whose field 0 is so and whose memory holds the cells. -/
def upWith (rs : List Ready) (qs : List Queue) : Field := { fieldOff with phase := .up, ready := rs, queues := qs }
def part (d : Field) (cells : List (Nat × Nat)) : State :=
  { State.reset with
    fields := State.reset.fields.setIfInBounds 0 d
    mem := cells.foldl (fun m c => memWrites m c.1 (leBytes 8 c.2)) [] }
/-- A launch of one strand of one team, from a strand, in the phase given. -/
def launchOne (p : LaunchPhase) (created exited : Nat) : Launch :=
  { launch1 with words := launch1.words.set 2 (BitVec.ofNat 64 (1 + 2 ^ 32)) |>.set 1 (BitVec.ofNat 64 (1 + 2 ^ 32)), phase := p, created := created,
                 exited := exited, tiles := [0] }
theorem witness_Placement :
  let s := { part (upWith [parked] []) [] with launches := [launchOne .open_ 1 0] }
  s.placement 0 = some (⟨.ready [parked], 0, 0, 0, [(none, none)], false⟩, [⟨0, 0⟩]) ∧ s.translate 0 0 0x3000 false = some 0x3000 ∧
  (s.recordAt 0x3000).valid = true ∧ (s.recordAt 0x3000).flags.testBit 2 = false ∧ s.launchOf 1 = some (launchOne .open_ 1 0) ∧
  0 ∈ (launchOne .open_ 1 0).tiles ∧ s.gangs.isEmpty = true ∧ s.gangTeam 0 0 (s.natAt (0x3000 + 48) 4) = false ∧
  (let t := { s with mem := memWrites (memWrites [] 0x3030 [0x80]) 0x201C [1] }
   t.gangTeam 0 0 (t.natAt (0x3000 + 48) 4) = true) := by decide +kernel
/-- Identifier 0's record pool at 0x4000: n records from 0x8000, the first 64 taken or not. -/
def recordPool (taken n : Nat) : List (Nat × Nat) := [(idWord 0 8, 0x4000), (0x4000, 0x8000), (0x4008, n), (0x4010, 0x5000), (0x5000, taken)]
theorem witness_Creation :
  ({ part (upWith [] []) [] with launches := [launchOne .pending 0 0] } : State).launchOf 1 = some (launchOne .pending 0 0) ∧
  claimKind ((part fieldOff (recordPool 0 64)).claim 0 ((part fieldOff (recordPool 0 64)).idRecord 0 8)) = 0 ∧
  claimKind ((part fieldOff (recordPool (2 ^ 64 - 1) 64)).claim 0 ((part fieldOff (recordPool (2 ^ 64 - 1) 64)).idRecord 0 8)) = 1 ∧
  claimKind ((part fieldOff []).claim 0 ((part fieldOff []).idRecord 0 8)) = 2 ∧
  ((part fieldOff (recordPool 0 64)).writeGlobal 0 0 0x8000 (newRecord (launchOne .pending 0 0) 0)).isSome = true := by decide +kernel
/-- A strand that may be pre-empted, one in handler mode and one that leaves its seat. -/
theorem witness_Preemption :
  (at0 (withX [])).strandAt ⟨0, 0⟩ = some (withX []) ∧ (withX []).gang = false ∧ rising (at0 (withX [])).seats = true ∧ (at0 (withX [])).flight = [] ∧
  (withX []).gate = [] ∧ (handling []).handler ≠ none ∧ (waiting .exit).wait = .exit ∧ (waiting (.park 8 none)).wait = .park 8 none ∧
  (withX []).handler = none ∧ (withX []).wait = .none := ⟨rfl, rfl, rfl, rfl, rfl, by decide, rfl, rfl, rfl, rfl⟩
/-- A resident gang team of level 0 and a runnable one of the same level; a launch that ages. -/
def gangReady : Ready := { parked with gang := some 7 }
theorem witness_Gangs :
  let st := { withX [] with gang := true, team := 6 }
  let s := { part (upWith [gangReady] []) [] with seats := [(0, st)] }
  ((s.residentGangs 0).find? fun x => s.gangRunnable 0 x.2).isSome = true ∧ rising s.seats = true ∧ s.canPreempt st = true ∧
  ({ s with seats := [(0, { st with wait := .exit })] } : State).canPreempt { st with wait := .exit } = false ∧
  (∀ x ∈ ({ part (upWith [] []) [] with seats := [(0, st)] } : State).residentGangs 0,
    ({ part (upWith [] []) [] with seats := [(0, st)] } : State).gangRunnable 0 x.2 = false) := by decide +kernel
theorem witness_Aging :
  (part (upWith [parked] []) []).fields[0]? = some (upWith [parked] []) ∧ (upWith [parked] []).ready[0]? = some parked ∧
  (part (upWith [parked] []) []).readyLevel 0 parked < ({ launch1 with agePeriod := 1, ceiling := 3 } : Launch).ceiling ∧ ({ launch1 with agePeriod := 1, ceiling := 3 } : Launch).agePeriod ≠ 0 ∧
  launch1.agePeriod = 0 ∧ launch1.ceiling ≤ (part (upWith [parked] []) []).readyLevel 0 parked := ⟨rfl, rfl, by decide +kernel, by decide, rfl, Nat.zero_le _⟩
/-- Field 0 has no idle seat for its record and field 1 has: its fence takes the seats of field 0 out of the count. -/
theorem witness_Balance :
  let s := { part { upWith [parked] [] with phase := .training } [] with
    fields := (State.reset.fields.setIfInBounds 0 { upWith [parked] [] with phase := .training }).setIfInBounds 1 (upWith [] []) }
  s.balance 0 = some (parked, 1) ∧ (0 : Nat) ≠ 1 ∧ (part (upWith [] []) []).balance 0 = none := by decide +kernel

/-- A launch armed on the counter at 0x2000 with target 3. -/
def armed : Launch := { launchOne .armed 0 0 with words := ((launchOne .armed 0 0).words.set 6 0x2000).set 7 3 }
theorem witness_Triggers :
  let s := { part (upWith [] []) [(0x2000, 3)] with launches := [armed] }
  s.launchOf 1 = some armed ∧ armed.field = 0 ∧ armed.phase = .armed ∧ s.translate 0 0 0x2000 false = some 0x2000 ∧ armed.word 6 = 0x2000 ∧
  armed.word 7 ≤ s.natAt 0x2000 8 ∧ s.pendingUsed 0 < 4096 ∧ (part fieldOff [(0x2000, 2)]).natAt 0x2000 8 < armed.word 7 ∧
  (s.launches.find? fun m => m.field == 0 && s.canFire m) = some armed ∧ s.cmds = [] := by decide +kernel
/-- An engine node armed on the counter at 0x2000 with target 3. -/
def node : Cmd := { copied with phase := 0, arm := some (0x2000, 3) }
theorem witness_EngineNode :
  let s := { part (upWith [] []) [(0x2000, 3)] with cmds := [node] }
  (s.cmds.find? fun d => d.id == 1) = some node ∧ node.field = 0 ∧ node.phase = 0 ∧ s.translate 0 0 0x2000 false = some 0x2000 ∧
  3 ≤ s.natAt 0x2000 8 ∧ s.unitFree node = true ∧ (∀ c ∈ s.cmds, c.phase ≠ 1) := by decide +kernel
theorem witness_LaunchCompletion :
  let s := { part (upWith [] []) [] with launches := [launchOne .open_ 1 1] }
  let l := launchOne .open_ 1 1
  s.launchOf 1 = some l ∧ l.phase ≠ .armed ∧ l.lost = false ∧ l.created = l.count ∧ l.exited = l.count ∧ s.cmds = [] ∧ s.flight = [] ∧
  s.translate 0 0 (l.word 4) true = some 0 ∧ s.natAt 0 8 + 1 < 2 ^ 64 ∧ 2 ^ 64 ≤ (part fieldOff [(0, 2 ^ 64 - 1)]).natAt 0 8 + 1 ∧
  (launchOne .open_ 1 0).exited ≠ (launchOne .open_ 1 0).count := by decide +kernel
/-- A registered queue whose sequence at 0x2000 holds one descriptor, in the frame at 0x5000. -/
def submission : Queue := ⟨0, 1, 0x2000, 0, 0, 0, 0⟩
def submitted : List (Nat × Nat) := (0x2000, 1) :: (0x203F - 7, 3 * 2 ^ 48 + 0xC0 * 2 ^ 56) :: seqCells
theorem witness_Submission :
  let s := part (upWith [] [submission]) submitted
  (s.nextQueue 0).isSome = true ∧ (part (upWith [] []) []).nextQueue 0 = none ∧
  (match s.nextQueue 0 with | some (_, u, h) => (s.descriptorAt u.asid h u.cons).isSome | none => false) = true := by decide +kernel

/-! ### The engines -/

theorem witness_Completions :
  let s := { State.reset with cmds := [copied] }
  s.underWay 1 0 = some copied ∧ copied.counter = 2 ^ 64 ∧ (∀ c ∈ s.cmds, c.phase ≠ 1) ∧
  (s.cmds.find? fun d => d.id == 1 && (d.phase == 2 || d.phase == 3)) = some copied ∧
  ({ copied with op := 10 } : Cmd).op ∉ [14, 15] ∧ copied.op ∉ [14, 15] ∧ copied.phase = 2 ∧ s.laneStopped { copied with op := 10 } 0 = false ∧
  s.translate 0 0 0x3000 true = some 0x3000 ∧ s.natAt 0x3000 8 + 1 < 2 ^ 64 := by decide +kernel
/-- The worked copy ends without a failure; one from an address that is not mapped fails. -/
theorem witness_CopyEnds :
  (copyLoop copied (copyCount copied) 0 matrix 0).2.2 = none ∧
  (copyLoop { copied with z := copied.z.set 0 (BitVec.ofNat 64 (2 ^ 57)) } 1 0 matrix 0).2.2.isSome = true := by decide +kernel
/-- A retire pass of one page over the sequence at 0x2000, at its turn: with nothing in flight on the page, with a copy that reads it, and once it
has found that copy; a later pass is not at its turn. -/
def passing (id : Nat) (ls ws : List Nat) : Cmd :=
  { copied with id := id, op := 6, leased := ls, awaits := ws,
                z := (((Vector.replicate 32 0).set 16 0x2000).set 17 (BitVec.ofNat 64 (2 ^ 32))).set 21 0x8000 }
def reader : Cmd := { copied with id := 2, z := copied.z.set 0 0x5040 }
def passState (cs : List Cmd) : State := { State.reset with cmds := cs, mem := seqCells.foldl (fun m c => memWrites m c.1 (leBytes 8 c.2)) [] }
theorem witness_Passes :
  (passState [passing 1 [] []]).underWay 1 6 = some (passing 1 [] []) ∧ (passState [passing 1 [] []]).passTurn (passing 1 [] []) = true ∧
  (passState [passing 1 [] []]).passFinds (passing 1 [] []) = [] ∧ (passState [passing 1 [] []]).passWaits (passing 1 [] []) = false ∧
  (passState [passing 1 [] [], reader]).passFinds (passing 1 [] []) = [⟨0, [(0x5000, 8256)], [2], []⟩] ∧
  (passState [passing 1 [0] [2], reader]).passFinds (passing 1 [0] [2]) = [] ∧
  (passState [passing 1 [0] [2], reader]).passWaits (passing 1 [0] [2]) = true ∧
  (passState [passing 1 [] [], passing 3 [] []]).passTurn (passing 3 [] []) = false := by decide +kernel
/-- The fourth element of the worked copy, moved before the others in a turn of its own. -/
theorem witness_EngineTurn :
  let s := { matrix with cmds := [copied] }
  (s.cmds.find? fun x => x.id == copied.id && decide (x.op ≤ 2) && x.phase == 2) = some copied ∧ (moveRun copied 1 3 s (movedBytes copied)).2.2 = none ∧ copied.op ≤ 1 ∧
  3 < moveCount copied ∧ 3 ∉ copied.moved ∧ copied.moved = [] := by decide +kernel
/-- Pages moved between tile 0's slice and main memory's frame. -/
def paging (op : Nat) : Cmd := { copied with op := op, handle := 1, z := (copied.z.set 0 0).set 1 0x20000 }
theorem witness_Paging :
  let s := withTable [(1, pageableEntry)] State.reset
  s.entryOf 1 1 = some pageableEntry ∧ (paging 14).phase = 2 ∧
  (s.copyRange (paging 14).field (paging 14).asid true (0 * 0x800000 + (s.pageState pageableEntry 0 ((paging 14).zf 0 0 32)).2) ((paging 14).zn 1)
    pageableEntry.tileSize).2 = none ∧
  s.drainsInto (sliceAddr 0 (s.pageState pageableEntry 0 0).2) pageableEntry.tileSize = false := by decide +kernel
/-- A copy of 24 bytes from 0x1000 to 0x2000. -/
def packedCopy : Cmd := { copied with z := (((Vector.replicate 32 0).set 0 0x1000).set 1 0x2000).set 2 0x0000000300000008 }
theorem witness_CopyMovesItsElements :
  packedCopy.op = 0 ∧ packedCopy.zf 4 2 1 = 0 ∧ packedCopy.zn 3 = 0 ∧ packedCopy.zn 5 = 0 ∧ matrix.poison = [] ∧
  2 ^ packedCopy.zf 4 0 2 * (packedCopy.zf 2 0 32 * packedCopy.zf 2 32 32) = 24 ∧ packedCopy.zn 0 + 24 ≤ 0xC0000000 ∧
  packedCopy.zn 1 + 24 ≤ 0xC0000000 ∧ packedCopy.zn 0 + 24 ≤ packedCopy.zn 1 ∧ packedCopy.zf 6 0 64 = 0 ∧ packedCopy.zf 7 0 64 = 0 := by decide +kernel
/-- The state with every field released. -/
def released (s : State) : State := { s with fields := Vector.replicate 6 { fieldOff with phase := .up } }
theorem witness_CopyState :
  (released matrix).memoryCanonical ∧ (released matrix).knownSequences = [] ∧ ∀ a < 0xC0000000, (released matrix).reachable a = true := by
  refine ⟨by unfold State.memoryCanonical; decide +kernel, rfl, fun a h => ?_⟩
  have t : targetOf a = 3 := by unfold targetOf; exact if_pos (by omega)
  have f : a / 0x800000 / 64 < 6 := by omega
  have g : (released matrix).fieldOpen (a / 0x800000 / 64) = true := by
    generalize a / 0x800000 / 64 = k at f
    match k, f with
    | 0, _ => rfl
    | 1, _ => rfl
    | 2, _ => rfl
    | 3, _ => rfl
    | 4, _ => rfl
    | 5, _ => rfl
  have v : servingField a = some (a / 0x800000 / 64) := by simp [servingField, t, sliceEnd, h]
  simp only [State.reachable, v, g]

/-- Window 3 live with a count of c ports and 4 bytes, and the contributions given. -/
def reducing (count : Nat) (cs : List Contribution) : State :=
  let s := State.reset
  { s with fabric := { s.fabric with
      red := s.fabric.red.setIfInBounds 3 #v[0x40000, BitVec.ofNat 64 (4 + 2000 * 2 ^ 32), BitVec.ofNat 64 (7 * 2 ^ 32 + count * 2 ^ 16), 0x8000000000000000]
      rounds := s.fabric.rounds.setIfInBounds 3 ⟨#v[0x40000, BitVec.ofNat 64 (4 + 2000 * 2 ^ 32), BitVec.ofNat 64 (7 * 2 ^ 32 + count * 2 ^ 16), 0x8000000000000000], true, cs, []⟩ } }
theorem witness_Contribution :
  ((reducing 2 []).round 3).live = true ∧ 17 ≠ (reducing 2 []).fabric.self ∧ (reducing 2 []).redField 3 1 0 32 = 4 ∧
  (reducing 2 []).redField 3 2 16 10 = 2 ∧ ((reducing 2 []).round 3).contribs.length + 1 < 2 ∧
  ((reducing 2 [⟨4, none, 0, [0, 0, 0, 0]⟩]).round 3).contribs.length + 1 = 2 ∧
  (reducing 2 []).knownSequences = [] ∧
  (∀ c ∈ ((reducing 2 [⟨4, none, 0, [0, 0, 0, 0]⟩]).round 3).contribs, c.port ≠ 17 ∧ c.rctr = 0 ∧ c.cmd = none) ∧
  ((reducing 2 []).round 3).waiting = [] ∧ ((reducing 2 []).redWord 3 0).toNat + 4 ≤ 0xC0000000 ∧ (reducing 2 []).redField 3 1 32 32 ≠ 0 ∧
  ((reducing 2 []).redReg 3 3).getLsbD 63 = true ∧ (State.reset.redReg 3 3).getLsbD 63 = false ∧ State.reset.redField 3 1 32 32 = 0 := by decide +kernel
theorem witness_FredAcknowledge :
  let c := { copied with op := 12, phase := 4 }
  let s := { reducing 2 [⟨0, some 1, 0, [0, 0, 0, 0]⟩] with cmds := [c] }
  (s.cmds.find? fun d => d.id == c.id && d.op == 12) = some c ∧ c.phase = 4 ∧ c.counter = 2 ^ 64 ∧ (∀ d ∈ s.cmds, d.phase ≠ 1) ∧
  (s.cmds.find? fun d => d.id == 1) = some c ∧ (s.round 3).contribs = [⟨0, some 1, 0, [0, 0, 0, 0]⟩] := by decide +kernel
/-- R259: the first worked row. -/
theorem test_reduction_order :
  reduceBytes 7 4 [⟨30, none, 0, leBytes 4 0x4B800000⟩, ⟨4, none, 0, leBytes 4 0x3F800000⟩, ⟨17, none, 0, leBytes 4 0x3F800000⟩] =
    leBytes 4 0x4B800001 := by decide +kernel

/-! ### Stamps, noise, islands, links -/

/-- R118: a word at step 0x8000 read 2^15 steps later, at the edge where an add decays the word or the addend; and a boundary between. -/
theorem witness_StampedWords :
  (0x3F800000 : Nat) < 2 ^ 32 ∧ (7 : Nat) < 2 ^ 16 ∧ (1 : Nat) % 2 = 1 ∧ (2 : Nat) % 2 = 0 ∧ (7 + 0x7FFF + 2 ^ 16 - 7) % 2 ^ 16 < 2 ^ 15 ∧
  2 ^ 15 ≤ (6 + 2 ^ 16 - 7) % 2 ^ 16 ∧ (0x3F000000 : Nat) ≤ 0x3F800000 ∧ (0x4000 : Nat) % 2 ^ 14 = 0 ∧ (0x4000 : Nat) ≤ 0x5000 ∧
  (0x3000 : Nat) ≤ 0x5000 ∧ (0x5000 : Nat) ≤ 0x12FFF ∧ (0x12FFF : Nat) < 0x3000 + 2 ^ 16 := by decide
/-- R120: the worked example, f = 0.75: 2.0 at stamp 5, 1.0 added at now 8, then 1.0 issued at now 7; and a retired word. -/
theorem test_stamped_add :
  stampedAdd (0x40000000 + 5 * 2 ^ 32) 0x3F800000 0x3F400000 8 = (0x3FEC0000 + 8 * 2 ^ 32, 0) ∧
  stampedAdd (0x3FEC0000 + 8 * 2 ^ 32) 0x3F800000 0x3F400000 7 = (0x40260000 + 8 * 2 ^ 32, 0) ∧
  (readStamped 0x3F400000 0x40000000 5 8).1 = 0x3F580000 ∧
  (stampedAdd (0x3F800000 + 5 * 2 ^ 32 + 2 ^ 48) 0x3F800000 0x3F000000 7).1 = 0x3F800000 + 5 * 2 ^ 32 + 2 ^ 48 := by decide +kernel
theorem witness_Sweep :
  let s := part fieldOff [(idWord 0 0, 2 ^ 14)]
  s.launches.isEmpty = true ∧ s.raised.isNone = true ∧ (0 + 1) * 2 ^ 14 ≤ s.stepOf 0 ∧
  (part fieldOff [(idWord 0 0, 2 ^ 14 - 1)]).stepOf 0 < (0 + 1) * 2 ^ 14 := by decide +kernel
theorem witness_FieldUnits :
  (part (upWith [] []) []).fields[0]? = some (upWith [] []) ∧ (upWith [] []).phase = .up ∧ (upWith [] []).noiseOff = false ∧
  ({ fieldOff with noiseOff := true } : Field).noiseOff = true ∧ homeTile 0x2000 / 64 = 0 ∧
  (part fieldOff [(idWord 0 5, 1)]).idRecord 0 6 < (part fieldOff [(idWord 0 5, 1)]).idRecord 0 5 ∧ State.reset.idRecord 0 5 ≤ State.reset.idRecord 0 6 := by
  decide +kernel
/-- Link 35 up after k replays, and training. -/
def linked (k : Link) (up : BitVec 36) : State :=
  { State.reset with fabric := { State.reset.fabric with up := up, links := State.reset.fabric.links.setIfInBounds 35 k } }
theorem witness_BridleLinks :
  (linked ⟨0, 7, false⟩ (-1)).fabric.links[35]? = some ⟨0, 7, false⟩ ∧ (linked ⟨0, 7, false⟩ (-1)).fabric.up.getLsbD 35 = true ∧
  (linked ⟨0, 6, false⟩ 0).fabric.up.getLsbD 35 = false ∧ (linked ⟨0, 0, true⟩ 0).fabric.links[35]? = some ⟨0, 0, true⟩ ∧
  (linked ⟨0, 7, false⟩ (-1)).cmds.isEmpty = true := by decide

/-! ### The host -/

/-- A part whose semaphore a port owns. -/
def owned (n : Nat) : State := { part (upWith [] []) [] with semOwner := n }
theorem witness_PortsAndIslands :
  (owned 1).ports[0]? = some portReset ∧ (owned 1).fenced 0 = false ∧ (part { fieldOff with phase := .fenced } []).fenced 0 = true ∧ (owned 0).semOwner = 0 ∧ (owned 1).semOwner = 0 + 1 ∧ (owned 2).semOwner ≠ 0 + 1 ∧
  (bitsAt 0x1#64 0 2).toNat = 0 + 1 ∧ (bitsAt 0x4#64 0 2).toNat = 0 ∧ (owned 1).fields[0]? = some (upWith [] []) ∧
  (bitsAt 0x0064000000000000#64 48 16).toNat = 100 ∧ (bitsAt 0x0640000000000000#64 48 16).toNat = 1600 ∧
  (bitsAt 0x0CE40000#64 16 16).toNat = 3300 ∧ 3300 % 25 = 0 ∧ (47#64).toNat < 48 ∧ 48 ≤ (48#64).toNat ∧ (bitsAt 100#64 0 32).toNat = 100 ∧
  ¬ (100 ≤ (bitsAt 99#64 0 32).toNat) ∧ ¬ ((bitsAt 1000001#64 0 32).toNat ≤ 1000000) := by decide
/-- R319: port 1 takes the free semaphore; port 0's write does not change who owns it. -/
theorem test_portsem :
  (match exec (.portsemWrite 1 2) (owned 0) with | .next t => t.semOwner | _ => 9) = 2 ∧
  (match exec (.portsemWrite 0 1) (owned 2) with | .next t => t.semOwner | _ => 9) = 2 ∧
  (match exec (.fselfWrite 0 5) (owned 2) with | .next t => (t.fabric.self, t.semErr) | _ => (9, 0)) = (0, 1) := by decide
/-- A part whose fields 0 to 3 are in the phases given, with an order of bring-up. -/
def phases (a b c d : FieldPhase) (order : List Nat) : State :=
  { State.reset with
    fields := (((State.reset.fields.setIfInBounds 0 { fieldOff with phase := a }).setIfInBounds 1 { fieldOff with phase := b }).setIfInBounds 2
      { fieldOff with phase := c }).setIfInBounds 3 { fieldOff with phase := d }
    bringup := order }
theorem witness_OutsideAccesses :
  State.reset.ports[1]? = some portReset ∧ State.reset.fenced 0 = false ∧ portReset.hdm = false ∧ ({ portReset with hdm := true } : Port).hdm = true ∧ State.reset.reachable (2 ^ 60 + 0x1000) = true ∧
  (phases .up .fenced .up .up []).reachable (2 ^ 60 + 2 ^ 39) = false ∧ (phases .up .fenced .up .up []).fenced 0 = false ∧ (0x1000 : Nat) < 2 ^ 36 ∧
  (State.reset.engRead 0 0 0x2000 8).isOk = true ∧ (State.reset.engRead 0 0 (2 ^ 57) 8).isOk = false ∧
  (State.reset.engWrite 0 0 0x2000 [1]).2 = none ∧ State.reset.translate 0 0 (2 ^ 57) true = none ∧
  State.reset.translate 0 0 0x2000 true = some 0x2000 ∧ State.reset.natAt 0x2000 8 + 1 < 2 ^ 64 := by decide +kernel
/-- Port 0 staging queue 1 of identifier 0 on the sequence at 0x2000, its events at 0x2040, for field 0. -/
def staged (qs : List Queue) (cells : List (Nat × Nat)) : State :=
  { part (upWith [] qs) cells with ports := State.reset.ports.setIfInBounds 0 { portReset with qreg := #v[0x2000, 0x2040, 0x10000, 0] } }
def twoHeaders : List (Nat × Nat) := [(0x2030, 256 * 2 ^ 32), (0x2038, 3 * 2 ^ 48 + 0xC0 * 2 ^ 56), (0x2070, 256 * 2 ^ 32), (0x2078, 3 * 2 ^ 48 + 0xC0 * 2 ^ 56),
  (0x2018, 0x3000), (0x3000, 0x5001)]
theorem witness_QueuesAndWatches :
  (∀ o, (staged [] twoHeaders).ports[0]? = some o → (staged [] twoHeaders).registerWhy o = 0 ∧ (staged [] []).registerWhy o ≠ 0) ∧
  ((staged [] twoHeaders).headerOk 0 0x2000 true).isSome = true ∧ (staged [submission] twoHeaders).findQueue 0 1 = some (0, submission) ∧
  (staged [] twoHeaders).fenced 0 = false ∧ (staged [] twoHeaders).findQueue 0 1 = none ∧ bitsAt 0x100000#64 20 11 ≠ 0#11 ∧
  ((staged [submission] twoHeaders).appendHeader 0x100010000).map (·.2.valid) = some true ∧
  ((staged [submission] []).appendHeader 0x100010000).map (·.2.valid) = some false ∧ (staged [] []).appendHeader 0x10000 = none ∧
  (State.reset.portWatches 0).length < 64 ∧ State.reset.translate 0 0 0x2000 false = some 0x2000 ∧ State.reset.storeReady 0 = none := by decide +kernel
theorem witness_HostWatches :
  let w : Watch := ⟨1, 0x2000, 3, .host 0 5, false⟩
  let s := { part fieldOff [(0x2000, 3)] with watches := [w] }
  s.storeReady 0 = some w ∧ ({ s with watches := [{ w with armed := true }] } : State).watches.find? (fun x => x.id == 1) = some { w with armed := true } ∧
  w.target ≤ s.natAt 0x2000 8 ∧ State.reset.natAt 0x2000 8 < w.target := by decide +kernel
/-- R343, R359: a double-bit error poisons its word once, and the field that serves the word counts it. -/
theorem test_doubleBitError :
  (match step { part (upWith [] []) [] with inputs := [.error (.memory 0x2004)] } with
    | .next t => (t.poison, (t.fields[0]?.getD fieldOff).uncorr) | _ => ([], 9)) = ([0x400], 1) ∧
  (match step { part (upWith [] []) [] with inputs := [.error (.memory 0x2004)], poison := [0x400] } with
    | .next t => (t.poison, (t.fields[0]?.getD fieldOff).uncorr) | _ => ([], 9)) = ([0x400], 0) := by decide +kernel
/-- R349: a part whose Keel is fenced reads 0 outside the FW window, PORTSEM and DEVID, and takes no draw classes. -/
theorem test_presented :
  (part { fieldOff with phase := .fenced } []).readRegister 0 0x0088 = 0 ∧ (part { fieldOff with phase := .fenced } []).readRegister 0 0 ≠ 0 ∧
  (match exec (.drawWrite 0 5) { part { fieldOff with phase := .fenced } [] with semOwner := 1 } with | .next t => t.drawA | _ => 9) =
    State.reset.drawA := by decide +kernel
theorem witness_FabricWindowAndMigration :
  (owned 1).semOwner = 0 + 1 ∧ (owned 1).fenced 0 = false ∧ (511#64).toNat < 512 ∧ 512 ≤ (512#64).toNat ∧ (owned 1).fabricBusy = false ∧
  ({ owned 1 with cmds := [{ copied with op := 12 }] } : State).fabricBusy = true ∧ (35#64).toNat < 36 ∧ (owned 1).cmds.isEmpty = true ∧
  ({ reducing 2 [] with fabric := { (reducing 2 []).fabric with
    red := (reducing 2 []).fabric.red.setIfInBounds 3 #v[0x40000, 64, BitVec.ofNat 64 (7 * 2 ^ 32 + 2 * 2 ^ 16), 0] } } : State).redOk 3 = true ∧
  State.reset.redOk 3 = false ∧ (State.reset.round 31).contribs.isEmpty = true ∧ (State.reset.round 31).waiting.isEmpty = true ∧
  (owned 1).seats.isEmpty = true ∧ ({ owned 1 with quiescing := some 4 } : State).quiescing = some 4 ∧ (owned 1).quiescing ≠ some 4 := by decide +kernel

/-! ### Bring-up, fencing and the security unit -/

theorem witness_FieldsComeUp :
  State.reset.keel = false ∧ State.reset.phaseOf 0 = .off ∧ State.reset.phaseOf 1 ≠ .deferred ∧
  (phases .up .powering .off .off [1, 2]).phaseOf 1 = .powering ∧ (phases .up .locking .off .off [1, 2]).phaseOf 1 = .locking ∧
  (phases .up .testing .off .off [1, 2]).phaseOf 1 = .testing ∧ (phases .up .testing .off .off [1, 2]).upNeighbours 1 = [0] ∧
  (phases .fenced .testing .off .off [1, 2]).upNeighbours 1 = [] ∧ [1, 2].filter (fun h => h != 1) = 2 :: [] ∧
  (phases .fenced .testing .off .off [1, 2]).phaseOf 2 ≠ .deferred ∧ (phases .up .training .up .up [1]).upNeighbours 1 = [0, 3] ∧
  (phases .up .training .off .off [1]).phaseOf 1 = .training ∧ (phases .up .training .off .off [1]).upNeighbours 1 = [0] ∧
  (phases .up .training .up .up [1]).phaseOf 1 = .training ∧ (0 : Nat) ∉ ([] : List Nat) := by decide
theorem witness_Fencing :
  (phases .up .up .up .up []).fieldUp 0 = true ∧ (phases .up .up .up .up []).fieldUp 1 = true ∧ (phases .up .up .up .up []).fieldUp 2 = true ∧
  (0 % 2 = 0 ∧ 1 = 0 + 1) ∧ 2 = 0 + 2 ∧ rising (phases .up .up .up .up []).seats = true ∧
  ¬ ((1 % 2 = 0 ∧ 2 = 1 + 1) ∨ (2 % 2 = 0 ∧ 1 = 2 + 1) ∨ 1 = 2 + 2 ∨ 2 = 1 + 2) := by decide
/-- Port 0 with a seal command of n bytes at 0, its link up or down, and the unit's queue. -/
def securing (st len : Nat) (up : Bool) (busy : List (Nat × Nat)) (index : Nat) : State :=
  { State.reset with
    keel := true
    ports := State.reset.ports.setIfInBounds 0 { portReset with up := up, sealReg := { portReset.sealReg with sstat := st, slen := len } }
    security := { securityReset with busy := busy, index := index } }
def sealing (st len : Nat) (up : Bool) : Port := { portReset with up := up, sealReg := { portReset.sealReg with sstat := st, slen := len } }
theorem witness_SecurityCommands :
  (securing 2 64 true [] 0).keel = true ∧ State.reset.keel = false ∧ (securing 2 64 true [] 0).ports[0]? = some (sealing 2 64 true) ∧ (sealing 2 64 true).sealReg.sstat % 4 ≠ 1 ∧ (sealing 2 64 true).up = true ∧
  (sealing 2 64 true).sealReg.slen ≤ 2 ^ 26 ∧ (securing 1 (2 ^ 26 + 1) false [] 0).ports[0]? = some (sealing 1 (2 ^ 26 + 1) false) ∧
  (sealing 1 (2 ^ 26 + 1) false).sealReg.sstat % 4 = 1 ∧ 2 ^ 26 < (sealing 1 (2 ^ 26 + 1) false).sealReg.slen ∧
  (securing 1 64 true [(0, 1), (1, 2)] 0).security.busy = (0, 1) :: [(1, 2)] ∧ (securing 1 64 true [(0, 3)] (2 ^ 20 - 1)).security.index < 2 ^ 20 ∧
  2 ^ 20 ≤ (securing 1 64 true [(0, 3)] (2 ^ 20)).security.index ∧ State.reset.security.busy = [] := by decide +kernel
/-- A state block, a length, an index of 5 and its tag, is accepted. -/
theorem witness_StateBlock (k : Nat) (h : k = 5) :
  ((leBytes 8 k ++ List.replicate 24 0 ++ leBytes 32 (Config.stateTag k).toNat).drop 32 = leBytes 32 (Config.stateTag k).toNat) ∧
  ((leBytes 8 k ++ List.replicate 24 0 ++ leBytes 32 (Config.stateTag k).toNat).drop 8).take 24 = List.replicate 24 0 := by
  subst h
  exact ⟨rfl, rfl⟩
theorem witness_Firmware :
  ({ owned 1 with security := { securityReset with fwStat := 1, fwCmd := 1, fwLen := 2 ^ 24 + 1 } } : State).security.fwStat = 1 ∧
  securityReset.fwStat ≠ 1 ∧ (owned 1).semOwner = 0 + 1 ∧ securityReset.fwLen ≤ 2 ^ 24 ∧ securityReset.image = none ∧
  ({ securityReset with image := some [] } : Security).image = some [] := by decide
/-- Whatever version an image has, the SVN floor 0 admits it. -/
theorem witness_FirmwareVersion (img : List Byte) : securityReset.svnFloor ≤ Config.imageVersion img := Nat.zero_le _
/-- The line of R301's worked table. -/
theorem test_assembly_header :
  asmBundle false false false [⟨.movi 0 5 0 none, [1000]⟩, ⟨.movi 0 6 0 none, [-3]⟩] = .ok [0xF000FF03, 0x207140E8, 0x207180FD, 0] := by decide

/-- The line of R170's worked table, and one that R16 rejects. -/
theorem test_assembly_lend :
  asmBundle false false false [⟨.movi 0 5 0 none, [1000]⟩, ⟨.movi 0 6 0 none, [-300]⟩] = .ok [0xF000FE03, 0x207140E8, 0x207180D4, 0] ∧
  asmBundle false false false [⟨.movi 0 5 0 none, [32768]⟩] = .error .fit := by decide

/-- The quotients of R300. -/
theorem test_assembly_division :
  AsmExpr.eval [] (.div (.num 7) (.num 2)) = .ok 3 ∧ AsmExpr.eval [] (.div (.num (-7)) (.num 2)) = .ok (-3) := by decide

/-- The file of R314's worked module. -/
def workedModule : List Byte :=
  leBytes 4 0x00594159 ++ leBytes 4 1 ++ leBytes 4 0x20000 ++ leBytes 4 5 ++ leBytes 48 0 ++ [1, 1, 0, 0, 0, 0, 0, 0] ++ leBytes 8 0x400200000000000C ++
    leBytes 8 0x42024000FFFFFFFD ++ leBytes 8 0x0002E02400040000 ++ leBytes 8 0x0202003000000000 ++ leBytes 8 0x8100000000000000

/-- R314: bypass X8 holds 15 at the module's EXIT. -/
theorem test_portable_worked :
  (match readModule workedModule with
    | .ok m => (match (portStart m (State.reset.setStrand zeroStrand)).run m 5 with | .exited p => p.read (.bypass 0 8) == .word 15 | _ => false)
    | .error _ => false) = true := by decide

/-- R305, R308: another MAGIC is refused. -/
theorem test_image_magic : readImage (List.replicate 64 0) = .error .magic ∧ readModule (List.replicate 64 0) = .error .header := by decide
/-- The line `X5, 0xf;?` in tokens: a comment begins at its semicolon (R298). -/
theorem test_text_tokens :
  asmTokens 20 ['X', '5', ',', ' ', '0', 'x', 'f', ';', '?'] = some [.word "X5", .sign ",", .num 15] := by decide

/-- Two slots of spec/18_program_transpose_with_fault.md in tokens: `CADD.rel.tile X20, X24` is 0xD0045460, `FBEGIN.tile F0, E` 0xD0602200. -/
theorem test_text_slots :
  ((readSlots [[.word "CADD", .sign ".", .word "rel", .sign ".", .word "tile", .word "X20", .sign ",", .word "X24"],
      [.word "FBEGIN", .sign ".", .word "tile", .word "F0", .sign ",", .word "E"]]).map fun xs => xs.map fun x => encode x.1) =
    .ok [some (0xD0045460, none), some (0xD0602200, none)] := by decide

/-- R298: a name does not spell a register, and the label of spec/18_program_transpose_with_fault.md is one. -/
theorem test_text_names : asmNameOk "x63" = false ∧ asmNameOk "BR" = false ∧ asmNameOk "loop" = true := by decide

/-! ### Beats, drains, BMZ loads and conversions: operands that meet the statements' further hypotheses -/

/-- A BANDV descriptor on V0, 64×64, its diagonal only. -/
def band : Word := BitVec.ofNat 64 (6 + 64 * 2 ^ 4 + 64 * 2 ^ 11)
theorem witness_MovingOperands :
  MovingIs (pushing 5 7 .empty) (.tile 1) 5 (fun i e => some (tileVal ((pushing 5 7 .empty).tr 1#3) i e)) ∧
  MovingIs (pushing 6 7 .empty) .gather 6 (fun _ _ => none) ∧
  (∃ A, MovingIs { pushing 9 7 (.tile (tile 9) 1) with g := zeroStrand.g.setIfInBounds 0 0x20403 } (.pattern 0) 9 A) := by
  refine ⟨.inl ⟨1, rfl, rfl, fun _ _ => rfl⟩, .inr (.inl ⟨_, rfl, rfl, rfl, ?_, ?_⟩), _, .inr (.inr ⟨0, tile 9, 1, rfl, rfl, rfl, by decide, rfl, fun _ _ => rfl⟩)⟩
  · unfold rowed; decide
  · intro i e
    show none = Option.map _ ((List.replicate 64 none)[i]?.getD none)
    rw [List.getElem?_replicate]
    split <;> rfl
theorem witness_StationaryOperands :
  (∃ B, LatchIs (pushing 5 7 (.tile (tile 5) 1)) 5 B) ∧ (∃ B, LatchIs (pushing 8 7 (.tile (tile 10) 1)) 8 B) ∧
  (∃ B, LatchIs (pushing 1 3 (.gen oneHot (vreg 3 []) 0 true)) 1 B) ∧ (∃ B, LatchIs (pushing 6 7 (.gen band (vreg 7 []) 0 false)) 6 B) ∧
  multiplies 5 ∧ multiplies 8 ∧ multiplies 1 := by
  have m : ∀ t : BitVec 4, t = 1 ∨ t = 5 ∨ t = 6 ∨ t = 8 ∨ t = 9 ∨ t = 10 → multiplies t := by
    intro t h; unfold multiplies blockTag; rcases h with h | h | h | h | h | h <;> subst h <;> decide
  refine ⟨⟨_, .inl ⟨_, _, rfl, ⟨m _ ?_, m _ ?_, .inl rfl⟩, fun _ _ => rfl⟩⟩, ⟨_, .inl ⟨_, _, rfl, ⟨m _ ?_, m _ ?_, .inr ⟨?_, ?_⟩⟩, fun _ _ => rfl⟩⟩,
    ⟨_, .inr ⟨_, _, _, _, rfl, m _ ?_, rfl, fun _ _ => rfl⟩⟩, ⟨_, .inr ⟨_, _, _, _, rfl, m _ ?_, rfl, fun _ _ => rfl⟩⟩, m _ ?_, m _ ?_, m _ ?_⟩ <;>
    first | decide | (unfold blockTag; decide)
theorem witness_GeneratedOperands :
  laneAt band 63 63 = some 0 ∧ laneAt band 0 1 = none ∧ (bitsAt band 0 4).toNat = 6 ∧ (63 : Nat) < (bitsAt band 4 7).toNat ∧
  (63 : Nat) < (bitsAt band 11 7).toNat ∧ (bitsAt oneHot 0 4).toNat = 8 ∧ (vreg 3 []).tag = 3 := by decide
/-- R91: the worked terms 0, 1, 2^-70 and -1 sum to +0; without the ones the sum is 2^-70. -/
theorem test_window_of :
  windowOf false [.num false 0 0, .num false 1 0, .num false 1 (-70), .num true 1 0] = 0 ∧ windowOf false [.num false 0 0, .num false 1 (-70)] = 0x1C800000 := by decide +kernel
/-- A drain beat's configuration of each destination: FP16 into T1 with scale and row sums, a dense tensor, mass. -/
theorem witness_DrainBeatKinds :
  let c : Word → Nat → Nat → Nat := fun w lo len => (((drainOf w 0).fcfg[0]?.getD 0).toNat) / 2 ^ lo % 2 ^ len
  let t := BitVec.ofNat 64 (2 ^ 55 + 2 ^ 50 + 5 * 2 ^ 42 + 13 * 2 ^ 38 + 2 ^ 36 + 2 ^ 27)
  let h := BitVec.ofNat 64 (4 * 2 ^ 46 + 5 * 2 ^ 42 + 2 * 2 ^ 36 + 2 ^ 30)
  let m := BitVec.ofNat 64 (7 * 2 ^ 42 + 3 * 2 ^ 36)
  (drainOf t 0).live = false ∧ (drainOf t 0).row + 8 * (drainOf t 0).beat + 8 ≤ 64 ∧
  c t 52 1 = 0 ∧ c t 38 4 < 14 ∧ c t 46 3 ≤ 4 ∧ c t 36 2 = 1 ∧ c t 50 1 = 1 ∧ c t 42 4 = 5 ∧
  c h 52 1 = 0 ∧ c h 46 3 ≤ 4 ∧ c h 36 2 = 2 ∧ c h 30 6 = 1 ∧ (tensor 0 5 (withX [])).entryOf (withX []).launch 1 = some (dense 0 5) ∧ (dense 0 5).kind = 0 ∧
  c m 52 1 = 0 ∧ c m 36 2 = 3 ∧ BitVec.ofNat 4 (c m 42 4) = 7 := by decide
/-- An SR mass drain over the sequence at 0x2000, in LIVE mode, from a source that is off. -/
def massSeq : Entry := #v[0x2000, BitVec.ofNat 64 (256 + 64 * 2 ^ 32), 0, 0, 0, 0, BitVec.ofNat 64 (3 + 7 * 2 ^ 6 + 2 * 2 ^ 10), 0]
def massDrain : Strand :=
  let st := draining 7 (BitVec.ofNat 64 (6 * 2 ^ 46 + 7 * 2 ^ 42 + 3 * 2 ^ 36 + 2 ^ 30)) 0
  { st with regs := { st.regs with sqlen := st.regs.sqlen.setIfInBounds 0 4 } }
def massState : State := { withTable [(1, massSeq)] (at0 massDrain) with
  mem := seqCells.foldl (fun m c => memWrites m c.1 (leBytes 8 c.2)) []
  stm := [⟨0, 0, 0x2000, 0, 0x5000, none, false, 0⟩]
  fields := State.reset.fields.setIfInBounds 0 { fieldOff with noiseOff := true } }
theorem witness_MassDrainWithoutNoise :
  (massCols massDrain massDrain.regs.fcfg).length = 4 ∧ massState.noiseOff (fieldOf massState.cur.tile) = true ∧
  (match massState.startDrain massDrain 0 0 8 with | .ok d => d.live | .error _ => false) = true := by decide +kernel
/-- A BMZ tensor of FP16 whose 64 rows are empty: each row group takes 32 bytes. -/
def packed : Entry := #v[0x2000, BitVec.ofNat 64 (64 + 64 * 2 ^ 32), 0, 0, 0, BitVec.ofNat 64 (4096 * 2 ^ 32), BitVec.ofNat 64 (1 + 5 * 2 ^ 6 + 2 * 2 ^ 10), 0]
def packedState : State := { withTable [(1, packed)] (at0 (withX [])) with
  mem := (List.range 16).foldl (fun m g => memWrites m (0x2000 + 2 * g) (leBytes 2 (32 + 32 * g))) [] }
theorem witness_BmzLoads :
  (∃ pl, packedState.locate (withX []) 1 12 (rowOffset none) false true false false admitVectorLoad = .ok pl ∧ pl.e.kind = 1 ∧ pl.frame = 0x2000) ∧
  (∃ pl, packedState.locate (withX []) 1 12 (rowOffset none) true true false false admitTileLoad = .ok pl ∧ isSq pl.e.fmt = false) ∧
  frameAgrees (fun k => if k < 4096 then BitVec.ofNat 8 (seen packedState (withX []) (some (0x2000 + k)) 1) else 0) 2 :=
  ⟨⟨_, rfl, rfl, rfl⟩, ⟨_, rfl, rfl⟩, by unfold frameAgrees; decide +kernel⟩
theorem witness_BlockAndFedConversions :
  blockTag 8 ∧ rowed ((tagged 5 0).tr 0#3).tag ∧ (8#4) ≠ ((tagged 5 0).tr 0#3).tag ∧ (5#3) ≠ 7 ∧ rowed 5 ∧ (5#4) ≠ ((tagged 1 0).tr 0#3).tag ∧
  1 ≤ ((tagged 7 0).vr 0#5).tag.toNat ∧ ((tagged 7 0).vr 0#5).tag.toNat ≤ 7 ∧ (at0 (tagged 5 0)).strand = some (tagged 5 0) := by
  refine ⟨?_, ?_, ?_, ?_, ?_, ?_, ?_, ?_, rfl⟩ <;> first | decide | (unfold rowed; decide) | (unfold blockTag; decide)

/-! ### Further hypotheses of the engines, links and phases -/

theorem witness_FurtherWindows :
  zBits (withZ [(0, 2), (1, 0xBFFFFFFC), (4, 2)] []) 1 0 64 < 0xC0000000 ∧ zBits (withZ [(0, 2), (1, 0xBFFFFFFC), (4, 2)] []) 0 0 64 % 2 ^ 2 ≠ 0 ∧
  ((pageState []).pageState pageableEntry 0 0).1 = 0 ∧ (0x05 : Nat) ∈ failureCodes ∧ (0x30 : Nat) ∉ failureCodes := by decide +kernel
/-- An STLD of a page that a pass has found in use. -/
theorem witness_StldWaits :
  let c := { passing 3 [] [] with op := 7 }
  let s := passState [passing 1 [0] [2], c]
  s.underWay 3 7 = some c ∧ s.stldWaits c = true ∧ (passState [passing 1 [] [], c]).stldWaits c = false := by decide +kernel
/-- A gather whose row meets poison. -/
theorem witness_GatherMeetsPoison :
  poisonMet [] { tensor 0 5 (gathering 4) with poison := [0x400] } [(0x2000, 128)] = some 0x400 := by decide
/-- A link whose request lane is stopped, and a link that trains in a field that is down. -/
theorem witness_StoppedLanes :
  (linked ⟨1, 0, false⟩ (-1)).linkStopped 35 0 = true ∧ (linked ⟨0, 0, false⟩ (-1)).linkStopped 35 3 = false ∧
  (linked ⟨0, 0, true⟩ 0).fieldUp (35 / 6) = false ∧
  ({ linked ⟨0, 0, true⟩ 0 with fields := State.reset.fields.setIfInBounds 5 { fieldOff with phase := .up } } : State).fieldUp (35 / 6) = true := by decide +kernel
/-- Field 2 lost while field 3 trains to it: their order holds nothing of it, and field 3 alone trains. -/
theorem witness_TrainingNeighbour :
  (2 : Nat) ∉ (phases .up .off .up .training [3]).bringup ∧ 3 ∈ neighbours (max 0 2) ∧ (phases .up .off .up .training [3]).phaseOf 3 = .training ∧
  ((phases .up .off .up .training [3]).fields[3]?.map (·.trained)) = some [] ∧
  ∀ k < 6, (phases .up .off .up .training [3]).phaseOf k = .training → k = 3 := by decide
/-- A saved strand of another identifier at the same frame address is another one. -/
theorem test_saved_by_identifier :
  ({ State.reset with saved := [(savedKey 1 0x100000, withX [(5, 1)])] } : State).savedAt 0 0x100000 = none ∧
  ({ State.reset with saved := [(savedKey 1 0x100000, withX [(5, 1)])] } : State).savedAt 1 0x100000 = some (withX [(5, 1)]) := ⟨rfl, rfl⟩

/-! ### Hypotheses of the leave, nest, repetition and engine clauses -/

/-- A seat whose strand's record is at 0x3000 and that is to leave, its turn next. -/
def leavingStrand (w : Wait) (team : Nat) : Strand := { withX [] with wait := w, recAddr := 0x3000, team := team }
def leaving (w : Wait) (team : Nat) (cells : List (Nat × Nat)) : State :=
  { part (upWith [] []) cells with
    seats := [(0, leavingStrand w team)]
    inputs := [.seat ⟨0, 0⟩]
    launches := [launchOne .open_ 1 0] }
/-- A team of three members at 0x2000 and a pool of 64 records from 0x3000, three of them taken. -/
def teamAndPool : List (Nat × Nat) :=
  [(0x2000, 0), (0x2010, 3), (idWord 0 8, 0x4000), (0x4000, 0x3000), (0x4008, 64), (0x4010, 0x5000), (0x5000, 7)]
theorem witness_Leaves (w : Wait) (team : Nat) : Leaves (leaving w team teamAndPool) ⟨0, 0⟩ [] (leavingStrand w team) :=
  { input := rfl, seat := rfl, place := by decide, order := rfl, clock := rfl, free := ⟨rfl, rfl, rfl⟩, landed := ⟨rfl, rfl, rfl, rfl, rfl⟩,
    quiet := rfl, memory := (by unfold State.memoryCanonical; decide +kernel : (part (upWith [] []) teamAndPool).memoryCanonical) }
theorem witness_ParkLeaves :
  let s := leaving (.park 0x2000 (some 1)) 0xFFFFFFFF teamAndPool
  (leavingStrand (.park 8 none) 0).recAddr % 64 = 0 ∧ s.translate 0 0 0x3000 true = some 0x3000 ∧ s.translate 0 0 0x2000 false = some 0x2000 ∧
  s.natAt 0x2000 8 < 1 ∧ s.watchRoom 0x2000 = true ∧ (0 : Nat) ≤ s.natAt 0x2000 8 := by decide +kernel
theorem witness_ExitLeaves :
  let s := leaving .exit 0x80 teamAndPool
  s.translate 0 0 (0x80 * 64) true = some 0x2000 ∧ s.natAt 0x2000 8 + 1 < 2 ^ 64 ∧ s.launchOf 1 = some (launchOne .open_ 1 0) ∧
  s.pool 0 (s.idRecord 0 8) = some (0x3000, 64, 0x5000, 0x4018) ∧ s.translate 0 0 0x5000 true = some 0x5000 ∧
  (s.teamAt 0x2000).members = 3 ∧ (s.teamAt 0x2000).arrivals + 1 ≠ (s.teamAt 0x2000).base + (s.teamAt 0x2000).members ∧
  (let t := leaving .exit 0x80 ((0x2000, 2) :: teamAndPool.tail)
   (t.teamAt 0x2000).arrivals + 1 = (t.teamAt 0x2000).base + (t.teamAt 0x2000).members ∧ (t.teamAt 0x2000).gang = false) := by decide +kernel

/-- Nest 2: level 0 with two trips, an entry, two body bundles and an exit, and level 1 inside it or not, whose trip count is X7 and whose body is
one bundle; level 2 with two body bundles only. -/
def nestWord (inner : Nat) : Nat := 2 * 2 ^ 212 + 2 ^ 197 + 2 * 2 ^ 179 + 2 ^ 164 + inner * 2 ^ 252 + (3 + 5 * 2 ^ 16)
def nestStore (inner : Nat) : Memory :=
  memWrites (memWrites (memWrites [] 384 (leBytes 32 (nestWord inner))) 416 (leBytes 32 (2 ^ 250 + 7 * 2 ^ 244 + 2 ^ 179))) 448
    (leBytes 32 (2 * 2 ^ 212 + 2 * 2 ^ 179))
def nesting (x7 : Word) (ls : List SpoolLevel) : Regs :=
  { zeroRegs with x := zeroRegs.x.setIfInBounds 7 x7, spool := some ⟨2, 0x40, ls, false, none, zeroRegs.x, 0, []⟩ }
theorem witness_NestRun :
  let field : Nat → Nat → Nat → Nat := fun w lo len => w / 2 ^ lo % 2 ^ len
  let W := levelWord (nestStore 0) 2 0
  let I := levelWord (nestStore 1) 2 0
  let V := levelWord (nestStore 1) 2 1
  let U := levelWord (nestStore 1) 2 2
  zeroRegs.rep = none ∧ (nesting 4 []).spool.isSome = true ∧ trips W (nesting 4 []) = 2 ∧ trips V (nesting 4 []) = 4 ∧ trips V (nesting 0 []) = 0 ∧
  field W 197 6 = 1 ∧ field U 197 6 = 0 ∧ field U 179 9 = 2 ∧ field W 179 9 = 2 ∧ field W 164 6 = 1 ∧ field U 164 6 = 0 ∧ field W 252 1 = 0 ∧
  field I 252 1 = 1 ∧ field V 197 6 = 0 ∧ field V 179 9 = 1 ∧ trips U (nesting 0 []) = 2 := by decide +kernel
theorem test_nest_iterates :
  let r := (nesting 4 [⟨0, 2, 0, 1, 1, true⟩]).nestOn (nestStore 0) .none true (nesting 4 [])
  (r.spool.map (·.levels)) = some [⟨0, 2, 1, 1, 0, false⟩] ∧ r.xAt 5 = 3 := by decide +kernel
theorem witness_Repetitions : (1 + 1 < ({ zeroRegs with rep := some 1, repN := 4 } : Regs).repN) ∧ ({ zeroRegs with rep := some 3, repN := 4 } : Regs).repN ≤ 3 + 1 := by
  decide
/-- R172: the worked REP, X40 to X43 cleared in turn, at repetition j. -/
def reppingBytes : List Byte := leBytes 4 0xF1040400 ++ leBytes 4 0x207A0000 ++ leBytes 4 0x20028A01 ++ leBytes 4 0
def repping (j : Option Nat) : State :=
  let s := State.reset.withFetchWord 32 0
  { s with
    images := patchCode 0 reppingBytes s.images
    seats := s.seats.map fun (k, st) => (k, { st with regs := { st.regs with rep := j } }) }
theorem witness_RepeatedBundle (j : Option Nat) : ∃ st, (repping j).inputs = .seat ⟨0, 0⟩ :: [] ∧ (repping j).strandAt ⟨0, 0⟩ = some st ∧ st.wait = .none ∧
  st.idle = none ∧ st.held = none ∧ st.swap = none ∧ st.stall = 0 ∧ st.ctl = .none ∧ st.chk = false ∧ st.regs.spool = none ∧ st.regs.branch = none ∧
  st.regs.loop = none ∧ st.pend = [] ∧ st.drains = [] ∧ st.adds = [] ∧ st.drawn = [] ∧ st.regs.xrot = 0 ∧ st.regs.rep = j :=
  ⟨_, rfl, rfl, rfl, rfl, rfl, rfl, rfl, rfl, rfl, rfl, rfl, rfl, rfl, rfl, rfl, rfl, rfl, rfl⟩
theorem witness_RepeatedFetch : ∃ st, (repping (some 1)).strandAt ⟨0, 0⟩ = some st ∧ (repping (some 1)).fetch st = some reppingBytes ∧
  (repping (some 1)).codeError st = none ∧ (repping (some 1)).clockRuns 0 = true := ⟨_, rfl, by decide +kernel, rfl, rfl⟩

/-- A source without its tag; a mass drain whose words could not be had; adds that a pass holds back. -/
theorem witness_OtherTags :
  ¬ (rowed ((tagged 3 0).tr 0#3).tag ∨ blockTag ((tagged 3 0).tr 0#3).tag) ∧ ¬ (1 ≤ ((tagged 0 0).vr 0#5).tag.toNat ∧ ((tagged 0 0).vr 0#5).tag.toNat ≤ 7) := by
  constructor
  · unfold rowed blockTag; decide
  · decide
theorem witness_MassRefused :
  massDrain.noise.mode ≠ 2 ∧ massCols massDrain massDrain.regs.fcfg ≠ [] ∧ massRefused massState (8 * (massCols massDrain massDrain.regs.fcfg).length) ≠ none ∧
  massDrain.noise.mode = 0 ∧ massDrain.drawn = [] ∧ (at0 massDrain).noiseOff (fieldOf (at0 massDrain).cur.tile) = false := by decide +kernel
def holding (as : List MassAdd) : Cmd := { passing 1 [0] [] with frames := [(0x5000, 8256)], adds := as }
theorem witness_HeldAdds :
  let m : MassAdd := ⟨0x5048, 0, 0, 0, 8, 0⟩
  ({ State.reset with cmds := [holding []] } : State).massHeld m = true ∧ ({ State.reset with cmds := [holding [m]] } : State).massHeld m = false ∧
  (∃ c ∈ ({ State.reset with cmds := [holding []] } : State).cmds, m ∉ c.adds ∧ ∃ p ∈ c.frames, p.1 ≤ m.addr ∧ m.addr < p.1 + p.2) := by
  refine ⟨by decide, by decide, _, .head _, by decide, (0x5000, 8256), .head _, by decide, by decide⟩

/-- An invalid pool with its header at 0x4000. -/
theorem witness_InvalidPool :
  let s := ruled (handlers 0 63) (withX [])
  claimKind (s.claim 0 (s.idRecord 0 4)) = 2 ∧ s.idRecord 0 4 ≠ 0 ∧ s.translate 0 0 (s.idRecord 0 4 + 24) true = some 0x4018 ∧ s.natAt 0x4018 8 + 1 < 2 ^ 64 := by
  decide +kernel

/-! ### What engine commands write -/

/-- A part with every field released and cells of memory; a command with the Z registers given. -/
def upCells (cells : List (Nat × Nat)) : State := released { State.reset with mem := cells.foldl (fun m c => memWrites m c.1 (leBytes 8 c.2)) [] }
def withZs (op : Nat) (z : List (Nat × Nat)) : Cmd :=
  { copied with op := op, z := z.foldl (fun v p => v.setIfInBounds p.1 (BitVec.ofNat 64 p.2)) (Vector.replicate 32 0) }
theorem released_reaches (s : State) (a : Nat) (h : a < 0xC0000000) : (released s).reachable a = true := by
  have t : targetOf a = 3 := by unfold targetOf; exact if_pos (by omega)
  have f : a / 0x800000 / 64 < 6 := by omega
  have g : (released s).fieldOpen (a / 0x800000 / 64) = true := by
    generalize a / 0x800000 / 64 = k at f
    match k, f with
    | 0, _ => rfl
    | 1, _ => rfl
    | 2, _ => rfl
    | 3, _ => rfl
    | 4, _ => rfl
    | 5, _ => rfl
  have v : servingField a = some (a / 0x800000 / 64) := by simp [servingField, t, sliceEnd, h]
  simp only [State.reachable, v, g]
theorem witness_Quiet : Quiet (released matrix) :=
  { memory := by unfold State.memoryCanonical; decide +kernel, clean := rfl, open_ := released_reaches matrix, free := rfl }
/-- R112, R126, R127: a page loaded and locked, then dropped; a fork of nothing and of one shared page. -/
theorem witness_SequenceCommands :
  let c := withZs 7 [(16, 0x2000), (17, 2 ^ 32 + 2 ^ 63)]
  let s := upCells seqCells
  let two := upCells (seqCells ++ [(0x2000, 300), (0x2030, 512 * 2 ^ 32), (0x2130, 512 * 2 ^ 32), (0x2118, 0x3100)])
  (∃ h, headerAt s c true 0x2000 = .ok h ∧ h.remap = 0 ∧ 256 * 0 < h.cap ∧
    s.wordGlobal (fieldOf (homeTile h.addr)) 0 (h.ptab + 8 * 0) = some (4096 * 5 + 1)) ∧ c.zf 17 42 21 = 0 ∧ c.zf 17 32 10 = 1 ∧
  s.translate 0 0 0x2000 true = some 0x2000 ∧
  ∃ p q, headerAt two (withZs 5 []) false 0x2000 = .ok p ∧ headerAt two (withZs 5 []) true 0x2100 = .ok q ∧ 256 ≤ p.len ∧ 256 ≤ q.cap ∧ p.psize = q.psize ∧
    q.len = 0 ∧ two.pageFrame 0 p 0 = some 0x5000 ∧ two.frameAddr 0 p 0 = some 0x5000 ∧ two.translate 0 0 q.ptab true = some 0x3100 ∧ q.addr = 0x2100 ∧
    two.natAt 0x5000 8 + 1 < 2 ^ 64 :=
  ⟨⟨_, rfl, by decide +kernel, by decide +kernel, by decide +kernel⟩, by decide +kernel, by decide +kernel, rfl, _, _, rfl, rfl, by decide +kernel, by decide +kernel,
    by decide +kernel, by decide +kernel, by decide +kernel, by decide +kernel, by decide +kernel, by decide +kernel, by decide +kernel⟩
/-- A pass of slots 100 to 255 over the page, and a Ballast pass that keeps ten slots and a tail of twenty. -/
def retirePass : Cmd := withZs 6 [(16, 0x2000), (17, 100 + 156 * 2 ^ 32), (21, 0x8000)]
def ballastPass : Cmd := withZs 9 [(16, 0x2000), (17, 0x3F800000), (18, 10), (19, 20), (21, 0x8000)]
theorem witness_OnePagePass :
  let s := upCells (seqCells ++ [(0x2000, 200), (0x5000, 1)])
  (∃ h, passHeader s retirePass = .ok h ∧ passPageList retirePass h = [0] ∧ s.pagePlace 0 h 0 = some (0x5000, none) ∧ h.addr = 0x2000 ∧ h.payload = 16) ∧
  (∃ h, passHeader s ballastPass = .ok h ∧ passPageList ballastPass h = [0] ∧ h.remap = 0 ∧ 256 * 0 < h.cap ∧ s.pagePlace 0 h 0 = some (0x5000, none)) ∧
  s.natAt 0x5008 8 = 0 ∧ s.natAt 0x5000 8 ≤ 1 ∧ s.natAt 0x2010 8 + 256 < 2 ^ 64 ∧ retirePass.zn 21 = 0x8000 ∧ apart 0x5000 8256 0x2000 64 ∧
  apart 0x5000 8256 0x8000 64 ∧ apart 0x2000 64 0x8000 64 := by
  refine ⟨⟨_, rfl, ?_, ?_, ?_, ?_⟩, ⟨_, rfl, ?_, ?_, ?_, ?_⟩, ?_, ?_, ?_, ?_, ?_, ?_, ?_⟩ <;> first | decide +kernel | (unfold apart; decide)
/-- A page's pass that has started keeps the length it read. -/
theorem witness_PassLength : ∃ h, passHeader (upCells (seqCells ++ [(0x2000, 200)])) { retirePass with length := some 150 } = .ok h ∧ h.len = 150 := ⟨_, rfl, rfl⟩
/-- An element of the worked copy may move before the others; one of a copy that overlaps itself may not. -/
theorem witness_MayMove :
  matrix.mayMove copied 3 = true ∧ matrix.mayMove (withZs 0 [(0, 0x1000), (1, 0x1001), (2, 4 + 2 ^ 32)]) 1 = false := by decide +kernel
/-- A POOL of rows 0 and 2 of a table that one tile owns: FP16 rows, 64 columns. -/
def poolTensor (fmt rank home base rows : Nat) : Entry :=
  #v[BitVec.ofNat 64 base, BitVec.ofNat 64 (rows + 64 * 2 ^ 32), 0, BitVec.ofNat 64 home, 0, 0, BitVec.ofNat 64 (fmt * 2 ^ 6 + rank * 2 ^ 10), 0]
def poolPart : State := { upCells [(0x20000, 2 * 2 ^ 32), (0x30000, 2), (0x8000, 0x40003C00), (0x8100, 0x44003C00)] with
  launches := [launch1]
  images := [(0, ⟨0, 0x1000, [], [], [(1, poolTensor 5 2 (2 ^ 62) 0x8000 4), (2, poolTensor 4 1 0 0x20000 64), (3, poolTensor 7 2 0 0x10000 1),
    (4, poolTensor 4 1 0 0x30000 64)], []⟩)] }
def pooling : Cmd := withZs 4 [(8, 1 + 2 * 2 ^ 6 + 3 * 2 ^ 12 + 4 * 2 ^ 18 + 2 * 2 ^ 32), (9, 2 ^ 32), (10, 0)]
theorem witness_Pool :
  poolPart.entryOf 1 (pooling.zf 8 0 6) = some (poolTensor 5 2 (2 ^ 62) 0x8000 4) ∧ poolPart.entryOf 1 (pooling.zf 8 6 6) = some (poolTensor 4 1 0 0x20000 64) ∧
  poolPart.entryOf 1 (pooling.zf 8 12 6) = some (poolTensor 7 2 0 0x10000 1) ∧ poolPart.entryOf 1 (pooling.zf 8 18 6) = some (poolTensor 4 1 0 0x30000 64) ∧
  Entry.map (poolTensor 5 2 (2 ^ 62) 0x8000 4) = 1 ∧ Entry.home (poolTensor 5 2 (2 ^ 62) 0x8000 4) % 512 = 0 ∧
  poolList poolPart pooling (poolTensor 4 1 0 0x20000 64) 2 0 = .ok [0, 2] ∧ poolList poolPart pooling (poolTensor 4 1 0 0x30000 64) 1 0 = .ok [2] ∧
  (∀ i ∈ [0, 2], i < Entry.extRow (poolTensor 5 2 (2 ^ 62) 0x8000 4)) ∧ poolPart.localElem true (poolTensor 7 2 0 0x10000 1) 0 0 0 = some 0x10000 :=
  ⟨rfl, rfl, rfl, rfl, by decide, by decide, by decide +kernel, by decide +kernel, by decide, by decide +kernel⟩
theorem witness_PoolRows : (match poolRows poolPart pooling (poolTensor 5 2 (2 ^ 62) 0x8000 4) 0 [0, 2] with | .ok _ => true | .error _ => false) = true := by
  decide +kernel
/-- A multicast of 24 bytes to tiles 0 and (1, 1), an expanded frame of two elements, and a put and a get within this device. -/
def multicast : Cmd := withZs 1 [(0, 0x1000), (1, 0x2000), (2, 0x0000000300000002), (4, 2 + 0x00210000)]
def expanding : Cmd := withZs 2 [(0, 0x1000), (1, 0x10000), (2, 1 + 2 ^ 32), (3, 560), (4, 0x50)]
def bmzFrame : List Byte :=
  ((List.range 16).map fun g => leBytes 2 (if g = 0 then 32 else 80 + 32 * (g - 1))).flatten ++ leBytes 8 3 ++ leBytes 2 0x3C00 ++ leBytes 2 0x4000
theorem witness_Multicast :
  multicast.zf 4 2 1 = 0 ∧ multicast.zn 3 = 0 ∧ multicast.zn 5 = 0 ∧ copymMaskOk multicast = true ∧ multicast.moved = [] ∧
  2 ^ multicast.zf 4 0 2 * (multicast.zf 2 0 32 * multicast.zf 2 32 32) = 24 ∧ multicast.zn 1 / 0x800000 < 384 ∧ multicast.zf 4 16 16 = 0x21 ∧
  tileAt (tileX 0 + 5 % 4) (tileY 0 + 5 / 4) = 9 := by decide +kernel
theorem witness_Expand :
  let b : Nat → Byte := fun k => if k < 560 then memRead (memWrites [] 0x1000 bmzFrame) (0x1000 + k) else 0
  expanding.zf 2 0 32 = 1 ∧ expanding.zf 4 4 4 = 5 ∧ expanding.zf 3 0 32 = 560 ∧ rowStart b 2 15 4 ≤ 560 ∧ frameAgrees b 2 := by
  unfold frameAgrees
  decide +kernel
def ofThisDevice : State := { upCells [] with fabric := { State.reset.fabric with
  up := -1
  win := State.reset.fabric.win.setIfInBounds 0 (BitVec.ofNat 64 (2 ^ 63 + 511 * 2 ^ 32)) } }
def putting (op r : Nat) : Cmd := withZs op [(24, 0x1000), (25, 0x9000), (26, 64 * 2 ^ 32), (27, r)]
theorem witness_Put :
  fabricFail ofThisDevice (putting 10 0xA000) = none ∧ (putting 10 0xA000).zf 26 0 9 = ofThisDevice.fabric.self ∧ (putting 10 0).zn 27 = 0 ∧
  ofThisDevice.translate 0 0 0xA000 true = some 0xA000 ∧ ofThisDevice.natAt 0xA000 8 + 1 < 2 ^ 64 := by decide +kernel
/-- A command of this device whose contribution comes to window 3, as the first and as the last. -/
def contributing : Cmd := withZs 12 [(24, 0x1000), (25, 0x40000), (26, 4 * 2 ^ 32), (27, 0xA000), (28, 7)]
def contributingTo (cs : List Contribution) : State := { reducing 2 cs with
  cmds := [contributing]
  fields := (released State.reset).fields
  fabric := { (reducing 2 cs).fabric with up := -1, win := State.reset.fabric.win.setIfInBounds 0 (BitVec.ofNat 64 (2 ^ 63 + 511 * 2 ^ 32)) } }
theorem witness_OwnContribution :
  (contributingTo []).underWay 1 12 = some contributing ∧ (contributingTo []).laneStopped contributing 2 = false ∧ fabricFail (contributingTo []) contributing = none ∧
  contributing.zf 26 0 9 = (contributingTo []).fabric.self ∧ (contributingTo []).redMatches 3 contributing = true ∧
  ((contributingTo []).round 3).waiting = [] ∧ ((contributingTo []).round 3).contribs = [] ∧ (contributingTo []).redField 3 2 16 10 = 2 ∧
  ((contributingTo [⟨4, none, 0, [0, 0, 0, 0]⟩]).round 3).contribs.length + 1 = 2 ∧ (contributingTo []).knownSequences = [] := by decide +kernel
theorem witness_OwnContributionReads : ∃ bs, (contributingTo []).engRead contributing.field contributing.asid (contributing.zn 24) (contributing.zf 26 32 32) = .ok bs :=
  ⟨_, rfl⟩
theorem witness_RoundCounter : (contributingTo []).translate 0 0 0xA000 true = some 0xA000 ∧ (contributingTo []).natAt 0xA000 8 + 1 < 2 ^ 64 := by decide +kernel

/-! ### A sweep, a quiesce and an attestation with something to do -/

/-- A launch of a local stamped tensor of 70 by 66 words on tile 0, at step 2^14. -/
def stampedTensor : Entry := #v[0x8000, BitVec.ofNat 64 (70 + 66 * 2 ^ 32), 0, 0, 0, 0x3F000000, BitVec.ofNat 64 (2 + 2 * 2 ^ 10), 0]
def sweeping : State := { part (upWith [] []) [(idWord 0 0, 2 ^ 14)] with
  launches := [{ launch1 with tiles := [0] }]
  images := [(0, ⟨0, 0x1000, [], [], [(1, stampedTensor)], []⟩)] }
theorem witness_SweepWords :
  (0 + 1) * 2 ^ 14 ≤ sweeping.stepOf 0 ∧ sweeping.liveEntries 0 = [({ launch1 with tiles := [0] }, 1, stampedTensor)] ∧ Entry.kind stampedTensor = 2 ∧
  Entry.map stampedTensor = 0 ∧ Entry.rank stampedTensor = 2 ∧ Entry.pageable stampedTensor = false := by decide +kernel
theorem witness_TierWord : errorField (2 * 2 ^ 60) = none ∧ targetOf (2 * 2 ^ 60) ≠ 2 ∧ errorField 0x20000000 = some 1 := by decide +kernel
/-- A strand of identifier 0 on a seat when it is quiesced, with a frame and without one. -/
def quiesced (taken : Nat) : State := { ruled (handlers taken 64) (leavingStrand .none 0xFFFFFFFF) with semOwner := 1 }
theorem witness_QuiesceWithASeat (n : Nat) :
  (quiesced n).strandAt ⟨0, 0⟩ = some (leavingStrand .none 0xFFFFFFFF) ∧ (∀ x ∈ (quiesced n).seats, x.2.asid = 0 → x.1 = SeatId.key ⟨0, 0⟩) ∧
  rising (quiesced n).seats = true := ⟨rfl, fun x h _ => by rw [List.mem_singleton.mp h]; rfl, rfl⟩
/-- What a claim of a frame answers, by name, once an invalid pool counts as one without a clear bit. -/
theorem witness_QuiesceFrames : claimKind ((quiesced 0).claimFrame 0) = 0 ∧ claimKind ((quiesced (2 ^ 64 - 1)).claimFrame 0) = 1 := by decide +kernel
theorem witness_LanesStopped : (linked ⟨2, 0, false⟩ (-1)).lanesStopped 0x23000 8 1 = true ∧ (linked ⟨0, 0, false⟩ (-1)).lanesStopped 0x23000 8 1 = false := by
  decide +kernel
theorem witness_AttestedRanges : (0x10000 : Nat) + 2948 ≤ 0x20000 ∧ State.reset.memoryCanonical := ⟨by decide, rfl⟩
end Sys2Proof.Tests
end

section
/-!
SUPPORT. A slot that acts (R164, R165): the strand it leaves in the words of the statements, one lemma per form of slot.
-/

namespace Sys2Proof.Spec

open Sys2Proof.Machine

variable {s : State} {st : Strand} {g : BitVec 4}

/-- A slot that acts finds no trap left to be settled. -/
theorem Acts.settled (h : Acts s st g) : s.quiet := .inl h.quiet

theorem land_eq_lands (st : Strand) (l : Nat) (r : Res) : st.land l r = lands st l [r] := rfl

@[simp] theorem lands_nil (st : Strand) (l : Nat) : lands st l [] = st := by simp [lands]

theorem landX_eq_lands (st : Strand) (l : Nat) (d : BitVec 6) (v : Word) : st.landX l d v = lands st l (toX st d v) := by
  by_cases hd : d.toNat = 0
  · simp [Strand.landX, toX, hd]
  · simp only [Strand.landX, toX, hd, if_false, land_eq_lands, physX]

variable {i : Instr} {l : Nat} {d a b : BitVec 6} {v : Word}

theorem becomes_of_strandSlot {f : Strand → Strand} {st' : Strand} (h : Acts s st g) (he : exec i s = strandSlot g f s)
    (hf : f st = st') : becomes i s st' :=
  he.trans (hf ▸ strandSlot_on h.seat h.guard h.settled)

theorem becomes_of_checkedSlot {f : Strand → Except Trap Strand} {st' : Strand} (h : Acts s st g) (he : exec i s = checkedSlot g f s)
    (hf : f st = .ok st') : becomes i s st' :=
  he.trans (checkedSlot_on h.seat h.guard h.settled hf)

theorem traps_of_checkedSlot {f : Strand → Except Trap Strand} {t : Trap} (h : ActsInBundle s st g) (he : exec i s = checkedSlot g f s)
    (hf : f st = .error t) : traps i s t :=
  he.trans (checkedSlot_trap h.seat h.guard h.bundle hf)

theorem becomes_of_xrSlot {f : Word → Word → Word} (h : Acts s st g) (he : exec i s = xrSlot l f g d a b s)
    (hv : f (st.xr a) (st.xr b) = v) : becomes i s (lands st l (toX st d v)) :=
  becomes_of_strandSlot h he (hv ▸ landX_eq_lands ..)

theorem becomes_of_xiSlot {f : Word → Word} (h : Acts s st g) (he : exec i s = xiSlot f g d a s) (hv : f (st.xr a) = v) :
    becomes i s (lands st 1 (toX st d v)) :=
  becomes_of_strandSlot h he (hv ▸ landX_eq_lands ..)

end Sys2Proof.Spec
end

section
/-!
SUPPORT. The values of the scalar operations (R185 to R188): the model's function of the operands is the number that the rule names.
-/

namespace Sys2Proof.Spec

open Sys2Proof.Machine

/-! ### Bit fields (R2) -/

theorem toNat_bitsAt_zero {w : Nat} (x : BitVec w) (len : Nat) : (bitsAt x 0 len).toNat = x.toNat % 2 ^ len := by
  simp [bitsAt]

theorem shiftCount_eq (y : Word) : y.toNat % 64 = (bitsAt y 0 6).toNat := (toNat_bitsAt_zero y 6).symm

theorem zext_eq_ofNat {w : Nat} (x : BitVec w) : zext x = BitVec.ofNat 64 x.toNat := (BitVec.ofNat_toNat 64 x).symm

theorem sext_eq_ofInt {w : Nat} (x : BitVec w) : sext x = BitVec.ofInt 64 x.toInt := rfl

theorem sext_low_word (x : Word) : sext (x.setWidth 32) = BitVec.ofInt 64 (bitsAt x 0 32).toInt := by
  rw [sext_eq_ofInt, bitsAt, BitVec.setWidth_eq_extractLsb' (by decide)]

theorem immXi_eq_xiValue (x : Option (BitVec 8)) (i : BitVec 8) : immXi x i = xiValue x i := by
  cases x <;> rfl

/-! ### Sums, products and shifts (R185, R187) -/

variable (x y : Word)

theorem sub_eq_ofInt : x - y = BitVec.ofInt 64 (x.toInt - y.toInt) := by
  rw [← BitVec.ofInt_toInt (x := x - y), BitVec.toInt_sub]
  exact BitVec.eq_of_toInt_eq (by simp)

theorem mul_eq_ofNat : x * y = BitVec.ofNat 64 (x.toNat * y.toNat) := by simp [BitVec.ofNat_mul]

theorem shiftLeft_eq_ofNat (n : Nat) : x <<< n = BitVec.ofNat 64 (x.toNat * 2 ^ n) :=
  BitVec.eq_of_toNat_eq (by simp [Nat.shiftLeft_eq])

theorem ushiftRight_eq_ofNat (n : Nat) : x >>> n = BitVec.ofNat 64 (x.toNat / 2 ^ n) := by
  rw [← Nat.shiftRight_eq_div_pow, ← BitVec.toNat_ushiftRight, BitVec.ofNat_toNat, BitVec.setWidth_eq]

theorem sshiftRight_eq_ofInt (n : Nat) : x.sshiftRight n = BitVec.ofInt 64 (x.toInt / 2 ^ n) := by
  rw [BitVec.sshiftRight_eq, Int.shiftRight_eq_div_pow, Nat.cast_pow, Nat.cast_ofNat]

/-! ### Division (R186) -/

theorem divSigned_eq : divSigned x y = if y = 0 then BitVec.allOnes 64 else BitVec.ofInt 64 (x.toInt.tdiv y.toInt) := by
  have quotient : x.sdiv y = BitVec.ofInt 64 (x.toInt.tdiv y.toInt) := by
    rw [← BitVec.ofInt_toInt (x := x.sdiv y), BitVec.toInt_sdiv]
    exact BitVec.eq_of_toInt_eq (by simp)
  rw [divSigned, quotient]; rfl

theorem divUnsigned_eq : divUnsigned x y = if y = 0 then BitVec.allOnes 64 else BitVec.ofNat 64 (x.toNat / y.toNat) := by
  rw [divUnsigned, BitVec.udiv_def]; rfl

theorem remSigned_eq : remSigned x y = if y = 0 then x else BitVec.ofInt 64 (x.toInt - y.toInt * x.toInt.tdiv y.toInt) := by
  have remainder : x.srem y = BitVec.ofInt 64 (x.toInt - y.toInt * x.toInt.tdiv y.toInt) := by
    rw [← Int.tmod_def, ← BitVec.toInt_srem, BitVec.ofInt_toInt]
  rw [remSigned, remainder]

theorem remUnsigned_eq : remUnsigned x y = if y = 0 then x else BitVec.ofNat 64 (x.toNat - y.toNat * (x.toNat / y.toNat)) := by
  rw [remUnsigned, BitVec.umod_def, Nat.mod_eq_sub]

/-! ### The lesser and the greater (R185) -/

theorem signed_min_eq : (if x.slt y then x else y) = BitVec.ofInt 64 (min x.toInt y.toInt) := by
  by_cases h : x.slt y
  · rw [if_pos h, min_eq_left (BitVec.slt_iff_toInt_lt.mp h).le, BitVec.ofInt_toInt]
  · rw [if_neg h, min_eq_right (not_lt.mp (mt BitVec.slt_iff_toInt_lt.mpr h)), BitVec.ofInt_toInt]

theorem signed_max_eq : (if x.slt y then y else x) = BitVec.ofInt 64 (max x.toInt y.toInt) := by
  by_cases h : x.slt y
  · rw [if_pos h, max_eq_right (BitVec.slt_iff_toInt_lt.mp h).le, BitVec.ofInt_toInt]
  · rw [if_neg h, max_eq_left (not_lt.mp (mt BitVec.slt_iff_toInt_lt.mpr h)), BitVec.ofInt_toInt]

theorem unsigned_min_eq : (if x < y then x else y) = BitVec.ofNat 64 (min x.toNat y.toNat) := by
  by_cases h : x < y
  · rw [if_pos h, min_eq_left (BitVec.lt_def.mp h).le, BitVec.ofNat_toNat, BitVec.setWidth_eq]
  · rw [if_neg h, min_eq_right (not_lt.mp (mt BitVec.lt_def.mpr h)), BitVec.ofNat_toNat, BitVec.setWidth_eq]

theorem unsigned_max_eq : (if x < y then y else x) = BitVec.ofNat 64 (max x.toNat y.toNat) := by
  by_cases h : x < y
  · rw [if_pos h, max_eq_right (BitVec.lt_def.mp h).le, BitVec.ofNat_toNat, BitVec.setWidth_eq]
  · rw [if_neg h, max_eq_left (not_lt.mp (mt BitVec.lt_def.mpr h)), BitVec.ofNat_toNat, BitVec.setWidth_eq]

/-! ### Counts of bits (R185) -/

theorem testBit_comp_succ (n : Nat) : n.testBit ∘ Nat.succ = (n / 2).testBit := funext fun i => Nat.testBit_succ n i

theorem lowestSet_eq_find (k n : Nat) : lowestSet k n = ((List.range k).find? n.testBit).getD k := by
  induction k generalizing n with
  | zero => rfl
  | succ k ih =>
    rw [lowestSet, ih, List.range_succ_eq_map, List.find?_cons, List.find?_map, Nat.testBit_zero]
    by_cases h : n % 2 = 1
    · simp [h]
    · simp only [h, decide_false, if_false]
      rw [testBit_comp_succ]
      cases (List.range k).find? (n / 2).testBit <;> simp [Nat.add_comm]

theorem popCount_eq_filter (k n : Nat) : popCount k n = ((List.range k).filter n.testBit).length := by
  induction k generalizing n with
  | zero => rfl
  | succ k ih =>
    rw [popCount, ih, List.range_succ_eq_map, List.filter_cons, List.filter_map, testBit_comp_succ, Nat.testBit_zero]
    rcases Nat.mod_two_eq_zero_or_one n with h | h <;> simp [h, Nat.add_comm]

theorem lowestSet_eq_trailing : lowestSet 64 x.toNat = trailing x := lowestSet_eq_find 64 x.toNat

theorem popCount_eq_setCount : popCount 64 x.toNat = setCount x := popCount_eq_filter 64 x.toNat

theorem leadingZeros_eq_leading : leadingZeros x = leading x := by
  by_cases hx : x = 0
  · subst hx; decide
  · have hn : x.toNat ≠ 0 := fun h => hx (BitVec.eq_of_toNat_eq h)
    have hlog : x.toNat.log2 < 64 := (Nat.log2_lt hn).mpr x.isLt
    have hfirst : (List.range 64).find? (fun k => x.getLsbD (63 - k)) = some (63 - x.toNat.log2) := by
      rw [List.find?_range_eq_some]
      refine ⟨?_, List.mem_range.mpr (by omega), fun j hj => ?_⟩
      · rw [show 63 - (63 - x.toNat.log2) = x.toNat.log2 by omega]
        exact Nat.testBit_log2 hn
      · have habove : x.toNat < 2 ^ (63 - j) := (Nat.log2_lt hn).mp (by omega)
        have hclear : x.toNat.testBit (63 - j) = false := Nat.testBit_lt_two_pow habove
        rw [← BitVec.testBit_toNat, hclear]; rfl
    rw [leadingZeros, leading, hfirst, if_neg hx]; rfl

end Sys2Proof.Spec
end

section
/-!
CERTIFICATE. The scalar register and immediate forms (R185 to R188).
-/

namespace Sys2Proof.Spec

open Sys2Proof.Machine

/-- Settles O5: a slot of either form lands the model's function of its operands (becomes_of_xrSlot, becomes_of_xiSlot), and each
function's value is the number that its rule names. -/
theorem scalarResults : Obligations.ScalarResults := by
  unfold Obligations.ScalarResults
  refine ⟨fun s st g d a b h => ?registers, fun s st g d a i n k x h => ?immediates, by decide⟩
  case registers =>
    exact ⟨becomes_of_xrSlot h (exec_add ..) (BitVec.add_def ..),
      becomes_of_xrSlot h (exec_sub ..) (sub_eq_ofInt ..),
      becomes_of_xrSlot h (exec_mul ..) (mul_eq_ofNat ..),
      becomes_of_xrSlot h (exec_mulh ..) rfl,
      becomes_of_xrSlot h (exec_mulhn ..) rfl,
      becomes_of_xrSlot h (exec_div ..) (divSigned_eq ..),
      becomes_of_xrSlot h (exec_divn ..) (divUnsigned_eq ..),
      becomes_of_xrSlot h (exec_rem ..) (remSigned_eq ..),
      becomes_of_xrSlot h (exec_remn ..) (remUnsigned_eq ..),
      becomes_of_xrSlot h (exec_and ..) rfl,
      becomes_of_xrSlot h (exec_or ..) rfl,
      becomes_of_xrSlot h (exec_xor ..) rfl,
      becomes_of_xrSlot h (exec_andn ..) rfl,
      becomes_of_xrSlot h (exec_shl ..) (by simp only [shiftCount_eq]),
      becomes_of_xrSlot h (exec_shr ..) (by simp only [shiftCount_eq]),
      becomes_of_xrSlot h (exec_sra ..) (by simp only [shiftCount_eq, sshiftRight_eq_ofInt]),
      becomes_of_xrSlot h (exec_min ..) (signed_min_eq ..),
      becomes_of_xrSlot h (exec_max ..) (signed_max_eq ..),
      becomes_of_xrSlot h (exec_minn ..) (unsigned_min_eq ..),
      becomes_of_xrSlot h (exec_maxn ..) (unsigned_max_eq ..),
      becomes_of_xrSlot h (exec_clz ..) (congrArg _ (leadingZeros_eq_leading _)),
      becomes_of_xrSlot h (exec_ctz ..) (congrArg _ (lowestSet_eq_trailing _)),
      becomes_of_xrSlot h (exec_popc ..) (congrArg _ (popCount_eq_setCount _)),
      becomes_of_xrSlot h (exec_add32 ..) (sext_low_word _),
      becomes_of_xrSlot h (exec_sub32 ..) (sext_low_word _)⟩
  case immediates =>
    exact ⟨becomes_of_xiSlot h (exec_addi ..) (by rw [immXi_eq_xiValue]),
      becomes_of_xiSlot h (exec_andi ..) (by rw [immXi_eq_xiValue]),
      becomes_of_xiSlot h (exec_ori ..) (by rw [immXi_eq_xiValue]),
      becomes_of_xiSlot h (exec_xori ..) (by rw [immXi_eq_xiValue]),
      becomes_of_xiSlot h (exec_shli ..) (shiftLeft_eq_ofNat ..),
      becomes_of_xiSlot h (exec_shri ..) (ushiftRight_eq_ofNat ..),
      becomes_of_xiSlot h (exec_srai ..) (sshiftRight_eq_ofInt ..),
      becomes_of_xiSlot h (exec_movi ..) (immXi_eq_xiValue ..),
      becomes_of_xiSlot h (exec_movk ..) (by rw [zext_eq_ofNat]; cases x <;> rfl)⟩

end Sys2Proof.Spec
end

section
/-!
CERTIFICATE. The controls of the system form (R43, R80, R209 to R211).
-/

namespace Sys2Proof.Spec

open Sys2Proof.Machine

/-! ### TRAPRD's word (R179, R210) -/

theorem toNat_append_eq_add {m n : Nat} (x : BitVec m) (y : BitVec n) : (x ++ y).toNat = x.toNat * 2 ^ n + y.toNat := by
  rw [BitVec.toNat_append, ← Nat.shiftLeft_add_eq_or_of_lt y.isLt, Nat.shiftLeft_eq]

theorem encode_traprd (g : BitVec 4) (d : BitVec 6) (n : BitVec 3) :
    encode (.traprd g d n) = some (14#4 ++ g ++ 5#4 ++ d ++ n ++ 0#11, none) := by
  have hword : BitVec.ofNat 32 (0xE0500000 + g.toNat * 0x1000000 + d.toNat * 0x4000 + n.toNat * 0x800) =
      14#4 ++ g ++ 5#4 ++ d ++ n ++ 0#11 := by
    apply BitVec.eq_of_toNat_eq
    have hg := g.isLt
    have hd := d.isLt
    have hn := n.isLt
    simp only [toNat_append_eq_add, BitVec.toNat_ofNat]
    omega
  exact congrArg (fun w => some (w, none)) hword

/-! ### The controls -/

variable {s : State} {st : Strand} {g : BitVec 4} {d a : BitVec 6} {n : BitVec 3}

theorem setpri_by_priority (g : BitVec 4) (a : BitVec 6) (s : State) :
    exec (.setpri g a) s = checkedSlot g (fun st =>
      if st.pri < (bitsAt (st.xr a) 0 8).toNat && !st.service then .error (privilegeTrap 0)
      else .ok (st.land 1 (.pri (bitsAt (st.xr a) 0 8).toNat))) s := by
  simp only [toNat_bitsAt_zero]
  rfl

theorem setpri_lands (h : Acts s st g) (hp : (bitsAt (st.xr a) 0 8).toNat ≤ st.pri ∨ st.service = true) :
    becomes (.setpri g a) s (lands st 1 [.pri (bitsAt (st.xr a) 0 8).toNat]) := by
  refine becomes_of_checkedSlot h (setpri_by_priority ..) ?_
  rcases hp with hp | hp
  · simp [Nat.not_lt.mpr hp, land_eq_lands]
  · simp [hp, land_eq_lands]

theorem setpri_traps (h : ActsInBundle s st g) (hp : st.pri < (bitsAt (st.xr a) 0 8).toNat) (hs : st.service = false) :
    traps (.setpri g a) s (privilegeTrap 0) :=
  traps_of_checkedSlot h (setpri_by_priority ..) (by simp [hs, hp])

theorem traprd_lands (h : Acts s st g) (hh : st.handler ≠ none) :
    becomes (.traprd g d n) s (lands st 1 (toX st d (st.trapRec[n.toNat]?.getD 0))) := by
  refine becomes_of_checkedSlot h (exec_traprd ..) ?_
  rw [if_pos (Option.isSome_iff_ne_none.mpr hh), landX_eq_lands]

theorem traprd_traps (h : ActsInBundle s st g) (hh : st.handler = none) : traps (.traprd g d n) s (privilegeTrap 0) :=
  traps_of_checkedSlot h (exec_traprd ..) (by simp [hh])

theorem idle_freezes (h : Acts s st g) (hc : (bitsAt (st.xr a) 0 32).toNat ≠ 0) :
    becomes (.idle g a) s { st with idle := some (bitsAt (st.xr a) 0 32).toNat } := by
  refine becomes_of_strandSlot h (exec_idle ..) ?_
  rw [toNat_bitsAt_zero] at hc ⊢
  exact if_neg hc

theorem idle_zero (h : Acts s st g) (hc : (bitsAt (st.xr a) 0 32).toNat = 0) : becomes (.idle g a) s st := by
  refine becomes_of_strandSlot h (exec_idle ..) ?_
  rw [toNat_bitsAt_zero] at hc
  exact if_pos hc

/-- Settles O14: SETPRI and TRAPRD by their two outcomes, IDLE by its count, the modes as strand slots that queue one result. -/
theorem systemControls : Obligations.SystemControls := by
  unfold Obligations.SystemControls
  intro s st g d a b o n h
  exact ⟨setpri_lands h.toActs,
    setpri_traps h,
    becomes_of_strandSlot h.toActs (exec_noisectlLive ..) (land_eq_lands ..),
    becomes_of_strandSlot h.toActs (exec_noisectlLog ..) (land_eq_lands ..),
    becomes_of_strandSlot h.toActs (exec_noisectlReplay ..) (land_eq_lands ..),
    becomes_of_strandSlot h.toActs (exec_chkmode ..) (land_eq_lands ..),
    traprd_lands h.toActs,
    traprd_traps h,
    idle_freezes h.toActs,
    idle_zero h.toActs,
    encode_traprd g d n,
    by decide⟩

end Sys2Proof.Spec
end

section
/-!
SUPPORT. Numbers by their bytes and their digits (R2), the lanes of a V register by their bytes (R227), and the rows of a tile that a slot
writes (R221, R227).
-/

namespace Sys2Proof.Spec

open Sys2Proof.Machine

/-! ### Bytes and digits (R2) -/

theorem leNat_eq_ofDigits (bs : List Byte) : leNat bs = Nat.ofDigits 256 (bs.map BitVec.toNat) := by
  induction bs with
  | nil => rfl
  | cons b bs ih => rw [leNat, ih, List.map_cons, Nat.ofDigits_cons]

theorem leNat_append (as bs : List Byte) : leNat (as ++ bs) = leNat as + 256 ^ as.length * leNat bs := by
  simp only [leNat_eq_ofDigits, List.map_append, Nat.ofDigits_append, List.length_map]

theorem leNat_lt (bs : List Byte) : leNat bs < 256 ^ bs.length := by
  rw [leNat_eq_ofDigits, ← List.length_map (f := BitVec.toNat)]
  refine Nat.ofDigits_lt_base_pow_length (by decide) fun x hx => ?_
  obtain ⟨b, -, rfl⟩ := List.mem_map.mp hx
  exact b.isLt

theorem leBytes_eq_map (k n : Nat) : leBytes k n = (List.range k).map fun e => BitVec.ofNat 8 (n / 256 ^ e) := by
  induction k generalizing n with
  | zero => rfl
  | succ k ih =>
    rw [leBytes, ih, List.range_succ_eq_map, List.map_cons, List.map_map]
    simp [Function.comp_def, Nat.pow_succ', Nat.div_div_eq_div_mul]

theorem getD_leBytes {k e : Nat} (he : e < k) (n : Nat) : (leBytes k n).getD e 0 = BitVec.ofNat 8 (n / 256 ^ e) := by
  simp [leBytes_eq_map, he]

theorem leNat_map_range_add (m n : Nat) (f : Nat → Byte) :
    leNat ((List.range (m + n)).map f) = leNat ((List.range m).map f) + 256 ^ m * leNat ((List.range n).map fun k => f (m + k)) := by
  rw [List.range_add, List.map_append, leNat_append, List.map_map]
  simp [Function.comp_def]

theorem leNat_map_range_lt (n : Nat) (f : Nat → Byte) : leNat ((List.range n).map f) < 256 ^ n := by
  simpa using leNat_lt ((List.range n).map f)

theorem leNat_map_range_eq_sum (n : Nat) (f : Nat → Byte) :
    leNat ((List.range n).map f) = ((List.range n).map fun e => (f e).toNat * 256 ^ e).sum := by
  induction n with
  | zero => rfl
  | succ n ih =>
    rw [leNat_map_range_add, ih, List.range_succ (n := n), List.map_append, List.sum_append]
    simp [leNat, Nat.mul_comm]

/-- The n bytes from byte m on, as a number. -/
theorem leNat_map_range_slice {m n k : Nat} (f : Nat → Byte) (h : m + n ≤ k) :
    leNat ((List.range k).map f) / 256 ^ m % 256 ^ n = leNat ((List.range n).map fun e => f (m + e)) := by
  obtain ⟨r, rfl⟩ := Nat.exists_eq_add_of_le h
  rw [Nat.add_assoc, leNat_map_range_add, leNat_map_range_add, Nat.add_mul_div_left _ _ (by positivity),
    Nat.div_eq_of_lt (leNat_map_range_lt ..), Nat.zero_add, Nat.add_mul_mod_self_left, Nat.mod_eq_of_lt (leNat_map_range_lt ..)]

/-- A digit of a number given by its digits. -/
theorem ofDigits_div_pow_mod {b : Nat} (hb : 0 < b) {ds : List Nat} (h : ∀ x ∈ ds, x < b) (n : Nat) :
    Nat.ofDigits b ds / b ^ n % b = ds.getD n 0 := by
  rw [Nat.ofDigits_div_pow_eq_ofDigits_drop n hb ds h, List.getD_eq_getElem?_getD, ← List.head?_drop]
  cases hd : ds.drop n with
  | nil => simp
  | cons x xs =>
    have hx : x < b := h x (List.mem_of_mem_drop (hd ▸ List.mem_cons_self))
    rw [Nat.ofDigits_cons, Nat.add_mul_mod_self_left, Nat.mod_eq_of_lt hx]; rfl

/-- A byte of a number by its digits of z bytes each: byte z·n + e is byte e of digit n. -/
theorem byte_of_digit {z e : Nat} (h : e < z) (x n : Nat) :
    x / 256 ^ (z * n + e) % 256 = x / (256 ^ z) ^ n % 256 ^ z / 256 ^ e % 256 := by
  obtain ⟨r, rfl⟩ := Nat.exists_eq_add_of_lt h
  rw [Nat.pow_add 256 (_ * n) e, Nat.pow_mul, ← Nat.div_div_eq_div_mul,
    show 256 ^ (e + r + 1) = 256 ^ e * 256 ^ (r + 1) by rw [← Nat.pow_add]; rfl, Nat.mod_mul_right_div_self,
    Nat.mod_mod_of_dvd _ (Dvd.intro_left _ (Nat.pow_succ ..).symm)]

theorem getD_flatten_map {α : Type} {w n k : Nat} (hk : k < w) (f : α → List Byte) (hf : ∀ x, (f x).length = w) (xs : List α) :
    (xs.map f).flatten.getD (w * n + k) 0 = (xs[n]?.elim [] f).getD k 0 := by
  induction xs generalizing n with
  | nil => simp
  | cons x xs ih =>
    rw [List.map_cons, List.flatten_cons]
    cases n with
    | zero => rw [Nat.mul_zero, Nat.zero_add, List.getD_append _ _ _ _ (by rwa [hf])]; rfl
    | succ n =>
      rw [List.getD_append_right _ _ _ _ (by rw [hf, Nat.mul_succ]; omega), hf,
        show w * (n + 1) + k - w = w * n + k by rw [Nat.mul_succ]; omega, ih]
      rfl

/-! ### Lanes by their bytes (R227) -/

/-- Byte n of the lanes of a V register: lane l holds bytes 4l to 4l + 3. -/
def laneByte (ls : Nat → Lane) (n : Nat) : Byte := BitVec.ofNat 8 ((ls (n / 4)).toNat / 256 ^ (n % 4))

theorem byte_eq_laneByte (v : VReg) : v.byte = laneByte v.lane := rfl

theorem toNat_laneByte (ls : Nat → Lane) (n : Nat) : (laneByte ls n).toNat = (ls (n / 4)).toNat / 256 ^ (n % 4) % 256 := by
  simp [laneByte]

theorem leNat_laneByte (ls : Nat → Lane) (l : Nat) : leNat ((List.range 4).map fun k => laneByte ls (4 * l + k)) = (ls l).toNat := by
  have hbytes : ((List.range 4).map fun k => laneByte ls (4 * l + k)) = leBytes 4 (ls l).toNat := by
    rw [leBytes_eq_map]
    refine List.map_congr_left fun k hk => ?_
    have hk : k < 4 := List.mem_range.mp hk
    rw [laneByte, show (4 * l + k) / 4 = l by omega, show (4 * l + k) % 4 = k by omega]
  rw [hbytes, leNat_leBytes]
  exact Nat.mod_eq_of_lt (ls l).isLt

/-- Lanes 0 and 1 as one word hold the first eight bytes. -/
theorem toNat_lanes_append (ls : Nat → Lane) : ((ls 1) ++ (ls 0)).toNat = leNat ((List.range 8).map (laneByte ls)) := by
  have h0 : leNat ((List.range 4).map (laneByte ls)) = (ls 0).toNat := by simpa using leNat_laneByte ls 0
  rw [show 8 = 4 + 4 from rfl, leNat_map_range_add, leNat_laneByte ls 1, h0, toNat_append_eq_add]
  omega

/-! ### The tags of tile rows (R221) -/

theorem rowTag_of_rowed {f : BitVec 4} (h : rowed f) : rowTag f.toNat = true := by
  rcases h with rfl | rfl | rfl | rfl <;> rfl

theorem elemBytes_of_rowed {f : BitVec 4} (h : rowed f) : elemBytes f.toNat = bitsOf f / 8 := by
  rcases h with rfl | rfl | rfl | rfl <;> rfl

theorem packBits_of_rowed {f : BitVec 4} (h : rowed f) : packBits f.toNat = 8 * (bitsOf f / 8) := by
  rcases h with rfl | rfl | rfl | rfl <;> rfl

theorem bytes_of_rowed {f : BitVec 4} (h : rowed f) : bitsOf f / 8 = 1 ∨ bitsOf f / 8 = 2 := by
  rcases h with rfl | rfl | rfl | rfl <;> decide

theorem tileBits_lt {t : TReg} (h : rowed t.tag) (i j : Nat) : tileBits t i j < 256 ^ (bitsOf t.tag / 8) :=
  elemBytes_of_rowed h ▸ leNat_map_range_lt ..

/-! ### A row written (R221, R227) -/

/-- Where byte k of element (r, c) stands in a tile of w-byte elements, and in its row. -/
theorem tile_index {w r c k : Nat} (hw : w = 1 ∨ w = 2) (hr : r < 64) (hc : c < 64) (hk : k < w) :
    w * (64 * r + c) + k < 8192 ∧ (w * (64 * r + c) + k) / (64 * w) = r ∧ (w * (64 * r + c) + k) % (64 * w) = w * c + k := by
  rcases hw with rfl | rfl <;> omega

theorem tileWithRow_tag (old : TReg) (f : BitVec 4) (i : Nat) (xs : List Nat) : (tileWithRow old f.toNat i xs).tag = f := by
  simp [tileWithRow]

theorem tileWithRow_byte (old : TReg) (fmt i : Nat) (xs : List Nat) {n : Nat} (hn : n < 8192) :
    (tileWithRow old fmt i xs).bytes[n]?.getD 0 =
      if n / (64 * elemBytes fmt) = i then ((xs.map (leBytes (elemBytes fmt))).flatten).getD (n % (64 * elemBytes fmt)) 0
      else if old.tag.toNat == fmt then old.bytes[n]?.getD 0 else 0 := by
  simp [tileWithRow, hn]

/-- An element of a tile with a row written, by its bytes. -/
theorem tileBits_tileWithRow (old : TReg) {f : BitVec 4} (hf : rowed f) (i : Nat) (x : Nat → Nat) {r c : Nat} (hr : r < 64) (hc : c < 64) :
    tileBits (tileWithRow old f.toNat i ((List.range 64).map x)) r c = leNat ((List.range (bitsOf f / 8)).map fun k =>
      if r = i then (leBytes (bitsOf f / 8) (x c)).getD k 0
      else if old.tag.toNat == f.toNat then old.bytes[bitsOf f / 8 * (64 * r + c) + k]?.getD 0 else 0) := by
  rw [tileBits, tileNat, tileWithRow_tag, elemBytes_of_rowed hf]
  refine congrArg leNat (List.map_congr_left fun k hk => ?_)
  have hk : k < bitsOf f / 8 := List.mem_range.mp hk
  obtain ⟨hn, hrow, hcol⟩ := tile_index (bytes_of_rowed hf) hr hc hk
  rw [tileWithRow_byte _ _ _ _ hn, elemBytes_of_rowed hf, hrow, hcol, getD_flatten_map hk _ (length_leBytes _)]
  simp [hc]

theorem rowWritten_tileWithRow (old : TReg) {f : BitVec 4} (hf : rowed f) (i : Nat) (x : Nat → Nat) :
    RowWritten old (tileWithRow old f.toNat i ((List.range 64).map x)) f i fun c => x c % 256 ^ (bitsOf f / 8) := by
  refine ⟨tileWithRow_tag .., fun r c hr hc => ?_⟩
  rw [tileBits_tileWithRow old hf i x hr hc]
  by_cases hi : r = i
  · simp only [hi, if_true]
    rw [← leNat_leBytes]
    exact congrArg leNat ((List.map_congr_left fun k hk => getD_leBytes (List.mem_range.mp hk) _).trans (leBytes_eq_map ..).symm)
  · by_cases hkeep : old.tag = f
    · subst hkeep
      simp only [hi, if_false, beq_self_eq_true, if_true, tileBits, tileNat, elemBytes_of_rowed hf]
    · have hne : ¬ old.tag.toNat = f.toNat := fun e => hkeep (BitVec.eq_of_toNat_eq e)
      rw [leNat_map_range_eq_sum]
      simp [hi, hkeep, hne]

end Sys2Proof.Spec
end

section
/-!
SUPPORT. The packed form of a row (R77, R227): its bitmap and fields as the model packs them, the lanes that XPACK writes, and the elements
that XPAND reads.
-/

namespace Sys2Proof.Spec

open Sys2Proof.Machine

/-! ### The bitmap -/

theorem sum_two_pow_lt (p : Nat → Bool) (n : Nat) : ((List.range n).map fun c => if p c then 2 ^ c else 0).sum < 2 ^ n := by
  induction n with
  | zero => simp
  | succ n ih =>
    rw [List.range_succ, List.map_append, List.sum_append, Nat.pow_succ]
    cases hp : p n <;> simp [hp] <;> omega

theorem testBit_sum_two_pow (p : Nat → Bool) {n c : Nat} (hc : c < n) :
    (((List.range n).map fun c => if p c then 2 ^ c else 0).sum).testBit c = p c := by
  induction n with
  | zero => omega
  | succ n ih =>
    have hlt := sum_two_pow_lt p n
    rw [List.range_succ, List.map_append, List.sum_append]
    rcases Nat.lt_succ_iff_lt_or_eq.mp hc with h | rfl
    · rw [← ih h]
      cases hp : p n
      · simp [hp]
      · simp [hp, Nat.add_comm _ (2 ^ n), Nat.testBit_two_pow_add_gt h]
    · cases hp : p c
      · simp [hp, Nat.testBit_lt_two_pow hlt]
      · simp [hp, Nat.add_comm _ (2 ^ c), Nat.testBit_two_pow_add_eq, Nat.testBit_lt_two_pow hlt]

theorem popCount_lt_of_testBit {c k n : Nat} (hc : c < k) (hb : n.testBit c = true) : popCount c n < popCount k n := by
  rw [popCount_eq_filter, popCount_eq_filter]
  calc ((List.range c).filter n.testBit).length
      < ((List.range (c + 1)).filter n.testBit).length := by simp [List.range_succ, hb]
    _ ≤ ((List.range k).filter n.testBit).length := ((List.range_sublist.mpr hc).filter _).length_le

/-! ### Packing and unpacking fields of whole bytes -/

theorem ceilDiv_bits (z n : Nat) : ceilDiv (8 * z * n) 8 = z * n := by
  rw [ceilDiv, Nat.mul_assoc]; omega

/-- The packed row of elements x of z bytes each: the bitmap, then the present elements as the digits of a number. -/
theorem packRow_eq {fmt z : Nat} (hz : packBits fmt = 8 * z) (x : Nat → Nat) :
    packRow fmt ((List.range 64).map x) =
      leBytes 8 ((List.range 64).map fun c => if presentBits fmt (x c) then 2 ^ c else 0).sum ++
      leBytes (z * ((List.range 64).filter fun c => presentBits fmt (x c)).length)
        (Nat.ofDigits (256 ^ z) (((List.range 64).filter fun c => presentBits fmt (x c)).map fun c => x c % 256 ^ z)) := by
  have hstream (ps : List Nat) : ps.foldr (fun f acc => f % 2 ^ (8 * z) + 2 ^ (8 * z) * acc) 0 =
      Nat.ofDigits (256 ^ z) (ps.map fun f => f % 256 ^ z) := by
    rw [Nat.ofDigits_eq_foldr, List.foldr_map, Nat.pow_mul]; rfl
  have hzip : ((List.range 64).map x).zip (List.range 64) = (List.range 64).map fun c => (x c, c) := by
    simpa using List.zip_map' (f := x) (g := id) (l := List.range 64)
  rw [packRow, hz, hstream, hzip]
  simp only [List.filter_map, List.map_map, List.length_map, Function.comp_def]
  rw [ceilDiv_bits]

/-- An unpacked row of elements of z bytes each: a present element is read behind those of the lower columns. -/
theorem packedRow_fst {fmt z : Nat} (hz : packBits fmt = 8 * z) (at_ : Nat → Byte) :
    (packedRow fmt at_ 0).1 = (List.range 64).map fun c => if (leNat ((List.range 8).map at_)).testBit c then
      leNat ((List.range z).map fun e => at_ (8 + z * popCount c (leNat ((List.range 8).map at_)) + e)) else 0 := by
  simp only [packedRow, Nat.zero_add, hz]
  refine List.map_congr_left fun c hc => ?_
  split
  · next hb =>
    have hrank := popCount_lt_of_testBit (List.mem_range.mp hc) hb
    rw [ceilDiv_bits, Nat.mul_assoc, Nat.pow_mul 2 8, Nat.pow_mul 2 8, show 2 ^ 8 = 256 from rfl,
      leNat_map_range_slice _ (show z * _ + z ≤ z * _ from Nat.mul_le_mul_left z hrank)]
    simp only [Nat.add_assoc]
  · rfl

/-! ### The row that XPACK packs (R227) -/

/-- Whether element c of row j of a tile counts as non-zero: its value for I8 and I16, else any bit but the sign. -/
def nonzeroIn (A : TReg) (j c : Nat) : Bool :=
  if A.tag = 1 ∨ A.tag = 2 then decide (tileBits A j c ≠ 0) else decide (tileBits A j c % 2 ^ 15 ≠ 0)

/-- The columns of row j that count as non-zero, in ascending order. -/
def columns (A : TReg) (j : Nat) : List Nat := (List.range 64).filter (nonzeroIn A j)

/-- The packed bytes of row j of a tile. -/
def rowBytes (A : TReg) (j : Nat) : List Byte := packRow A.tag.toNat ((List.range 64).map (tileBits A j))

/-- A lane of packed bytes; lane 63 holds their number. -/
def packedLane (bs : List Byte) (l : Nat) : Lane :=
  if l = 63 then BitVec.ofNat 32 bs.length else BitVec.ofNat 32 (leNat ((List.range 4).map fun k => bs.getD (4 * l + k) 0))

theorem laneByte_packedLane (bs : List Byte) {n : Nat} (hn : n < 252) : laneByte (packedLane bs) n = bs.getD n 0 := by
  refine BitVec.eq_of_toNat_eq ?_
  have hlane : (packedLane bs (n / 4)).toNat = leNat ((List.range 4).map fun k => bs.getD (4 * (n / 4) + k) 0) := by
    rw [packedLane, if_neg (by omega)]
    exact Nat.mod_eq_of_lt (leNat_map_range_lt 4 _)
  have hbyte := leNat_map_range_slice (fun k => bs.getD (4 * (n / 4) + k) 0) (show n % 4 + 1 ≤ 4 by omega)
  rw [Nat.pow_one] at hbyte
  rw [toNat_laneByte, hlane, hbyte]
  simp [leNat, Nat.div_add_mod]

theorem length_columns_le (A : TReg) (j : Nat) : (columns A j).length ≤ 64 := by
  simpa [columns] using List.length_filter_le (nonzeroIn A j) (List.range 64)

section
variable {A : TReg} (hr : rowed A.tag) (j : Nat)
include hr

theorem presentBits_tileBits (c : Nat) : presentBits A.tag.toNat (tileBits A j c) = nonzeroIn A j c := by
  have hlt := tileBits_lt hr j c
  rw [nonzeroIn, Bool.eq_iff_iff]
  rcases hr with h | h | h | h
  all_goals rw [h] at hlt ⊢
  case inl | inr.inl => rw [← Nat.mod_eq_of_lt hlt]; simp [presentBits, bitsOf]
  case inr.inr.inl | inr.inr.inr => simp [presentBits]

theorem rowBytes_eq :
    rowBytes A j = leBytes 8 ((List.range 64).map fun c => if nonzeroIn A j c then 2 ^ c else 0).sum ++
      leBytes (bitsOf A.tag / 8 * (columns A j).length) (Nat.ofDigits (256 ^ (bitsOf A.tag / 8)) ((columns A j).map (tileBits A j))) := by
  simp only [rowBytes, packRow_eq (packBits_of_rowed hr), presentBits_tileBits hr, Nat.mod_eq_of_lt (tileBits_lt hr j _)]
  rfl

theorem length_rowBytes : (rowBytes A j).length = 8 + bitsOf A.tag / 8 * (columns A j).length := by
  simp [rowBytes_eq hr]

theorem bitmap_rowBytes : leNat ((List.range 8).map fun k => (rowBytes A j).getD k 0) =
    ((List.range 64).map fun c => if nonzeroIn A j c then 2 ^ c else 0).sum := by
  rw [← Nat.mod_eq_of_lt (sum_two_pow_lt (nonzeroIn A j) 64), show 2 ^ 64 = 256 ^ 8 from rfl, ← leNat_leBytes, leBytes_eq_map]
  refine congrArg leNat (List.map_congr_left fun k hk => ?_)
  have hk : k < 8 := List.mem_range.mp hk
  rw [rowBytes_eq hr, List.getD_append _ _ _ _ (by rwa [length_leBytes]), getD_leBytes hk]

theorem field_rowBytes {n c e : Nat} (hc : (columns A j)[n]? = some c) (he : e < bitsOf A.tag / 8) :
    (rowBytes A j).getD (8 + bitsOf A.tag / 8 * n + e) 0 = BitVec.ofNat 8 (tileBits A j c / 256 ^ e) := by
  obtain ⟨hn, -⟩ := List.getElem?_eq_some_iff.mp hc
  have hin : bitsOf A.tag / 8 * n + e < bitsOf A.tag / 8 * (columns A j).length :=
    calc bitsOf A.tag / 8 * n + e < bitsOf A.tag / 8 * n + bitsOf A.tag / 8 := by omega
      _ ≤ bitsOf A.tag / 8 * (columns A j).length := Nat.mul_le_mul_left _ hn
  have hdigits : ∀ x ∈ (columns A j).map (tileBits A j), x < 256 ^ (bitsOf A.tag / 8) := by
    intro x hx
    obtain ⟨c, -, rfl⟩ := List.mem_map.mp hx
    exact tileBits_lt hr j c
  rw [rowBytes_eq hr, Nat.add_assoc, List.getD_append_right _ _ _ _ (by simp), length_leBytes, Nat.add_sub_cancel_left, getD_leBytes hin]
  refine BitVec.eq_of_toNat_eq ?_
  rw [BitVec.toNat_ofNat, BitVec.toNat_ofNat, show 2 ^ 8 = 256 from rfl, byte_of_digit he, ofDigits_div_pow_mod (by positivity) hdigits]
  simp [hc]

theorem packedLane_bitmap {c : Nat} (hc : c < 64) :
    ((packedLane (rowBytes A j) 1) ++ (packedLane (rowBytes A j) 0)).getLsbD c = nonzeroIn A j c := by
  have hbytes : (List.range 8).map (laneByte (packedLane (rowBytes A j))) = (List.range 8).map fun k => (rowBytes A j).getD k 0 :=
    List.map_congr_left fun k hk => laneByte_packedLane _ ((List.mem_range.mp hk).trans (by decide))
  rw [← BitVec.testBit_toNat, toNat_lanes_append, hbytes, bitmap_rowBytes hr, testBit_sum_two_pow _ hc]

theorem packedLane_length : (packedLane (rowBytes A j) 63).toNat = 8 + bitsOf A.tag / 8 * (columns A j).length := by
  have hn := length_columns_le A j
  rw [packedLane, if_pos rfl, length_rowBytes hr, BitVec.toNat_ofNat, Nat.mod_eq_of_lt]
  rcases bytes_of_rowed hr with hw | hw <;> rw [hw] <;> omega

theorem packedLane_field {n c e : Nat} (hc : (columns A j)[n]? = some c) (he : e < bitsOf A.tag / 8) :
    (laneByte (packedLane (rowBytes A j)) (8 + bitsOf A.tag / 8 * n + e)).toNat = tileBits A j c / 256 ^ e % 256 := by
  have hn : n < 64 := (List.getElem?_eq_some_iff.mp hc).1.trans_le (length_columns_le A j)
  rw [laneByte_packedLane, field_rowBytes hr j hc he, BitVec.toNat_ofNat]
  rcases bytes_of_rowed hr with hw | hw <;> rw [hw] at he ⊢ <;> omega

theorem packedLane_rest {n : Nat} (hlo : 8 + bitsOf A.tag / 8 * (columns A j).length ≤ n) (hn : n < 252) :
    (laneByte (packedLane (rowBytes A j)) n).toNat = 0 := by
  rw [laneByte_packedLane _ hn, List.getD_eq_default _ _ (length_rowBytes hr j ▸ hlo)]; rfl

end

/-! ### The row that XPAND unpacks (R227) -/

/-- What XPAND writes to column c, of elements of z bytes. -/
def unpacked (ls : Nat → Lane) (z c : Nat) : Nat :=
  if ((ls 1) ++ (ls 0)).getLsbD c then ((List.range z).map fun e =>
    (laneByte ls (8 + z * ((List.range c).filter fun m => ((ls 1) ++ (ls 0)).getLsbD m).length + e)).toNat * 256 ^ e).sum
  else 0

theorem unpacked_lt (ls : Nat → Lane) (z c : Nat) : unpacked ls z c < 256 ^ z := by
  rw [unpacked, ← leNat_map_range_eq_sum]
  split
  · exact leNat_map_range_lt ..
  · positivity

theorem packedRow_laneByte {fmt z : Nat} (hz : packBits fmt = 8 * z) (ls : Nat → Lane) :
    (packedRow fmt (laneByte ls) 0).1 = (List.range 64).map (unpacked ls z) := by
  rw [packedRow_fst hz, ← toNat_lanes_append]
  simp only [popCount_eq_filter, leNat_map_range_eq_sum]
  rfl

theorem rowWritten_packedRow {f : BitVec 4} (hf : rowed f) (old : TReg) (i : Nat) (ls : Nat → Lane) :
    RowWritten old (tileWithRow old f.toNat i (packedRow f.toNat (laneByte ls) 0).1) f i (unpacked ls (bitsOf f / 8)) := by
  have hrow := rowWritten_tileWithRow old hf i (unpacked ls (bitsOf f / 8))
  rw [packedRow_laneByte (packBits_of_rowed hf)]
  simpa only [Nat.mod_eq_of_lt (unpacked_lt ..)] using hrow

end Sys2Proof.Spec
end

section
/-!
CERTIFICATE. Rows packed and unpacked, and lanes permuted (R226, R227).
-/

namespace Sys2Proof.Spec

open Sys2Proof.Machine

/-! ### Results in the words of the statements -/

theorem landV_eq_lands (st : Strand) (l : Nat) (d : BitVec 5) (t : BitVec 4) (mask : Word) (f : Nat → Lane) :
    st.landV l d t mask (lanesOf f) = lands st l (toV d t mask f) := rfl

theorem lands_landFlags (st : Strand) (l : Nat) (rs : List Res) (f : Flags) :
    (lands st l rs).landFlags l f = lands st l (rs ++ if f = 0 then [] else [.flags f]) := by
  by_cases hf : f = 0
  · rw [Strand.landFlags, if_pos hf, if_pos hf, List.append_nil]
  · rw [Strand.landFlags, if_neg hf, if_neg hf]
    simp [Strand.land, lands]

/-! ### The index of a permuted lane (R226) -/

/-- The index that a lane of an index vector holds: signed for I32, unsigned for N32. -/
def indexOf (v : VReg) (l : Nat) : Int := if v.tag = 3 then (v.lane l).toInt else (v.lane l).toNat

theorem laneInt_eq_indexOf {v : VReg} (h : v.tag = 3 ∨ v.tag = 4) (l : Nat) : laneInt v.tag.toNat (v.lane l) = indexOf v l := by
  rcases h with h | h
  · rw [indexOf, if_pos h, h, BitVec.toInt_eq_toNat_cond]
    change signedOf 32 (v.lane l).toNat = _
    rw [signedOf, Nat.mod_eq_of_lt (v.lane l).isLt]
    exact if_congr (by omega) rfl rfl
  · rw [indexOf, h]; rfl

theorem laneIndex_eq {v : VReg} (h : v.tag = 3 ∨ v.tag = 4) (l : Nat) :
    laneIndex v l = if 0 ≤ indexOf v l ∧ indexOf v l ≤ 63 then some (indexOf v l).toNat else none := by
  rw [laneIndex, laneInt_eq_indexOf h]
  by_cases hin : 0 ≤ indexOf v l ∧ indexOf v l ≤ 63
  · rw [if_pos hin]; exact if_neg (by omega)
  · rw [if_neg hin]; exact if_pos (by omega)

theorem isNone_laneIndex {v : VReg} (h : v.tag = 3 ∨ v.tag = 4) (l : Nat) :
    (laneIndex v l).isNone = !decide (0 ≤ indexOf v l ∧ indexOf v l ≤ 63) := by
  rw [laneIndex_eq h]
  by_cases hin : 0 ≤ indexOf v l ∧ indexOf v l ≤ 63
  · rw [if_pos hin, decide_eq_true hin]; rfl
  · rw [if_neg hin, decide_eq_false hin]; rfl

/-! ### The slots -/

variable {s : State} {st : Strand} {g : BitVec 4} {d a b : BitVec 5} {t : BitVec 3} {f : BitVec 4} {i : BitVec 6} {k : BitVec 3}

theorem xpack_lands (h : Acts s st g) (hr : rowed (st.tr t).tag) :
    becomes (.xpack g d t i) s (lands st 6 (toV d 0 (BitVec.allOnes 64) (packedLane (rowBytes (st.tr t) i.toNat)))) := by
  refine becomes_of_checkedSlot h (exec_xpack ..) ?_
  simp only [rowTag_of_rowed hr, Bool.not_true, Bool.false_eq_true, if_false, landV_eq_lands, List.size_toArray,
    Array.getD_eq_getD_getElem?, List.getElem?_toArray, ← List.getD_eq_getElem?_getD]
  rfl

theorem xpand_lands (h : Acts s st g) (ha : (st.vr a).tag = 0) :
    becomes (.xpand g t a f i) s (lands st 6 [.t t.toNat
      (tileWithRow (st.tr t) f.toNat i.toNat (packedRow f.toNat (laneByte (st.vr a).lane) 0).1)]) := by
  rw [← byte_eq_laneByte]
  exact becomes_of_checkedSlot h (exec_xpand ..) (if_neg (not_not.mpr ha))

theorem xperm_lands (h : Acts s st g) (hb : (st.vr b).tag = 3 ∨ (st.vr b).tag = 4) :
    becomes (.xperm g d a b k) s (lands st 2 (toV d (st.vr a).tag (st.kr k)
      (fun l => if 0 ≤ indexOf (st.vr b) l ∧ indexOf (st.vr b) l ≤ 63 then (st.vr a).lane (indexOf (st.vr b) l).toNat else 0) ++
      if (List.range 64).any (fun l => (st.kr k).getLsbD l && !decide (0 ≤ indexOf (st.vr b) l ∧ indexOf (st.vr b) l ≤ 63))
        then [.flags flOOR] else [])) := by
  refine becomes_of_checkedSlot h (exec_xperm ..) ((if_neg fun ⟨h3, h4⟩ => hb.elim h3 h4).trans (congrArg Except.ok ?_))
  simp only [landV_eq_lands, lands_landFlags, isNone_laneIndex hb]
  refine congrArg (lands st 2) (congrArg₂ (· ++ ·) (congrArg (toV d _ _) (funext fun l => ?lane)) ?flags)
  case lane =>
    rw [laneIndex_eq hb]
    by_cases hin : 0 ≤ indexOf (st.vr b) l ∧ indexOf (st.vr b) l ≤ 63
    · rw [if_pos hin, if_pos hin]
    · rw [if_neg hin, if_neg hin]
  case flags =>
    split
    · exact if_neg (by decide)
    · exact if_pos rfl

theorem xperm_traps (h : ActsInBundle s st g) (h3 : (st.vr b).tag ≠ 3) (h4 : (st.vr b).tag ≠ 4) :
    traps (.xperm g d a b k) s { cause := 0x02, arg := 0x210 + b.toNat } :=
  traps_of_checkedSlot h (exec_xperm ..) (if_pos ⟨h3, h4⟩)

/-- Settles O19: the packed row is its bitmap and the digits of one number, which XPACK lays out in the lanes and XPAND reads back by
rank; XPERM reads each lane's index as the number that its tag gives. -/
theorem packedRowsAndPermutedLanes : Obligations.PackedRowsAndPermutedLanes := by
  unfold Obligations.PackedRowsAndPermutedLanes
  intro s st g d a b t f i k h
  simp only [← toNat_laneByte]
  exact ⟨fun hr => ⟨_, xpack_lands h hr, fun c hc => packedLane_bitmap hr _ hc, packedLane_length hr _,
      fun n c hc e he => packedLane_field hr _ hc he, fun n => packedLane_rest hr _⟩,
    fun ha hf => ⟨_, xpand_lands h ha, rowWritten_packedRow hf ..⟩,
    xperm_lands h,
    fun hb => xperm_traps ⟨h, hb⟩⟩

end Sys2Proof.Spec
end
